-- ==== Sys2Proof/Word.lean ====
section
/-!
DEFINITION. Words, bit fields and the sparse maps every part of the state is held in.
Register values are natural numbers bounded by their field's width; bytes of memory are `BitVec 8`.
A `KMap` is a list of (key, value) pairs in rising key order, with no entry equal to what an unlisted
key reads as: the one canonical form, so that equal contents are equal lists.
-/
namespace Sys2Proof

/-- One byte of a memory. -/
abbrev Byte := BitVec 8

/-- The field of `w` that starts at bit `lo` and is `n` bits wide. -/
def bits (w lo n : Nat) : Nat := (w / 2 ^ lo) % 2 ^ n

/-- Bit `k` of `w`. -/
def bit (w k : Nat) : Bool := (w / 2 ^ k) % 2 == 1

/-- `w` with its field at `lo`, `n` bits wide, holding `v`. -/
def setBits (w lo n v : Nat) : Nat :=
  w - (bits w lo n) * 2 ^ lo + (v % 2 ^ n) * 2 ^ lo

/-- 1 for true, 0 for false. -/
def b2n (b : Bool) : Nat := if b then 1 else 0

/-- The quotient rounded up. -/
def cdiv (a b : Nat) : Nat := (a + b - 1) / b

/-- A sum that stops at the largest `n`-bit value. -/
def satAdd (n a b : Nat) : Nat := Nat.min (a + b) (2 ^ n - 1)

/-- The two's complement reading of the low `n` bits of `v`. -/
def toSigned (n v : Nat) : Int :=
  let w := v % 2 ^ n
  if w < 2 ^ (n - 1) then (w : Int) else (w : Int) - (2 ^ n : Nat)

/-- The low `n` bits of an integer, as two's complement. -/
def ofSigned (n : Nat) (i : Int) : Nat := (i % ((2 ^ n : Nat) : Int)).toNat

/-- An integer held between two bounds. -/
def clampInt (lo hi i : Int) : Int := if i < lo then lo else if i > hi then hi else i

/-- An integer saturated to `n` bits of two's complement. -/
def satSigned (n : Nat) (i : Int) : Nat :=
  ofSigned n (clampInt (-((2 ^ (n - 1) : Nat) : Int)) ((2 ^ (n - 1) : Nat) - 1) i)

/-- Little-endian bytes as a number. -/
def leNat : List Byte → Nat
  | [] => 0
  | b :: bs => b.toNat + 256 * leNat bs

/-- The low `n` bytes of a number, least significant first. -/
def leBytes : Nat → Nat → List Byte
  | 0, _ => []
  | n + 1, v => BitVec.ofNat 8 v :: leBytes n (v / 256)

/-- The `n`-byte little-endian number at offset `k` of bytes held as numbers; bytes past the end read as 0. -/
def leAt (bs : List Nat) (k n : Nat) : Nat := leNat (((bs.drop k).take n).map (fun b => BitVec.ofNat 8 b))

/-- The element at `k`, or `d` past the end. -/
def nth {α : Type} (l : List α) (k : Nat) (d : α) : α := l.getD k d

/-- The list with its element at `k` replaced. -/
def setNth {α : Type} : List α → Nat → α → List α
  | [], _, _ => []
  | _ :: xs, 0, v => v :: xs
  | x :: xs, k + 1, v => x :: setNth xs k v

/-- A sparse map from natural-number keys, as rising (key, value) pairs. -/
abbrev KMap (α : Type) := List (Nat × α)

namespace KMap

/-- The value at a key; `d` is what an unlisted key reads as. -/
def get {α : Type} (d : α) : KMap α → Nat → α
  | [], _ => d
  | (k, v) :: m, key => if k = key then v else get d m key

/-- The map with a key unlisted. -/
def erase {α : Type} : KMap α → Nat → KMap α
  | [], _ => []
  | (k, v) :: m, key => if k = key then erase m key else (k, v) :: erase m key

/-- The map with an entry put at its place in key order. -/
def insert {α : Type} (key : Nat) (v : α) : KMap α → KMap α
  | [] => [(key, v)]
  | (k, w) :: m => if key < k then (key, v) :: (k, w) :: m else (k, w) :: insert key v m

/-- The map with a key set: writing what an unlisted key reads as removes the entry. -/
def put {α : Type} [DecidableEq α] (d : α) (m : KMap α) (key : Nat) (v : α) : KMap α :=
  if v = d then erase m key else insert key v (erase m key)

/-- The map without the keys from `lo` to `hi - 1`. -/
def dropRange {α : Type} (m : KMap α) (lo hi : Nat) : KMap α :=
  m.filter (fun e => decide (e.1 < lo ∨ hi ≤ e.1))

/-- The keys rise strictly. -/
def rising {α : Type} : KMap α → Bool
  | [] => true
  | [_] => true
  | (a, _) :: (b, w) :: m => decide (a < b) && rising ((b, w) :: m)

end KMap

end Sys2Proof
end

