-- ==== Sys2Proof/Syntax.lean ====
section
/-!
DEFINITION. The commands: one constructor for each row of the spec's table of operations.

Operands. A command carries what its sender writes (an address, a value, a length) and what the world brings (a measured value,
the bytes of a flit, what a fetch returned). The letters are the same throughout:
`i` isle (and its slice and NBUs), `p` harbour port, `q` quay, `e` DMA engine, `b` bollard, `d` power domain, `f` and `func`
function of the host interface (0 the physical one), `who` owner of bollard operations (function, or 17 for the pilots),
`w` the 32 bits written to a register (a waiter slot in WAITER_ARM, WAITER_DISARM and WAITER_TIMEOUT), `v` the value of
REGISTER_WRITE, DPOLICY_WRITE and SET_STATE_EFFECTER_STATES and elsewhere the cycle of the local frame, `cycle` the cycle of the
local frame (of the pilots in OWNERSHIP_REQUEST), `now` the time of the AON reference (in ms, or in µs for RACK_TICK and
LOCAL_FRAME_BOUNDARY), `us` a duration in µs, `left` the cycles left before the boundary reserve, `n` the unit or, for an NBU
operation, the indices completed where it is cut short, `slot` a slot of the port's table, `k` a place in the slot or a stack.
-/
namespace Sys2Proof

/-- Where and when: a unit (an isle, a die, a power domain) and a cycle of the local frame. -/
structure Moment where
  unit : Nat
  cycle : Nat
  deriving DecidableEq, Repr

/-- Who acts in an isle cycle (a function, 17 for the pilots, or a quay), and whether more of that cycle is still to come (R423). -/
structure InCycle where
  who : Nat
  more : Bool
  deriving DecidableEq, Repr

/-- An uncorrectable read: its isle, its cycle, and whether the pass in progress made it (R175, R227). -/
structure BadRead where
  isle : Nat
  cycle : Nat
  byPass : Bool
  deriving DecidableEq, Repr

/-- A TLP: its tag (of a completion, the requester whose read it answers), and its header as bytes (R435). -/
structure Tlp where
  tag : Nat
  hdr : List Nat
  deriving DecidableEq, Repr

/-- What an SPDM request asks for: the certificate chain, the measurements, or the keys of the IDE stream (R438, R791). -/
inductive SpdmKind where
  | certificates | measurements | ideKm
  deriving DecidableEq, Repr

/-- Host traffic of R477 that is neither served nor a bad BAR0 request. -/
inductive TlpKind where
  | malformed
  | unsupported (bar0 : Bool)
  | vendorMessage
  | zeroLengthRead
  | unexpectedCompletion
  | poisonedWrite
  deriving DecidableEq, Repr

/-- What of the keel device a program or an erase is for: the journal ring, the snapshot being written, or the firmware slot being
written (R714, R783). -/
inductive KeelTarget where
  | ring | snapshot | firmware
  deriving DecidableEq, Repr

/-- A transfer on the keel QSPI: a status read, a program or an erase (R722), or a read of so many bytes (R741). -/
inductive KeelTransfer where
  | status
  | program (target : KeelTarget)
  | erase (target : KeelTarget)
  | read (bytes : Nat)
  deriving DecidableEq, Repr

/-- The commands. -/
inductive Instr where
  /-- REGISTER_WRITE (R9): A write to a register field that has no row of its own takes effect according to its access code. -/
  | registerWrite (func a width v : Nat)
  /-- READ_CLEAR (R12): A full-width read of a register holding an RC field returns the field and then restarts it. -/
  | readClear (func a width : Nat)
  /-- AON_PHASE (R597): When the AON supply and REFCLK25 are good, the module reads and checks the fuses, reads the strap
  and drives MAIN_EN. -/
  | aonPhase (strap : Nat)
  /-- PILOT_PHASE (R780): When the AON phase ends with MAIN_PG high, PD0 is powered and the ROM verifies and boots a
  firmware slot. -/
  | pilotPhase (ok : Bool × Bool) (jesd : Nat)
  /-- KEEL_PHASE (R732): When the PILOT phase ends, the journal is mounted and the repair map, calibration, floor and image
  digest are read. -/
  | keelPhase
  /-- POWER_UP_PHASE (R593): When KEEL ends and no stop is demanded, the compute and memory domains are powered in order. -/
  | powerUpPhase
  /-- SELF_TEST_PHASE (R605): When POWER_UP ends, every die tests itself and its GLB_DIE_HEALTH bits are set. -/
  | selfTestPhase (dies failed : List Nat)
  /-- REPAIR_PHASE (R603): When SELF_TEST ends, the factory map and the field records are applied and spares are bound. -/
  | repairPhase
  /-- FILL_PHASE (R333): When REPAIR ends, every slice and lagoon is filled with zero data and valid checks. -/
  | fillPhase
  /-- RELEASE (R610): When every fill has ended, all 256 isles go from HELD to IDLE together and event 0x0001 is raised. -/
  | release (us : Nat)
  /-- MODULE_RESET (R591): GLB_MRESET GO with the correct KEY cycles PD0 and PD2–PD17 and reruns bring-up from PILOT. -/
  | moduleReset (w : Nat)
  /-- PILOT_WATCHDOG_EXPIRY (R782): An expired pilot watchdog causes a module reset and records the core. -/
  | pilotWatchdogExpiry (core : Nat)
  /-- AON_SUPPLY_LOSS (R831): VAON or VAON_IO outside its regulation window causes a power-on reset. -/
  | aonSupplyLoss
  /-- MAIN_PG_LOSS (R842): MAIN_PG low for 1 µs after the AON phase starts a supply-loss reset that also cycles PD1. -/
  | mainPgLoss
  /-- REFCLK25_LOSS (R848): REFCLK25 absent for 10 µs starts a supply-loss reset and sets REFCLK_LOST. -/
  | refclk25Loss
  /-- REFCLK100_LOSS (R846): Loss of REFCLK100 takes the host link down. -/
  | refclk100Loss
  /-- HOST_LINK_RESET (R592): PERST#, Hot Reset or link down resets the PD1 logic and the configuration space only. -/
  | hostLinkReset
  /-- COMPUTE_RESET_REQUEST (R612): A write of START to GLB_CRESET requests a compute reset, refused or deferred as the
  module state requires. -/
  | computeResetRequest (w : Nat)
  /-- COMPUTE_RESET_START (R615): At the reset cycle r, launches stop, wet frames are void and refresh becomes self-timed. -/
  | computeResetStart (v : Nat)
  /-- COMPUTE_RESET_QUIESCENT (R620): At the quiescent cycle q, every isle die begins a 300 µs logic self-test. -/
  | computeResetQuiescent
  /-- COMPUTE_RESET_SELF_TEST_END (R621): When the self-test ends, the repair map is reapplied, repairs are copied, and
  moved slices and lagoons are refilled. -/
  | computeResetSelfTestEnd (failed : List Nat)
  /-- COMPUTE_RESET_END (R624): When every copy and fill has ended, archipelagos take their restart states and local frames
  restart. -/
  | computeResetEnd (us : Nat)
  /-- RACK_TICK (R32): A rack frame begins at its LT, advancing FN. -/
  | rackTick (now : Nat)
  /-- LOCAL_FRAME_BOUNDARY (R23): At the boundary reserve the window closes, shadows are taken, requests are applied, D is
  chosen and admission is judged. -/
  | localFrameBoundary (now : Nat)
  /-- ISLE_CLOCK_RELOCK (R586): After a period or clock change, the isle clocks relock. -/
  | isleClockRelock
  /-- FRAME_END (R47): At cycle F of a wet or replay frame that is not void, frame-end and BEND additions apply and G
  toggles. -/
  | frameEnd
  /-- UNCORRECTABLE_READ_DETECT (R227): A foreground instruction detects an uncorrectable read and raises its archipelago's
  void line. -/
  | uncorrectableReadDetect (read : BadRead)
  /-- VOID_POINT (R128): Twenty-four cycles after detection the void line asserts in every isle and no further launch
  occurs. -/
  | voidPoint (a v : Nat)
  /-- ARRAY_RAMP_DOWN_END (R177): An aborted pass finishes ramping down its columns and the array is idle. -/
  | arrayRampDownEnd (m : Moment)
  /-- NOP (R208): A NOP word launches nothing. -/
  | nop (i : Nat)
  /-- LOOP (R209): A LOOP word repeats its body with stride and descriptor steps. -/
  | loop (i : Nat)
  /-- MAC (R152): A MAC pass multiplies and accumulates a block product into the output buffer. -/
  | mac (i : Nat)
  /-- L1 (R164): An L1 pass accumulates absolute differences. -/
  | l1 (i : Nat)
  /-- L2SQ (R164): An L2SQ pass accumulates squared differences. -/
  | l2sq (i : Nat)
  /-- MAX (R164): A MAX pass keeps the largest sum term. -/
  | max (i : Nat)
  /-- MIN (R164): A MIN pass keeps the smallest sum term. -/
  | min (i : Nat)
  /-- VADD (R233): The vector unit adds S1 and S2 into D. -/
  | vadd (i : Nat)
  /-- VSUB (R233): The vector unit subtracts S2 from S1 into D. -/
  | vsub (i : Nat)
  /-- VMUL (R233): The vector unit multiplies S1 by S2 into D. -/
  | vmul (i : Nat)
  /-- VFMA (R236): The vector unit computes a fused S1 × S2 + S3. -/
  | vfma (i : Nat)
  /-- VMAX (R238): The vector unit takes the element maximum of S1 and S2. -/
  | vmax (i : Nat)
  /-- VMIN (R238): The vector unit takes the element minimum of S1 and S2. -/
  | vmin (i : Nat)
  /-- VCVT (R241): The vector unit converts S1 from FMT_IN to FMT_OUT with a right shift. -/
  | vcvt (i : Nat)
  /-- VFN (R240): The vector unit applies the function selected by FUNC to S1. -/
  | vfn (i : Nat)
  /-- VRSUM (R237): The vector unit sums each row of S1. -/
  | vrsum (i : Nat)
  /-- VRMAX (R237): The vector unit takes the maximum of each row of S1. -/
  | vrmax (i : Nat)
  /-- VSEL (R238): The vector unit selects S3 where the comparison holds, else S2. -/
  | vsel (i : Nat)
  /-- VMOV (R231): The vector unit copies or transposes S1 into D. -/
  | vmov (i : Nat)
  /-- SARGMAX (R262): The sieve unit selects the winning channel per row. -/
  | sargmax (i : Nat)
  /-- SBOXDEC (R268): The sieve unit decodes anchors and deltas into box coordinates. -/
  | sboxdec (i : Nat)
  /-- SNMS (R274): The sieve unit ranks records and suppresses overlapping ones. -/
  | snms (i : Nat)
  /-- LIFT (R244): The slice port moves slice data into the lagoon. -/
  | lift (i : Nat)
  /-- LOWER (R245): The slice port moves lagoon data into the slice, writing partial words inline or to the merge buffer. -/
  | lower (i : Nat)
  /-- MERGE_ENTRY_TIMEOUT (R74): A merge-buffer entry triggers 256 cycles after its first write. -/
  | mergeEntryTimeout (m : Moment)
  /-- MERGE_COMMIT (R75): A triggered merge entry commits when the slice port is free. -/
  | mergeCommit (m : Moment)
  /-- CSEND (R247): The outbound port sends lagoon bytes along a causeway or strait route. -/
  | csend (i : Nat)
  /-- CRECV (R248): The inbound port writes the paired transfer into the destination lagoon. -/
  | crecv (i : Nat)
  /-- HSEND (R250): The isle copies a slot's payload into the harbour transmit buffer. -/
  | hsend (i : Nat)
  /-- HRECV (R500): The isle copies a slot's received payload, zeros for flits not intact, and its status line into the
  lagoon. -/
  | hrecv (i : Nat)
  /-- FERRY (R254): The ferry interface issues one NBU command with its argument to the addressed banks. -/
  | ferry (i damaged : Nat)
  /-- BEND (R207): A BEND schedules the addition of VALUE to its bollard at cycle F. -/
  | bend (i : Nat)
  /-- SCHEDULE_LOAD_START (R103): FRV_SCHED_CMD START begins fetching and checking a schedule package. -/
  | scheduleLoadStart (w : Nat)
  /-- SCHEDULE_CHECK_END (R100): The loader ends its checks, refusing with a code or accepting the package. -/
  | scheduleCheckEnd (fetched : Option (List Nat))
  /-- SCHEDULE_INSTALL_END (R106): The programs, descriptors and resident areas are written and the archipelago waits in
  INSTALL. -/
  | scheduleInstallEnd
  /-- QUIESCE (R135): A QUIESCE request in ISL_STATE_REQ is applied at the next boundary. -/
  | quiesce (i : Nat)
  /-- RESUME (R135): A RESUME request in ISL_STATE_REQ is applied at the next boundary. -/
  | resume (i : Nat)
  /-- OFF (R133): An OFF request stops the isle at once, voids its archipelago's frame and uninstalls the schedule. -/
  | off (i v : Nat)
  /-- ON (R132): An ON request brings an OFF isle to HELD and starts its lagoon zero-fill. -/
  | on (i : Nat)
  /-- LAGOON_FILL_END (R335): The 512-cycle lagoon fill after ON ends and the isle goes to IDLE. -/
  | lagoonFillEnd (i : Nat)
  /-- ISL_STATE_READ (R138): A read of ISL_STATE returns the management copy and logs event 0x0D03 when STALE is set. -/
  | islStateRead (x width : Nat)
  /-- REFRESH_SLOT (R293): A refresh slot refreshes one row group in 32 banks at its place in the service window. -/
  | refreshSlot (m : Moment)
  /-- SELF_TIMED_REFRESH_SLOT (R295): A self-timed slot refreshes on the controller's own timer while frames do not govern
  refresh. -/
  | selfTimedRefreshSlot (i : Nat)
  /-- SCRUB_STEP (R338): The scrubber reads one row, rewrites corrected words and poisons uncorrectable ones. -/
  | scrubStep (i c : Nat)
  /-- LAGOON_SCRUB (R310): The lagoon scrubber walks the descriptor table and resident area in the service window. -/
  | lagoonScrub (i : Nat) (upsets : List (Nat × Nat))
  /-- SENSOR_CALIBRATION (R661): Each die's reference oscillator is measured and its supply correction updated in the
  service window. -/
  | sensorCalibration (m : Moment) (measured : Nat)
  /-- HOST_SLICE_ACCESS (R94): A queued host, DMA, quay or loader access is served at a cycle where R91 allows it. -/
  | hostSliceAccess (i cycle : Nat)
  /-- CE_WINDOW_END (R350): At the end of a corrected-error window, a crossing of CE_THRESH sets CROSSED and signals a
  failure warning. -/
  | ceWindowEnd (i now : Nat)
  /-- KEY_LOAD (R328): A LOAD command fills a key slot at the next boundary, or is refused. -/
  | keyLoad (i w : Nat)
  /-- KEY_ZEROIZE (R326): A ZEROIZE command empties a key slot at the next boundary. -/
  | keyZeroize (i w : Nat)
  /-- FLIP_ARM (R344): A write of ARM arms the flip mask for the next selected write. -/
  | flipArm (i w : Nat)
  /-- HOSTVIEW_WRITE (R286): A write of VIEW changes the BAR2 view for later requests. -/
  | hostviewWrite (view : Nat)
  /-- NBU_FILL (R355): Each addressed NBU fills its stream with the argument. -/
  | nbuFill (i n : Nat)
  /-- NBU_COPY (R355): Each addressed NBU copies stream X to Y. -/
  | nbuCopy (i n : Nat)
  /-- NBU_ACC (R355): Each addressed NBU accumulates X into G, optionally clearing X. -/
  | nbuAcc (i n : Nat)
  /-- NBU_AXPBY (R358): Each addressed NBU computes α·X + β·Y into Y. -/
  | nbuAxpby (i n : Nat)
  /-- NBU_ADAMW (R360): Each addressed NBU performs the in-place adapter optimizer step. -/
  | nbuAdamw (i n : Nat)
  /-- NBU_SUMSQ (R361): Each addressed NBU accumulates the sum of squares and the largest magnitude. -/
  | nbuSumsq (i n : Nat)
  /-- NBU_OPERATION_END (R362): The operation ends, and each addressed bank returns its status record. -/
  | nbuOperationEnd (i : Nat) (damaged : List (Nat × Nat))
  /-- HOST_NBU_COMMAND (R378): NBU_HCMD START queues a host NBU command. -/
  | hostNbuCommand (i op layers banks imm : Nat)
  /-- HOST_NBU_COMMAND_START (R379): A queued host NBU command starts when the isle, the arbitration and its span allow, or
  is refused. -/
  | hostNbuCommandStart (i c damaged : Nat)
  /-- FERRY_ARBITRATION_ROUND (R375): The ferry arbiter grants a burst to the requester with the highest effective priority. -/
  | ferryArbitrationRound (i c mgmt slc : Nat)
  /-- QUAY_DOORBELL (R392): A write of QUA_PROD commits TO_DEVICE packets, or is refused. -/
  | quayDoorbell (func q pi : Nat)
  /-- QUAY_CONSUMER_WRITE (R386): A write of QUA_CONS on a TO_HOST quay advances CI, or is refused. -/
  | quayConsumerWrite (func q ci : Nat)
  /-- QUAY_HEADER_READ (R394): The engine reads and checks a header below PI, halting the quay or checking the packet. -/
  | quayHeaderRead (q : Nat) (header : List Nat) (bad : Bool)
  /-- QUAY_DELIVERY_START (R397): A checked packet begins writing its payload once its not-before frame is reached. -/
  | quayDeliveryStart (q : Nat)
  /-- QUAY_DELIVERY_COMPLETE (R398): With the payload readable, the bollard is added, CI and SEQ advance and a notice may be
  raised. -/
  | quayDeliveryComplete (r : InCycle)
  /-- QUAY_EMIT_OFFSET (R401): At EMIT_OFFSET a TO_HOST quay reserves ring space or skips the emission. -/
  | quayEmitOffset (q : Nat)
  /-- QUAY_PEEK_READ (R405): A read of QUA_PEEK returns the header at CI and restarts a TO_HOST idle timer. -/
  | quayPeekRead (func q held : Nat)
  /-- QUAY_IDLE_TIMEOUT (R410): The idle timer reaches IDLE_US and raises an idle notice. -/
  | quayIdleTimeout (q : Nat)
  /-- QUAY_ENABLE (R411): Writing ENABLE = 1 resets the indices and SEQ, or is refused. -/
  | quayEnable (func q ctrl : Nat)
  /-- QUAY_DISABLE (R412): Writing ENABLE = 0 stops delivery and rewinds emission at once. -/
  | quayDisable (func q ctrl : Nat)
  /-- BOLLARD_ADD (R417): An ADD changes a bollard, clamping at its limits. -/
  | bollardAdd (r : InCycle) (b delta : Nat)
  /-- BOLLARD_TAS (R416): A full-width read of BOL_TAS sets a zero bollard to 1 and returns the old value. -/
  | bollardTas (r : InCycle) (x width : Nat)
  /-- WAITER_ARM (R429): Writing ARM = 1 arms a waiter slot, or is refused. -/
  | waiterArm (who w ctrl : Nat)
  /-- WAITER_DISARM (R433): Writing ARM = 0 disarms a waiter slot at once. -/
  | waiterDisarm (who w ctrl : Nat)
  /-- WAITER_TIMEOUT (R432): A waiter slot that has not fired in TIMEOUT_US disarms and sends a message. -/
  | waiterTimeout (w : Nat)
  /-- LINK_TRAINED (R436): The host link completes training and reports a reduced rate or width. -/
  | linkTrained (rate width : Nat) (flit ide : Bool)
  /-- IDE_INTEGRITY_FAILURE (R438): An IDE integrity failure is handled per specification and raises event 0x0016. -/
  | ideIntegrityFailure
  /-- BAR0_BAD_REQUEST (R443): A BAR0 request of the wrong size or alignment is completed UR or discarded and counted. -/
  | bar0BadRequest (func tag : Nat) (read : Bool)
  /-- MALFORMED_TLP (R477): Malformed, unsupported or unexpected host traffic is discarded or completed as the table gives. -/
  | malformedTlp (func : Nat) (tlp : Tlp) (kind : TlpKind)
  /-- BAR2_REQUEST (R452): A BAR2 request is queued per target isle, held, or refused according to its target. -/
  | bar2Request (tlp : Tlp) (x len : Nat) (write : Bool) (data : List Nat) (ep : Bool)
  /-- BAR2_REQUEST_EXPIRY (R451): A BAR2 request not served within HOST_WAIT_US expires and is refused. -/
  | bar2RequestExpiry (tag : Nat)
  /-- BAR2_WINDOW_WRITE (R447): A change of OFFSET_GIB or BAR2 size applies to later BAR2 requests. -/
  | bar2WindowWrite (offset size : Nat)
  /-- DMA_ENABLE (R457): Writing ENABLE = 1 resets a DMA engine's indices. -/
  | dmaEnable (e ctrl : Nat)
  /-- DMA_DISABLE (R466): Writing ENABLE = 0 ends the current burst and writes status ABORTED. -/
  | dmaDisable (e ctrl : Nat)
  /-- DMA_DOORBELL (R457): A write of DMA_PROD posts descriptors, or is refused. -/
  | dmaDoorbell (e pi : Nat)
  /-- DMA_DESCRIPTOR_START (R459): An engine takes its next descriptor and splits it into bursts. -/
  | dmaDescriptorStart (e : Nat) (raw : List Nat) (status : Nat)
  /-- DMA_ARBITRATION_ROUND (R469): An arbiter grants a burst of at most 4 KiB to the requester with the highest effective
  priority. -/
  | dmaArbitrationRound (toHost : Bool)
  /-- DMA_TRANSFER_COMPLETE (R462): A completed transfer writes STATUS with DONE, advances CI and may notify. -/
  | dmaTransferComplete (e : Nat)
  /-- DMA_RESUME (R465): Writing 1 to HALTED resumes a halted engine. -/
  | dmaResume (e : Nat)
  /-- VF_FLR (R472): A function-level reset of a virtual function disables its quays and slots. -/
  | vfFlr (f : Nat)
  /-- PF_FLR (R473): A function-level reset of the physical function stops DMA and resets its host-side state. -/
  | pfFlr
  /-- D3HOT_ENTRY (R475): A function in D3hot decodes no BAR and the PF issues no bursts. -/
  | d3hotEntry (f : Nat)
  /-- DATA_LINK_DOWN (R476): The Data Link Layer going down discards BAR2 requests, stops DMA and disables host-memory
  quays. -/
  | dataLinkDown
  /-- CODEWORD_RECEIVE (R482): A received FEC codeword is decoded and its header judged for lock. -/
  | codewordReceive (p header : Nat) (corrected uncorrectable : Bool) (cycle : Nat)
  /-- LOCKING_TIMEOUT (R515): A port not relocked within 1 ms enters full PMD training. -/
  | lockingTimeout (p : Nat)
  /-- PMD_TRAINING_COMPLETE (R517): Training completes and the port returns to UP. -/
  | pmdTrainingComplete (p cycle : Nat)
  /-- FLIT_RECEIVE (R490): An IDLE or damaged flit is received, its LSN judged, and a damaged flit dropped. -/
  | flitReceive (p : Nat) (bytes : List Nat) (damaged : Bool)
  /-- DATA_FLIT_RECEIVE (R499): A DATA flit is accepted into its slot buffer or handled as a violation. -/
  | dataFlitReceive (p : Nat) (bytes : List Nat) (damaged : Bool) (cycle : Nat)
  /-- TIME_FLIT_RECEIVE (R51): A follower takes a master's TIME flit, computes its offset estimate and updates the servo. -/
  | timeFlitReceive (p : Nat) (bytes : List Nat) (damaged : Bool) (pos j t2 : Nat)
  /-- TIME_REPLY_RECEIVE (R504): The master takes a follower's reply and records T4 for the echo record. -/
  | timeReplyReceive (p : Nat) (bytes : List Nat) (damaged : Bool) (pos t4 : Nat)
  /-- HEARTBEAT_RECEIVE (R509): A HEARTBEAT control flit from the partner is taken. -/
  | heartbeatReceive (p : Nat) (bytes : List Nat) (damaged : Bool)
  /-- PROTEST_RECEIVE (R509): A PROTEST from the partner is recorded and raises event 0x0403. -/
  | protestReceive (p : Nat) (bytes : List Nat) (damaged : Bool)
  /-- RETRAIN_RECEIVE (R510): A RETRAIN naming a tick 1 to 65,535 frames ahead is honoured. -/
  | retrainReceive (p : Nat) (bytes : List Nat) (damaged : Bool)
  /-- TIME_FLIT_SEND (R504): The master sends TIME flits at positions 0–3 on every UP port. -/
  | timeFlitSend (p j t1 : Nat)
  /-- TIME_REPLY_SEND (R505): A follower replies at position 16 plus its module number. -/
  | timeReplySend (p t3 : Nat)
  /-- HEARTBEAT_SEND (R509): A HEARTBEAT is sent at position 88 of every rack frame. -/
  | heartbeatSend (p : Nat)
  /-- PROTEST_SEND (R511): A PROTEST is sent in the next free position, at most four per rack frame. -/
  | protestSend (p : Nat)
  /-- DATA_SLOT_TRANSMIT (R498): A DATA_TX slot's flits are sent at a rendezvous FN with their CAUSE. -/
  | dataSlotTransmit (p slot idx : Nat)
  /-- RECEIVE_BUFFER_DISCARD (R503): A slot buffer whose HRECV did not run is discarded at its deadline. -/
  | receiveBufferDiscard (p slot : Nat)
  /-- QUARANTINE_WINDOW_END (R512): A quarantine window ends and the violation count restarts. -/
  | quarantineWindowEnd (p : Nat)
  /-- QUARANTINE_CLEAR (R514): Writing 1 to QUARANTINED takes the port out of quarantine. -/
  | quarantineClear (p cycle : Nat)
  /-- PORT_ENABLE (R582): Writing ENABLE = 1 lets the port train in its image role. -/
  | portEnable (p : Nat)
  /-- PORT_DISABLE (R514): Writing ENABLE = 0 puts the port OFF and clears quarantine. -/
  | portDisable (p : Nat)
  /-- RETRAIN_REQUEST (R516): A voluntary retrain sends RETRAIN naming a tick after the data slots. -/
  | retrainRequest (p : Nat)
  /-- RETRAIN_TICK (R516): At the named tick both ends enter full training. -/
  | retrainTick (p : Nat)
  /-- FEC_WINDOW_END (R519): At the end of an FEC window a crossing sets CROSSED, warns and may request a retrain. -/
  | fecWindowEnd (p now : Nat)
  /-- LHT_ENABLE (R29): Writing ENABLE starts the lighthouse in its image role, or returns it to FREE. -/
  | lhtEnable (en : Bool)
  /-- LHT_LOCK (R53): Writing LOCK in LHT_CTRL locks every RWL field of LHT. -/
  | lhtLock
  /-- ACQUIRE_LISTEN_EXPIRY (R29): A master that heard no master for MASTER_LOSS_FRAMES periods enters MASTER at
  LHT_LT_PRESET. -/
  | acquireListenExpiry
  /-- LOCKED (R57): Sixteen consecutive frames within 1 ns bring a follower to LOCKED. -/
  | locked
  /-- HOLDOVER (R57): No usable port for MASTER_LOSS_FRAMES frames brings a follower to HOLDOVER. -/
  | holdover
  /-- HOLDOVER_LIMIT_EXPIRY (R862): HOLDOVER lasting HOLDOVER_LIMIT_US takes the follower to UNLOCKED. -/
  | holdoverLimitExpiry
  /-- LT_STEP (R55): A follower in ACQUIRE steps its LT at a boundary, lengthening that frame. -/
  | ltStep
  /-- BACKUP_PROMOTION (R58): A backup that lost the master for MASTER_LOSS_FRAMES promotes itself to MASTER. -/
  | backupPromotion
  /-- MASTER_DEMOTION (R59): A master hearing a later-epoch master demotes itself at the next tick. -/
  | masterDemotion
  /-- DPOLICY_WRITE (R38): A write of LHT_DPOLICY sets D_MIN and D_MAX, clamped or ignored. -/
  | dpolicyWrite (v : Nat)
  /-- IMAGE_LOAD_START (R569): FRV_IMG_CMD START begins fetching and checking an image. -/
  | imageLoadStart (w : Nat)
  /-- IMAGE_CHECK_END (R572): The loader ends its checks, refusing the image or staging it. -/
  | imageCheckEnd (fetched : Option (List Nat))
  /-- IMAGE_CANCEL (R571): CANCEL discards a staged image before its activation. -/
  | imageCancel (w : Nat)
  /-- KEY_REVOKE (R552): A write to FRV_KEY_REVOKE permanently revokes a signing key slot. -/
  | keyRevoke (w : Nat)
  /-- DOMAIN_ON_REQUEST (R633): A request to turn a domain on takes effect at the next boundary or at once, pending on its
  parent. -/
  | domainOnRequest (d : Nat)
  /-- DOMAIN_OFF_REQUEST (R629): A request to turn a domain off takes effect at once with its descendants. -/
  | domainOffRequest (d v : Nat)
  /-- SEQUENCER_STEP_COMPLETE (R634): A sequencer step's condition holds and the next up or down step begins. -/
  | sequencerStepComplete (m : Moment) (ok : Bool)
  /-- POWER_GOOD_TIMEOUT (R640): A rail step exceeding its limit takes the domain to FAULT. -/
  | powerGoodTimeout (d v : Nat)
  /-- HOLD_OFF_EXPIRY (R639): A DRAM domain's 10 ms HOLD_OFF ends and a kept on target starts U1. -/
  | holdOffExpiry (d : Nat)
  /-- RAIL_OUT_OF_REGULATION (R830): A rail outside its window for 1 µs is a power fault. -/
  | railOutOfRegulation (r v : Nat)
  /-- CLOCK_LOCK_LOSS (R641): A clock domain losing lock is a power fault. -/
  | clockLockLoss (n v : Nat)
  /-- OVERPOWER (R641): Input power above 1.5 × PCAP_W over 50 µs is a power fault that voids frames. -/
  | overpower (v : Nat)
  /-- AVS_ADJUST (R647): The voltage loop moves the isle-logic setpoint by 5 mV as margin requires. -/
  | avsAdjust (k : Nat) (up exhausted : Bool) (v : Nat)
  /-- AVS_WRITE_TIMEOUT (R836): An unacknowledged AVSBus write is retried, then the setpoint is held. -/
  | avsWriteTimeout (k : Nat)
  /-- POWER_SAMPLE (R651): The rail monitors sample input power every 10 µs. -/
  | powerSample (rails : List (Nat × Nat)) (mw : Nat)
  /-- HOST_CAP_WRITE (R650): A write of HOST_CAP_W sets the host cap, clamped as R4 gives. -/
  | hostCapWrite (w : Nat)
  /-- SENSOR_CONVERSION (R665): A sensor is converted and its warning, throttle and shutdown flags are set or cleared. -/
  | sensorConversion (n count now v : Nat)
  /-- THERMAL_SHUTDOWN (R669): After a shutdown flag sets, the compute and NBU domains are turned off and the latch set. -/
  | thermalShutdown (v : Nat)
  /-- COMPENSATION_UPDATE (R662): Every 1 ms references take compensation coefficients from their die's mean reading. -/
  | compensationUpdate
  /-- SHUTDOWN_LATCH_CLEAR (R673): Writing 1 to LATCHED clears the shutdown latch only when every sensor has cooled. -/
  | shutdownLatchClear (w : Nat)
  /-- THRESHOLD_WRITE (R664): A write of a warning or throttle threshold is clamped, or ignored in full. -/
  | thresholdWrite (dram : Bool) (w : Nat)
  /-- THM_LOCK (R858): Writing LOCK in THM_CTRL locks every RWL field of THM. -/
  | thmLock
  /-- COOLING_RECORD (R680): Every 10 ms the power and hottest reading are recorded and the cooling trend judged. -/
  | coolingRecord
  /-- PUMP_FAULT_CLEAR (R682): PUMP_FAULT clears after the pump output has been on without fault for 1 s. -/
  | pumpFaultClear
  /-- STOP_CHANNEL_CHANGE (R686): A stop channel's filtered state changes after 1 ms on the other side of its threshold. -/
  | stopChannelChange (b run : Bool) (v : Nat)
  /-- DISCREPANCY_EXPIRY (R694): A disagreement lasting DISC_MS latches CHANNEL_FAULT. -/
  | discrepancyExpiry
  /-- STOP_LATCH_CLEAR (R696): Writing 1 to STOP_LATCHED clears it only with both channels in RUN and no channel fault. -/
  | stopLatchClear (w : Nat)
  /-- CHANNEL_FAULT_CLEAR (R696): Writing 1 to CHANNEL_FAULT clears it only with both channels in RUN. -/
  | channelFaultClear (w : Nat)
  /-- SWO_COMMAND (R699): A write of CMD switches a switched output within 100 µs. -/
  | swoCommand (n w : Nat)
  /-- SWO_TRIP (R700): An output above 2.0 A for 10 ms trips off. -/
  | swoTrip (n : Nat)
  /-- SWO_RETRY (R701): An output in WAIT_RETRY returns to ON 1 s after its trip. -/
  | swoRetry (n : Nat)
  /-- SWO_RETRY_RESET (R702): RETRIES_USED returns to 0 after 10 s ON without a trip. -/
  | swoRetryReset (n : Nat)
  /-- BACKFEED_LATCH (R703): An off output whose pin stays above 2.0 V latches BACKFEED. -/
  | backfeedLatch (n : Nat)
  /-- BACKFEED_CLEAR (R705): Writing 1 to BACKFEED clears the latch only when the pin is low. -/
  | backfeedClear (n w mv : Nat)
  /-- LOOP_COMMAND (R706): A write of CMD_UA sets the LOOP current, clamped to its range. -/
  | loopCommand (w : Nat)
  /-- LOOP_HEADROOM_MEASURE (R707): Every 1 ms the LOOP headroom is measured and COMPLIANCE set or cleared. -/
  | loopHeadroomMeasure (vaux pin ua : Nat) (swo : List (Nat × Nat))
  /-- COMPLIANCE_LOST (R708): COMPLIANCE held for 500 ms sets COMPLIANCE_LOST and VALVE_SUSPECT; clear for 500 ms clears
  them. -/
  | complianceLost
  /-- LOOP_OPEN (R709): LOOP current below 3,600 µA for 10 ms sets LOOP_OPEN. -/
  | loopOpen
  /-- KEEL_APPEND (R721): A record is queued for the journal with the next SEQ, or an EVENT record dropped when full. -/
  | keelAppend (kind : Nat) (payload : List Nat)
  /-- KEEL_WRITE_TRANSFER (R722): A program, erase or status transfer to the keel device starts where it fits. -/
  | keelWriteTransfer (t : KeelTransfer) (c : Nat) (ok : Bool)
  /-- WEAR_RECORD (R719): A WEAR record is appended every 3,600 s powered. -/
  | wearRecord
  /-- COMPACTION_START (R727): A compaction starts when the occupancy reaches 75 %. -/
  | compactionStart
  /-- COMPACTION_END (R729): A compaction's read-back completes, making the snapshot current or restarting it. -/
  | compactionEnd (ok : Bool)
  /-- KEEL_READ (R740): A KEL READ fetches the record with the given SEQ into KEL_RD_BUF. -/
  | keelRead (w : Nat)
  /-- KEEL_HOST_APPEND (R740): A KEL APPEND appends a HOST record and returns its SEQ once durable. -/
  | keelHostAppend (w : Nat)
  /-- KEEL_COMPACT (R740): A KEL COMPACT starts a compaction. -/
  | keelCompact (w : Nat)
  /-- CHECKPOINT_REQUEST (R759): A write of REQUEST starts a checkpoint with a new generation and quiesce requests. -/
  | checkpointRequest (w now : Nat)
  /-- PIECE_RECEIVE (R762): The buddy writes a received piece into a free pool page. -/
  | pieceReceive (p slot k : Nat)
  /-- SEAL_RECEIVE (R764): The buddy holding a SEAL with all pieces commits, else sends MISS. -/
  | sealReceive (p slot k : Nat)
  /-- ACK_RECEIVE (R767): On ACK the source sets ACKED, counts the checkpoint and releases its quiesce hold. -/
  | ackReceive (p slot k now : Nat)
  /-- MISS_RECEIVE (R765): On MISS the source reads and resends the listed pieces with a new SEAL. -/
  | missReceive (p slot k : Nat)
  /-- NAK_RECEIVE (R768): On NAK the source abandons the checkpoint and merges its sending set back. -/
  | nakReceive (p slot k now : Nat)
  /-- ABANDON_EXPIRY (R768): ABANDON_RDV rendezvous without reply abandon the checkpoint. -/
  | abandonExpiry (now : Nat)
  /-- CHECKPOINT_ENABLE (R744): Writing ENABLE = 1 enables checkpoints and sets FULL_NEXT. -/
  | checkpointEnable (w now : Nat)
  /-- CHECKPOINT_DISABLE (R768): Writing ENABLE = 0 abandons any running checkpoint. -/
  | checkpointDisable (w now : Nat)
  /-- CLEAR_MAPS (R744): Writing CLEAR_MAPS clears every dirty map. -/
  | clearMaps (w now : Nat)
  /-- REFUGE_RESET (R758): Writing REFUGE_RESET clears USED in the directory and COMMITTED_GEN. -/
  | refugeReset (w now : Nat)
  /-- RESTORE_START (R769): A write of START to CKP_RESTORE sends every committed copy to the replacement. -/
  | restoreStart (w : Nat)
  /-- OWNERSHIP_REQUEST (R778): A pilot core requests a cache line, to be ordered by the directory. -/
  | ownershipRequest (core line cycle : Nat) (wb : Option Nat)
  /-- DIRECTORY_ROUND (R777): Every 5 ns the directory makes at most one ordering decision per line. -/
  | directoryRound
  /-- GET_INFO (R786): The mailbox returns the firmware slot versions, active slot and floor. -/
  | getInfo
  /-- FW_UPDATE (R787): The mailbox verifies and writes a firmware image into the inactive slot. -/
  | fwUpdate
  /-- FW_COMMIT_FLOOR (R781): The mailbox raises the firmware floor fuse counter. -/
  | fwCommitFloor
  /-- KEY_ENROLL (R788): The mailbox burns a signing key hash into a key slot. -/
  | keyEnroll
  /-- MAILBOX_BAD_OPCODE (R786): An undefined mailbox opcode ends with RESULT BAD_OPCODE. -/
  | mailboxBadOpcode (op : Nat)
  /-- MAILBOX_COMMAND_END (R785): A mailbox command ends, writing RESULT and DONE and optionally notifying. -/
  | mailboxCommandEnd (image : Option Nat)
  /-- MCTP_BAD_PACKET (R792): A packet breaking DSP0236 or its binding is discarded and counted. -/
  | mctpBadPacket (vdm : Bool)
  /-- MCTP_UNSUPPORTED_TYPE (R791): A message of an unsupported type is dropped and counted. -/
  | mctpUnsupportedType (vdm : Bool)
  /-- SET_ENDPOINT_ID (R791): The endpoint takes its ID on the binding. -/
  | setEndpointId (vdm : Bool) (eid : Nat)
  /-- GET_ENDPOINT_ID (R791): The endpoint returns its ID. -/
  | getEndpointId (vdm : Bool)
  /-- GET_ENDPOINT_UUID (R791): The endpoint returns its UUID. -/
  | getEndpointUuid (vdm : Bool)
  /-- GET_MCTP_VERSION_SUPPORT (R791): The endpoint returns its MCTP versions. -/
  | getMctpVersionSupport (vdm : Bool) (type : Nat)
  /-- GET_MESSAGE_TYPE_SUPPORT (R791): The endpoint returns its supported message types. -/
  | getMessageTypeSupport (vdm : Bool)
  /-- UNSUPPORTED_CONTROL_COMMAND (R791): Any other MCTP control command is answered ERROR_UNSUPPORTED_CMD. -/
  | unsupportedControlCommand (vdm : Bool) (cmd : Nat)
  /-- SPDM_REQUEST (R793): An SPDM request is answered with identity and measurements. -/
  | spdmRequest (path : Nat) (kind : SpdmKind)
  /-- GET_TID (R794): PLDM GetTID returns the terminus ID. -/
  | getTid (vdm : Bool)
  /-- GET_PLDM_VERSION (R794): PLDM GetPLDMVersion returns the version. -/
  | getPldmVersion (vdm : Bool) (type : Nat)
  /-- GET_PLDM_TYPES (R794): PLDM GetPLDMTypes returns the supported types. -/
  | getPldmTypes (vdm : Bool)
  /-- GET_PLDM_COMMANDS (R794): PLDM GetPLDMCommands returns the supported commands. -/
  | getPldmCommands (vdm : Bool) (type : Nat)
  /-- GET_PDR_REPOSITORY_INFO (R794): GetPDRRepositoryInfo describes the PDR repository. -/
  | getPdrRepositoryInfo (vdm : Bool)
  /-- GET_PDR (R795): GetPDR returns a sensor or effecter PDR. -/
  | getPdr (vdm : Bool) (handle : Nat)
  /-- GET_SENSOR_READING (R795): GetSensorReading returns a sensor's shadowed reading. -/
  | getSensorReading (vdm : Bool) (id : Nat)
  /-- GET_SENSOR_THRESHOLDS (R795): GetSensorThresholds returns a sensor's thresholds. -/
  | getSensorThresholds (vdm : Bool) (id : Nat)
  /-- SET_NUMERIC_SENSOR_ENABLE (R794): SetNumericSensorEnable enables or disables a numeric sensor. -/
  | setNumericSensorEnable (vdm : Bool) (id : Nat) (on : Bool)
  /-- SET_STATE_EFFECTER_STATES (R801): A state effecter setting writes the named request register, subject to
  MGMT_WRITE_EN. -/
  | setStateEffecterStates (vdm : Bool) (id state v : Nat)
  /-- GET_STATE_EFFECTER_STATES (R804): GetStateEffecterStates reports the management copy or live power state. -/
  | getStateEffecterStates (vdm : Bool) (id : Nat)
  /-- SET_NUMERIC_EFFECTER_VALUE (R801): SetNumericEffecterValue writes HOST_CAP_W, subject to MGMT_WRITE_EN. -/
  | setNumericEffecterValue (vdm : Bool) (id w : Nat)
  /-- GET_NUMERIC_EFFECTER_VALUE (R794): GetNumericEffecterValue returns the host cap. -/
  | getNumericEffecterValue (vdm : Bool) (id : Nat)
  /-- SET_EVENT_RECEIVER (R796): SetEventReceiver sets the single event receiver and its binding. -/
  | setEventReceiver (vdm : Bool) (eid : Nat)
  /-- GET_EVENT_RECEIVER (R794): GetEventReceiver returns the event receiver. -/
  | getEventReceiver (vdm : Bool)
  /-- PLATFORM_EVENT_MESSAGE (R796): A queued event is sent to the event receiver as a PlatformEventMessage. -/
  | platformEventMessage (answered : Bool)
  /-- PLATFORM_EVENT_RETRY_TIMEOUT (R798): An unanswered PlatformEventMessage is resent after 100 ms, then dropped. -/
  | platformEventRetryTimeout (answered : Bool)
  /-- PIL_LOCK (R858): Writing LOCK in PIL_CTRL locks MGMT_WRITE_EN. -/
  | pilLock (w : Nat)
  /-- TAP_RESET (R805): A TAP reset selects IDCODE. -/
  | tapReset
  /-- EXTEST (R808): EXTEST drives the boundary register when PD2–PD15 are off, else acts as BYPASS. -/
  | extest
  /-- IDCODE (R806): IDCODE selects the identification register. -/
  | idcode
  /-- SAMPLE_PRELOAD (R805): SAMPLE/PRELOAD captures and loads the boundary register. -/
  | samplePreload (pins cells : List Bool)
  /-- CLAMP (R808): CLAMP holds the outputs from the boundary register when allowed, else acts as BYPASS. -/
  | clamp
  /-- HIGHZ (R808): HIGHZ floats the outputs when allowed, else acts as BYPASS. -/
  | highz
  /-- BYPASS (R805): BYPASS, and every undefined code, selects the bypass register. -/
  | bypass (code : Nat)
  /-- EVENT_PERSIST (R818): An EVENT record of qualifying entries is appended to the keel store at most every 100 ms. -/
  | eventPersist
  /-- EVENT_UNFREEZE (R816): Writing UNFREEZE resumes a frozen ring or cancels a pending freeze. -/
  | eventUnfreeze (w : Nat)
  /-- FATAL_VALID_CLEAR (R817): Writing 1 to FATAL_VALID lets the next fatal event overwrite EVT_FATAL. -/
  | fatalValidClear
  /-- STACK_FILL_END (R335): The refill of a stack whose DRAM array domain came back on after release ends, so held host
  accesses are served and its scrub pointers restart at 0. -/
  | stackFillEnd (k : Nat)
  /-- VAUX_LOSS (R682): Loss of the 12 V VAUX supply turns the switched outputs off while they are commanded on, which sets
  PUMP_FAULT. -/
  | vauxLoss
  /-- HOST_READ_COMPLETION (R463): A completion arrives for a host-memory read that a DMA engine or the quay engine issued;
  it carries data, an error status or EP. -/
  | hostReadCompletion (tlp : Tlp) (status : Nat) (data : List Nat)
  /-- COMPLETION_TIMEOUT (R463): A host-memory read issued by a DMA engine or the quay engine receives no completion before
  its completion timer expires, so the engine halts with HOST_ERR. -/
  | completionTimeout (r : Nat)
  /-- D3HOT_EXIT (R475): A function returns from D3hot to D0 and decodes its BARs again; for the physical function, DMA and
  quay bursts may resume. -/
  | d3hotExit (f : Nat)
  /-- VF_DISABLE (R433): The host clears VF Enable, which disables the virtual functions and disarms every waiter slot they
  own. -/
  | vfDisable
  deriving DecidableEq, Repr

end Sys2Proof
end

