-- ==== Sys2Proof/Decode.lean ====
section
/-!
DEFINITION. Words that spell commands. The spec's table gives no row any bits: a command of this block is a register access, a
launch of a sequencer, a message or an event, and none is read from a word. So no word spells a command.
-/
namespace Sys2Proof

/-- The command that `nbits` bits spell by the table: none, since the table gives no row bits. -/
def decodeTableWord (_nbits _w : Nat) : Option Instr := none

end Sys2Proof
end

