-- ==== Sys2Proof/Config.lean ====
section
/-!
DEFINITION. What the spec leaves open, as constants with no body: no proof can see their values.
Each takes the operands the open value may depend on, or the state's counter of open values drawn.
-/
namespace Sys2Proof.Config

/-- Which of the results that the error bound of R240 allows a function takes, from the code of FUNC and the binary32 operand. -/
opaque vfn : Nat → Nat → Nat

/-- A byte of lagoon whose contents the spec calls undefined (R85, R174): the draw, the isle, the address. -/
opaque lagoonByte : Nat → Nat → Nat → BitVec 8

/-- What the check of R308 makes of a lagoon word with three or more bits in error, from its data and those bits. -/
opaque lagoonOutcome : Nat → Nat → Nat

/-- An accumulator of an output buffer that holds no defined contents (R174): the draw, the isle, the index. -/
opaque outputAcc : Nat → Nat → Nat → BitVec 32

/-- The servo's rate correction after a median (R860): the old correction and the median, in the register's codes. -/
opaque servoRate : Nat → Nat → BitVec 20

/-- The reading, in 1/8 °C, of an uncalibrated sensor of a die type from its oscillator count (R658). -/
opaque nominalReading : Nat → Nat → BitVec 16

/-- A sensor's oscillator count corrected for supply voltage by its die's last measurement (R661). -/
opaque supplyCorrect : Nat → Nat → BitVec 32

/-- Whether a reading that falls between two counts of 1/8 °C takes the upper one (R656, R657): numerator and denominator. -/
opaque readingUp : Int → Int → Bool

/-- An open value of any other kind: what it is for, and the draw. -/
opaque freeWord : Nat → Nat → BitVec 64

end Sys2Proof.Config
end

