-- ==== Sys2Proof/Machine/State.lean ====
section
/-!
DEFINITION. The state of a WM-40 module: every register, store, queue, counter and mode the spec gives it.
The registers of BAR0 are one sparse map of fields (`regs`), each field's one home; what no register shows is in the
structures below. Everything is plain data.
-/
namespace Sys2Proof.Machine

/-! Register fields. -/

/-- The access codes of R9. -/
inductive Access where
  | ro | rw | wo | w1c | w1s | rc | rwl
  deriving DecidableEq, Repr

/-- One register field: the BAR0 address of its register's first copy, its lowest bit, its width, its access code,
its reset value, and its copies as (count, stride) pairs. -/
structure Field where
  addr : Nat
  lo : Nat
  width : Nat
  acc : Access
  reset : Nat
  dims : List (Nat × Nat)
  deriving DecidableEq, Repr

/-- One register: first address, bytes (4 or 8), copies, fields. -/
structure Reg where
  addr : Nat
  bytes : Nat
  dims : List (Nat × Nat)
  fields : List Field
  deriving DecidableEq, Repr

/-! The event log (chapter Errors, Events and Long Runs). -/

/-- One event entry (R810). -/
structure Entry where
  code : Nat
  sev : Nat
  unit : Nat
  seq : Nat
  detail : Nat
  lt : Nat
  fn : Nat
  deriving DecidableEq, Repr

structure EventLog where
  /-- Entries still to be made before the ring freezes (R815), when a freeze is pending. -/
  freezeLeft : Option Nat := none
  /-- Entries made and events turned away in the current frame (R813). -/
  frameEntered : Nat := 0
  frameOver : Nat := 0
  /-- Events already raised in this local frame by rules that raise them once per frame: code and unit. -/
  once : List (Nat × Nat) := []
  /-- Entries waiting for the next EVENT record (R818). -/
  persist : List Entry := []
  /-- Events of a cycle whose effects are still being worked out, to take their SEQ together (R812). -/
  gathered : Option (List (Nat × Nat × Nat)) := none
  /-- An EVENT record was appended less than 100 ms ago (R818). -/
  spacing : Bool := false
  deriving DecidableEq, Repr

/-! Pilots: the queue of PLDM events (R796, R799), and the keel store's queue (R721). -/

/-- An event waiting for the receiver: its code, the full FN, and a numeric sensor's (identifier, state) if it is one. -/
structure PldmEvent where
  code : Nat
  fn : Nat
  sensor : Option (Nat × Nat)
  deriving DecidableEq, Repr

/-- A journal record (R716, R719): type, sequence number, power-on count, and payload bytes. -/
structure KeelRecord where
  kind : Nat
  seq : Nat
  boot : Nat
  payload : List Nat
  deriving DecidableEq, Repr

/-- A snapshot slot (R725): its checks hold, and its header and body. -/
structure KeelSnap where
  valid : Bool := false
  gen : Nat := 0
  covers : Nat := 0
  ringStart : Nat := 0
  body : List KeelRecord := []
  deriving DecidableEq, Repr

/-- A ring block: its records in order, and whether a slot that is neither erased nor valid follows them (R734). -/
structure KeelBlock where
  records : List KeelRecord := []
  torn : Bool := false
  deriving DecidableEq, Repr

/-- A compaction under way (R728, R729): the snapshot being written, chunks programmed, slot blocks erased, and attempts that
failed. -/
structure Compaction where
  snap : KeelSnap
  chunks : Nat
  erased : Nat
  failures : Nat
  deriving DecidableEq, Repr

/-- The keel store. The device's contents (snapshots, ring, the count of power-ons) outlast every loss of power; the rest is
the pilots' view of it since the mount. -/
structure Keel where
  snapA : KeelSnap := { valid := true, gen := 1 }
  snapB : KeelSnap := {}
  ring : KMap KeelBlock := []
  boot : Nat := 0
  /-- Retired blocks, in ascending order (R738). -/
  retired : List Nat := []
  /-- The block that holds the newest record since the snapshot. -/
  newest : Option Nat := none
  /-- The block being written, its bytes used, whether it is erased, and whether the next usable block is (R724). -/
  block : Nat := 0
  used : Nat := 0
  fresh : Bool := false
  nextErased : Bool := false
  /-- The last status read showed the device ready (R723), and chunks programmed of the record at the head of the queue. -/
  ready : Bool := false
  chunks : Nat := 0
  compaction : Option Compaction := none
  failed : Bool := false
  /-- The block to be erased next is live (R731). -/
  blocked : Bool := false
  /-- The SEQ of a host record that is not yet durable (R740). -/
  hostSeq : Option Nat := none
  /-- A program or an erase has been issued, and no status read has shown the device ready since (R723, R741); whether the device
  declares program and erase suspend; the cycle of the frame from which the QSPI is free. -/
  working : Bool := false
  suspends : Bool := false
  busyTo : Nat := 0
  /-- The record a READ fetches, as its bytes, and the bytes fetched (R740, R741). -/
  reading : Option (List Nat × Nat) := none
  /-- The WEAR counters, in the order of R737. -/
  wear : List Nat := List.replicate 8 0
  deriving DecidableEq, Repr

/-! Time (chapter Time and the Frame). -/

/-- The time stamps a follower holds of one exchange of one port, in ps (R51, R504 to R507): the master's send time, its
arrival, the forward correction, and the reply's send time once sent. -/
structure Exchange where
  t1 : Nat
  t2 : Nat
  fwd : Nat
  t3 : Option Nat
  deriving DecidableEq, Repr

structure Lighthouse where
  /-- LT has started (R29). -/
  running : Bool := false
  /-- A TICK_ORIGIN is held (R861). -/
  hasOrigin : Bool := false
  /-- Consecutive rack frames with |median| ≤ 1 ns; with no port in use; without a valid flit of the master. -/
  good : Nat := 0
  noPort : Nat := 0
  noMaster : Nat := 0
  /-- A named master listens in ACQUIRE for another master (R29). -/
  listening : Bool := false
  /-- This follower enters MASTER once LOCKED (R29, R583). -/
  masterOnLock : Bool := false
  /-- A master is being followed (R59); its number and epoch are in LHT_STATUS. -/
  following : Bool := false
  /-- A demotion to ACQUIRE waits for the next rack tick, before the master of this number (R59). -/
  demote : Option Nat := none
  /-- A valid time-transfer flit of the master followed has arrived in this rack frame. -/
  heard : Bool := false
  /-- A step of LT of this many ps, signed, waits for the next boundary or rack tick (R55). -/
  step : Option Int := none
  /-- The exchanges in progress and the last ones, by port; the estimates held, by port, in half picoseconds (R51); and the
  ports whose estimate is of this rack frame. -/
  exchanges : KMap Exchange := []
  last : KMap Exchange := []
  estimates : List (Nat × Int) := []
  fresh : List Nat := []
  /-- A flit 0 of this rack frame was heard on these ports and is not yet answered (R505). -/
  toAnswer : List Nat := []
  /-- A master's echo records, by port × 64 + module: T4 mod 2³² + C_BACK × 2³², received in this rack frame and in the one
  before; one is added so that a record of 0 is listed (R504). -/
  echoes : KMap Nat := []
  echoesLast : KMap Nat := []
  /-- The modules whose VALID bits the master's last flits carried (R538). -/
  alive : Nat := 0
  deriving DecidableEq, Repr

/-- The current local frame of the module (R23, R37). -/
structure Frame where
  /-- The module runs local frames. -/
  running : Bool := false
  /-- The frame began on a rendezvous FN with the lighthouse in a state that meets it (R42, R43). -/
  rdv : Bool := false
  /-- The service window has been reached (cycle F is past). -/
  window : Bool := false
  /-- A frame lengthened by a step in ACQUIRE (R55). -/
  stretched : Bool := false
  /-- The FN whose rack tick ends the frame (R37), and the frame's length in ns. -/
  endFn : Nat := 0
  lengthNs : Nat := 0
  /-- Steps 1 to 5 of R23 have been done for the frame's end, and the length chosen for the next frame. -/
  closed : Bool := false
  nextK : Nat := 1
  /-- Isle clocks are relocking (R586). -/
  relock : Bool := false
  /-- The FN of the last rendezvous the module met (R43). -/
  met : Option Nat := none
  /-- Local frames ran when the compute reset began, and have not restarted (R619, R624). -/
  restart : Bool := false
  deriving DecidableEq, Repr

/-! Isles (chapters The Isle, The Matrix Array, Schedule Instruction Formats). -/

/-- R131. -/
inductive IsleState where
  | off | held | idle | install | run | quiesced | faulted
  deriving DecidableEq, Repr

/-- The code of R131. -/
def IsleState.code : IsleState → Nat
  | .off => 0 | .held => 1 | .idle => 2 | .install => 3 | .run => 4 | .quiesced => 5 | .faulted => 6

/-- The kind of local frame an archipelago runs (R127). -/
inductive FrameKind where
  | none_ | dry | wet | replay
  deriving DecidableEq, Repr

/-- A loop the sequencer is inside: its body [start, stop), the stride, the trips and the iteration it is in (R209). -/
structure LoopFrame where
  start : Nat
  stop : Nat
  stride : Nat
  trips : Nat
  iter : Nat
  deriving DecidableEq, Repr

/-- The output buffer (R167, R172, R174): the accumulators that passes of the frame have left in it, from the first on; each
one past them has no defined contents, and is the open value of this draw. -/
structure OutBuf where
  draw : Nat := 0
  accs : List Nat := []
  deriving DecidableEq, Repr

/-- The pass last launched (R169, R175): launch cycle, compute cycles, whether it commits, and the first cycle in which it reads an
uncorrectable lagoon line. -/
structure Pass where
  t0 : Nat
  cycles : Nat
  commit : Bool
  poisonAt : Option Nat := none
  deriving DecidableEq, Repr

/-- A launch: the isle, the index of its word, the word, the loop indices innermost first, the launch cycle, the archipelago,
the kind of frame, and its generation bit. -/
structure Launch where
  isle : Nat
  index : Nat
  word : Nat
  iters : List Nat
  offset : Nat
  arch : Nat
  kind : FrameKind
  gen : Bool
  deriving DecidableEq, Repr

/-- The counters of an isle that instructions move as they work: those that add, and the two of SNMS, which are set. -/
inductive Ctr where
  | accSat | outSat | nan | vecSat | vecNan | trunc | boxSat | nmsKept | nmsEligible | lagCe | lagUe
  deriving DecidableEq, Repr

/-- What an instruction in progress has still to do (R61, R170, R233, R244 to R251). -/
inductive Act where
  /-- A pass begins its streaming read; its stationary operand is held as it was read. -/
  | stream (l : Launch) (stat : List Nat)
  /-- A pass ends: its accumulators stay in the output buffer, and, unless it was poisoned, its output is in the lagoon, with the
  counts its commit makes. -/
  | result (accs : List Nat) (out : List (Nat × List Nat)) (counts : List (Nat × Ctr × Nat))
  /-- Runs of lagoon bytes become readable: address and bytes. -/
  | rows (rs : List (Nat × List Nat))
  /-- A LIFT has read a code word that is not clean. -/
  | look (o : Nat)
  /-- A LOWER has written a code word: its offset, its mask, its bytes, and whether it is written poisoned; the cycle before is the
  last of its use of the slice port. -/
  | word (o mask : Nat) (bytes : List Nat) (poison : Bool)
  /-- An HSEND's payload has crossed its route. -/
  | sent (port slot : Nat)
  /-- An HRECV is over, and its slot's receive buffer is released. -/
  | release (port slot : Nat)
  deriving DecidableEq, Repr

/-- An act and the cycle by whose beginning it is done; the counts it brings, each with the cycle in which it is made; and whether
it runs to its end past a void point (R85, R229). -/
structure Flight where
  due : Nat
  act : Act
  marks : List (Nat × Ctr × Nat) := []
  keeps : Bool := false
  deriving DecidableEq, Repr

/-- Live counts of the frame, copied to their registers at step 2 of R23. -/
structure IsleCounts where
  launched : Nat := 0
  lastOffset : Nat := 0
  arrayCycles : Nat := 0
  sliceCycles : Nat := 0
  passes : Nat := 0
  computeCycles : Nat := 0
  accSat : Nat := 0
  outSat : Nat := 0
  nan : Nat := 0
  vecSat : Nat := 0
  vecNan : Nat := 0
  nmsKept : Nat := 0
  nmsEligible : Nat := 0
  trunc : Nat := 0
  boxSat : Nat := 0
  lagCe : Nat := 0
  lagUe : Nat := 0
  voids : Nat := 0
  deriving DecidableEq, Repr

structure Isle where
  /-- The authoritative state register (R131). -/
  state : IsleState := .off
  /-- The program store, as 128-bit words (R109), and the descriptor shadow, as 256-bit words (R110). -/
  program : List Nat := []
  descs : List Nat := []
  residentBytes : Nat := 0
  hostInts : List (Nat × Nat) := []
  /-- The sequencer's place: the next word and the loops it is inside, innermost first. -/
  pc : Nat := 0
  loops : List LoopFrame := []
  outBuf : OutBuf := {}
  pass : Option Pass := none
  /-- What the instructions in progress have still to do, in the order in which it falls due. -/
  flight : List Flight := []
  /-- The working area holds undefined bytes since the void frame of this draw (R85); bytes written since are listed. -/
  undefined : Option Nat := none
  counts : IsleCounts := {}
  /-- The live record behind ISL_FRAME's OUTCOME, ISL_VOID and ISL_ARRAY_ABORT. -/
  outcome : Nat := 0
  voidCause : Nat := 0
  voidSource : Nat := 0
  abortCycle : Nat := 0
  abortPhase : Nat := 3
  abortPoisoned : Bool := false
  /-- The lagoon zero-fill is running (R335). -/
  filling : Bool := false
  /-- The array ramps down after a void: the void point, and the columns that switched then (R177). -/
  ramping : Option (Nat × Nat) := none
  deriving DecidableEq, Repr

structure Arch where
  /-- The generation bit G (R87). -/
  gen : Bool := false
  /-- The third void frame in a row has ended: FAULTED from the next boundary (R48, R132). -/
  toFault : Bool := false
  /-- Causeway transfers sent and not yet received: route and bytes (R202). -/
  transfers : List (Nat × List Nat) := []
  frame : FrameKind := .none_
  /-- The kind admitted for the frame about to begin (step 5 of R23). -/
  next : FrameKind := .none_
  /-- The frame is void, with this void point. -/
  voidAt : Option Nat := none
  /-- An uncorrectable read has been detected, and the void point falls 24 cycles later (R128): the cycle of the earliest detection
  and its isle. -/
  voidDue : Option (Nat × Nat) := none
  /-- The frame before was void and ran wet or as a replay, so the next is a replay (R48). -/
  replayNext : Bool := false
  /-- The frame admitted at the last boundary has passed cycle F (frame-end additions made). -/
  ended : Bool := false
  /-- BEND additions due at F (R207): bollard and value. -/
  bends : List (Nat × Nat) := []
  /-- IN_PLACE ferry launches of this frame, and those of the void frame being replayed (R89): isle, word, iterations. -/
  inPlace : List (Nat × Nat × List Nat) := []
  skip : List (Nat × Nat × List Nat) := []
  /-- Installed and waiting for its first frame under R40. -/
  waiting : Bool := false
  /-- The first frame of this schedule has not begun (0x0B20, R107). -/
  fresh : Bool := false
  /-- The frame of the last rendezvous met became void (R498). -/
  rdvVoid : Bool := false
  deriving DecidableEq, Repr

/-! Slices (chapters Stacked Memory, Stored-Data Protection, Near-Bank Units). -/

/-- A merge-buffer entry (R73): code-word offset, byte mask, bytes, the cycle of its first write, its trigger cycle once it has
triggered (R74), and whether bytes of it came from an uncorrectable lagoon line (R229). -/
structure MergeEntry where
  word : Nat
  mask : Nat
  bytes : List Nat
  first : Nat
  trig : Option Nat
  poison : Bool
  deriving DecidableEq, Repr

/-- A command an NBU or the ferry bus carries (R371). -/
structure NbuCmd where
  op : Nat
  layers : Nat
  banks : Nat
  imm : Nat
  baseWord : Nat
  words : Nat
  arg : List Nat
  resEn : Bool
  host : Bool
  deriving DecidableEq, Repr

/-- A command that NBUs of an isle hold, from its start to its end (R353, R362): whether its beats arrived damaged, whether no
NBU was powered, the records its banks have made and how many of their beats the bus has carried, whether a read was
uncorrectable, whether the banks have worked, the end of its bank interval and of its results (R254), where its records go in
the lagoon as the address of each row and the row length, whether a compute reset stops it (R616), and the indices completed
where it was cut short (R381). -/
structure NbuRun where
  cmd : NbuCmd
  dropped : Bool
  absent : Bool
  records : List Nat
  sent : Nat
  badRead : Bool
  worked : Bool
  bankEnd : Nat
  resultEnd : Nat
  result : Option (List Nat × Nat)
  stopped : Bool := false
  done : Option Nat := none
  deriving DecidableEq, Repr

/-- A ferry-bus requester's record: waiting, and rounds lost (R375, R376). -/
structure FerryReq where
  waiting : Bool := false
  lost : Nat := 0
  deriving DecidableEq, Repr

/-- Who a queued slice access is for (R94): a BAR2 request by its tag, with its header; a DMA engine; the payload of a quay's
delivery and the outlet of its emission; and, where a quay's ring lies in device memory, payload read from it, a header read, a
header set to zero, and words put in it, the header last; a piece the checkpoint engine reads, and one it writes, as its source,
whether it is restored, its generation and its key (R761, R762). -/
inductive HostSrc where
  | bar2 (tag : Nat) (hdr : List Nat)
  | dma (engine : Nat)
  | delivery (quay : Nat)
  | emission (quay : Nat)
  | ringRead (quay : Nat)
  | ringHead (quay : Nat)
  | ringZero (quay : Nat)
  | ringPut (quay : Nat) (last : Bool)
  | ckpRead
  | ckpWrite (src : Nat) (restore : Bool) (gen key : Nat)
  deriving DecidableEq, Repr

/-- A queued slice access (R94, R450): its run of slice bytes, the bytes to write or those read so far, how many are
served, and the code words a read has found bad, or a write is to leave poisoned. -/
structure HostAcc where
  src : HostSrc
  off : Nat
  len : Nat
  write : Bool
  data : List Nat := []
  pos : Nat := 0
  bad : List Nat := []
  deriving DecidableEq, Repr

structure Slice where
  /-- The cycle of the frame from which the slice port is free, and the end of the last merge commit (R66, R75, R287). -/
  portFree : Nat := 0
  lastCommit : Nat := 0
  /-- The slice is being filled (R333 to R335). -/
  filling : Bool := false
  /-- Accesses waiting in arrival order. -/
  hostq : List HostAcc := []
  /-- The refresh pointer (R289), slots since bring-up and in this window (R289, R293). -/
  refreshPtr : Nat := 0
  slots : Nat := 0
  slotsFrame : Nat := 0
  /-- Host traffic in this frame (SLC_HOST). -/
  hostWords : Nat := 0
  hostRmw : Nat := 0
  /-- Loaded key slots (R325): 64 bytes each. -/
  keys : KMap (List Nat) := []
  /-- A key command waiting for the boundary (R327): 1 LOAD or 2 ZEROIZE, and its slot. -/
  keyCmd : Option (Nat × Nat) := none
  merge : List MergeEntry := []
  /-- CORRECTED outcomes in the current rate window (R350). -/
  winCount : Nat := 0
  /-- Frames of that window that have passed (R350). -/
  winFrames : Nat := 0
  /-- The next scrub step takes the upper half, and the cycle from which it may start (R339). -/
  scrubHigh : Bool := false
  scrubFree : Nat := 0
  /-- The host command waiting to start (R378), the accesses that arrived before it and still wait (R380), and the
  commands the NBUs hold, oldest first. -/
  hostCmd : Option NbuCmd := none
  cmdBehind : Nat := 0
  nbu : List NbuRun := []
  /-- The ferry bus: HOST, MGMT and SLC, the last winner, the cycle from which the bus is free of bursts, the cycle in which HOST was
  granted the beats of its command, and the cycles reserved for the schedule's FERRYs (R373 to R379). -/
  ferry : List FerryReq := [{}, {}, {}]
  ferryLast : Nat := 2
  busFree : Nat := 0
  hostGrant : Option Nat := none
  reserved : List (Nat × Nat) := []
  deriving DecidableEq, Repr

/-! Harbour ports (chapter Harbour Links). -/

/-- A DATA flit accepted into a slot buffer (R499): its CAUSE and its payload. -/
structure RxFlit where
  cause : Nat
  payload : List Nat
  deriving DecidableEq, Repr

/-- A PROTEST waiting for a free position (R511): reason, and the LSN, SLOT and FN of the offending flit. -/
structure Protest where
  reason : Nat
  lsn : Nat
  slot : Nat
  fn : Nat
  deriving DecidableEq, Repr

structure Port where
  /-- The header expected next (FIRST, PAIR_NO), consecutive valid and invalid headers (R482), and, newest first, which of
  the last 64 codewords were uncorrectable. -/
  header : Option (Nat × Nat) := none
  valid : Nat := 0
  invalid : Nat := 0
  recent : List Bool := []
  /-- The cycle of the local frame at which the port last became usable again after not being UP or being quarantined. -/
  backAt : Option Nat := none
  /-- Transmit data by slot (R250), and accepted flits by slot × 512 + index (R499). -/
  tx : KMap (List Nat) := []
  rx : List (Nat × RxFlit) := []
  /-- CONTROL flits received, and PROTESTs sent or waiting, in this rack frame (R509 reason 9, R511). -/
  controls : Nat := 0
  protested : Nat := 0
  protests : List Protest := []
  /-- The positions of the time region this module has filled in this rack frame: TIME flits and the HEARTBEAT (R504, R509). -/
  posted : List Nat := []
  /-- The DATA flits sent at a rendezvous, as slot × 512 + index, and that rendezvous FN (R498). -/
  sent : List Nat := []
  sentFn : Option Nat := none
  /-- Violations of each reason in the current window, and the FN at which the last window ended (R509, R512). -/
  reasons : KMap Nat := []
  windowFn : Option Nat := none
  /-- Corrected codewords of the current FEC window (R519). -/
  fecWindow : Nat := 0
  /-- Rack frames of that window that have passed (R519). -/
  fecFrames : Nat := 0
  /-- The tick of a retrain named, and whether this module asked for it (R510, R516). -/
  retrainAt : Option Nat := none
  retrainOwn : Bool := false
  /-- The partner's last HEARTBEAT: port, port state, FN, expected LSN, violations (R509). -/
  partner : Option (Nat × Nat × Nat × Nat × Nat) := none
  /-- The rendezvous FN whose slots HAR_SLOT_STAT counts (R502). -/
  judged : Option Nat := none
  deriving DecidableEq, Repr

/-! The Fervo image (chapter The Fervo Configuration Image). -/

/-- A PARTITION entry (R556): the isles, the admission list as (bollard, consume, threshold), and the frame-end additions
as (bollard, value). -/
structure PartEntry where
  arch : Nat
  isles : List Nat
  admission : List (Nat × Bool × Nat)
  ends : List (Nat × Nat)
  deriving DecidableEq, Repr

/-- A ROUTES entry (R558). -/
structure Route where
  index : Nat
  src : Nat
  dst : Nat
  segs : List Nat
  deriving DecidableEq, Repr

/-- A REGION entry (R561). -/
structure RegionEntry where
  isle : Nat
  entry : Nat
  value : Nat
  deriving DecidableEq, Repr

/-- A QUAY entry (R562). -/
structure QuayBind where
  quay : Nat
  toHost : Bool
  func : Nat
  arch : Nat
  isle : Nat
  winBase : Nat
  winLimit : Nat
  bolBase : Nat
  bolCount : Nat
  outlet : Nat
  outWords : Nat
  emitOffset : Nat
  deriving DecidableEq, Repr

/-- A slot record (R565): the port, the slot, and the 128-bit slot-table entry of R492. -/
structure SlotRec where
  port : Nat
  slot : Nat
  entry : Nat
  deriving DecidableEq, Repr

/-- A configuration image, read (R545 to R568): its digest and key slot, and its sections. -/
structure Image where
  digest : List Nat
  signer : Nat
  secVersion : Nat
  activateFn : Nat
  partialArch : Option Nat
  baseDigest : List Nat
  moduleId : Nat
  periodUs : Nat
  dBase : Nat
  master : Nat
  backup : Nat
  wImg : Nat
  rdvPeriod : Nat
  transitNs : Nat
  isleMhz : Nat
  avsEn : Bool
  pcapW : Nat
  parts : List PartEntry
  routes : List Route
  regions : List RegionEntry
  quays : List QuayBind
  roles : List Nat
  slots : List SlotRec
  envDramMax : Nat
  stopDiscMs : Nat
  swo1 : Nat
  swo2 : Nat
  loopUa : Nat
  deriving DecidableEq, Repr

/-! The schedule loader (chapter The Schedule Contract). -/

/-- One isle of a package (R99): its program words, its descriptors, its resident bytes and its host intervals. -/
structure PkgIsle where
  isle : Nat
  words : List Nat
  descs : List Nat
  resident : List Nat
  hostInts : List (Nat × Nat)
  deriving DecidableEq, Repr

/-- A load under way (R103 to R106): its archipelago, its address in host memory, the image in force at START and the archipelago digest then, whether an
image that touches the archipelago has taken effect since, the package once accepted, and whether it is being written. -/
structure SchedJob where
  arch : Nat
  addr : Nat
  image : Option Image
  digest : List Nat
  touched : Bool := false
  accepted : Option (List PkgIsle) := none
  installing : Bool := false
  deriving DecidableEq, Repr

/-! The host interface and quays (chapters Host Interface, Quays, Bollards). -/

/-- A TO_DEVICE packet whose header was accepted (R395, R397): its words, payload bytes, target DPA, bollard addition, whether
delivery has begun, the payload bytes fetched, asked for and written, and, once it is delivered or bad, that only the zeroing of
its header is awaited (R388): 0 for delivered, else the reason. -/
structure Packet where
  words : Nat
  bytes : Nat
  target : Nat
  addition : Option (Nat × Nat)
  notify : Bool
  notBefore : Option Nat
  started : Bool := false
  fetched : Nat := 0
  queued : Nat := 0
  written : Nat := 0
  fate : Option Nat := none
  deriving DecidableEq, Repr

/-- A TO_HOST packet reserved (R402): the word index of its header, the outlet bytes read so far, those written to the ring,
whether the reads have ended (a refused read never ends), and its header once its frame has committed it (R403). -/
structure Emission where
  start : Nat
  data : List Nat := []
  sent : Nat := 0
  ended : Bool := false
  header : List Nat := []
  deriving DecidableEq, Repr

structure Quay where
  packet : Option Packet := none
  /-- The read of a header in device memory waits (R394). -/
  heading : Bool := false
  emission : Option Emission := none
  /-- Emissions committed at their cycle F whose words have not all reached the ring, oldest first (R403). -/
  closing : List Emission := []
  /-- The idle timer has raised its notice and not restarted (R410). -/
  idleDone : Bool := false
  deriving DecidableEq, Repr

/-- A DMA descriptor taken (R458). -/
structure DmaDesc where
  host : Nat
  dev : Nat
  len : Nat
  toHost : Bool
  direct : Bool
  notify : Bool
  deriving DecidableEq, Repr

structure Dma where
  desc : Option DmaDesc := none
  /-- Bytes of the transfer in bursts granted so far, bytes moved, and the bytes of the burst in progress on the link. -/
  asked : Nat := 0
  moved : Nat := 0
  burst : Nat := 0
  /-- Data read from the device carried EP (R463 code 5). -/
  poisoned : Bool := false
  /-- ENABLE was cleared, or the engine is stopped, while a burst was in progress (R466). -/
  stopping : Bool := false
  deriving DecidableEq, Repr

/-- One of the two arbiters (R468 to R471): rounds lost by requester (engines 0–7, quays 8–71), the last winner, and the
requester whose burst has not ended. -/
structure Arbiter where
  lost : KMap Nat := []
  last : Nat := 71
  busy : Option Nat := none
  deriving DecidableEq, Repr

/-- A BAR0 request of the physical function that waits (R424, R444): for the BAR2 writes of these tags, if it is a bollard
operation, and for the requests held before it. -/
structure HeldOp where
  cmd : Instr
  after : List Nat
  deriving DecidableEq, Repr

/-- A bollard operation of the isle cycle being gathered (R423): its place in the order, its bollard, and its delta, or none for a
TAS. -/
structure BolOp where
  rank : Nat
  bollard : Nat
  delta : Option Int
  deriving DecidableEq, Repr

structure HostIf where
  /-- Functions in D3hot (R475), and the virtual functions that VF Enable makes present (R435, R473). -/
  d3hot : List Nat := []
  vfs : Nat := 0
  /-- The header log of AER, by function (R435). -/
  headerLog : KMap (List Nat) := []
  /-- The BAR2 size as log2 of GiB (R445). -/
  bar2Size : Nat := 0
  /-- The MSI-X tables, at function × 4096 + vector × 4 + word, and the pending bits, at function × 1024 + vector (R440). -/
  msix : KMap Nat := []
  msixPending : KMap Nat := []
  dma : KMap Dma := []
  /-- The arbiters of data to the device and to the host. -/
  toDevice : Arbiter := {}
  toHost : Arbiter := {}
  /-- Requesters whose host read is outstanding, with its bytes (R463). -/
  reads : KMap Nat := []
  held : List HeldOp := []
  deriving DecidableEq, Repr

/-! Power domains (chapter Power Domains and Clock Domains). -/

/-- The states of the sequencer (R634). -/
inductive DomState where
  | off | up | on | down | hold | fault
  deriving DecidableEq, Repr

/-- The step a sequencer runs (R634); `none_` in OFF, ON, HOLD_OFF and FAULT. -/
inductive SeqStep where
  | none_ | u1 | u2 | u3 | u4 | u5 | u6 | u7 | d1 | d2 | d3 | d4
  deriving DecidableEq, Repr

structure Dom where
  state : DomState := .off
  /-- The step in progress, and the step now running began after a reversal (R637, R638). -/
  step : SeqStep := .none_
  /-- The target held (R636). -/
  target : Bool := false
  /-- The target was written off while in FAULT (R640). -/
  cleared : Bool := false
  /-- An on request held until its parent is ON (R630), and one held for the next boundary (R633). -/
  waitParent : Bool := false
  waitBoundary : Bool := false
  /-- The domain goes to FAULT when it is down (R640). -/
  toFault : Bool := false
  deriving DecidableEq, Repr

/-- The voltage loop of an isle die (R646, R836): the setpoint last acknowledged, attempts of the present write that
failed, and whether the setpoint is held after three failures. -/
structure Avs where
  acked : Nat := 0
  tries : Nat := 0
  held : Bool := false
  deriving DecidableEq, Repr

/-- Input power (R651), sampled every 10 µs in mW: sums and counts over the foreground zone, the service window, and the
last 10 ms; E_fg of the last wet or replay frames in units of 10 nJ, newest first (R652); and P_svc of the last frame. -/
structure Meter where
  fgSum : Nat := 0
  svcSum : Nat := 0
  samples : Nat := 0
  svcSamples : Nat := 0
  coolSum : Nat := 0
  coolSamples : Nat := 0
  window : List Nat := []
  pSvcSum : Nat := 0
  pSvcSamples : Nat := 0
  deriving DecidableEq, Repr

/-! Bring-up (chapter Bring-Up and Partial Reset). -/

/-- The fuses (R13, R552, R597, R603): both copies of the variant bank as (VARIANT, FMAX_MHZ, PCAP_W), the key-hash slots
enrolled, those revoked, and the factory repair map as physical isles failed at test, by stack × 68 + position. -/
structure Fuses where
  copyA : Nat × Nat × Nat := (0, 1500, 1200)
  copyB : Nat × Nat × Nat := (0, 1500, 1200)
  keys : List (List Nat) := [List.replicate 32 0]
  revoked : Nat := 0
  failedIsles : List Nat := []
  /-- Steps used of the firmware floor (R781). -/
  fwFloor : Nat := 0
  deriving DecidableEq, Repr

/-- A compute reset under way (R614 to R624). -/
inductive CresetPhase where
  | none_ | stopping | testing | restarting
  deriving DecidableEq, Repr

structure Boot where
  /-- A reset whose event 0x0006 waits for the next release (R842); the core whose watchdog brought the last reset (R782); a
  slot that failed verification while the other was booted (R780). -/
  brownout : Bool := false
  watchdog : Option Nat := none
  slotFailed : Bool := false
  /-- The keel store has not been mounted since the power-on (R819). -/
  cold : Bool := true
  creset : CresetPhase := .none_
  /-- Isles moved by the compute reset in progress (R622). -/
  moved : List Nat := []
  /-- Physical isles (stack × 68 + position) that the self-test has found failed (R605). -/
  failedNow : List Nat := []
  /-- The spare (1 to 4) of each logical isle that a spare replaces, and the isles that could not be placed (R604, R607). -/
  placed : KMap Nat := []
  unplaced : List Nat := []
  /-- SLC_SPARE of each logical isle, as the last repair left it (R606). -/
  spares : KMap Nat := []
  deriving DecidableEq, Repr

/-! Checkpoints (chapter Differential Checkpoints and Buddy Copies). -/

/-- A piece of 1 KiB to be read and sent (R761, R770): the page it is of, its number, whether the page is enciphered, and the
slice offset it is read from. -/
structure CkpJob where
  isle : Nat
  page : Nat
  piece : Nat
  enc : Bool
  off : Nat
  deriving DecidableEq, Repr

/-- A generation being received from one source (R762 to R766, R771): the pieces written, as (isle × 8192 + page) × 64 + piece,
the pool page of each isle × 8192 + page with its ENC flag, and the SEAL held as (COUNT, CUT_FN). -/
structure CkpRx where
  src : Nat
  restore : Bool
  gen : Nat
  full : Bool
  got : List Nat
  alloc : List (Nat × Nat × Bool)
  sealed : Option (Nat × Nat)
  refused : Bool
  deriving DecidableEq, Repr

structure Ckp where
  /-- Archipelagos held quiesced (R760). -/
  holds : List Nat := []
  /-- The sending set, as words of the dirty maps by isle × 256 + word (R759), and whether the generation is FULL. -/
  swapped : KMap Nat := []
  full : Bool := false
  /-- Pieces to read, the piece whose read is queued at its slice, the units staged, and the units the next rendezvous
  carries (R761). -/
  todo : List CkpJob := []
  reading : Option CkpJob := none
  staged : List (List Nat) := []
  room : Nat := 0
  /-- The SEAL is still to be staged. -/
  sealDue : Bool := false
  /-- Rendezvous passed since the SEAL (R768). -/
  waited : Nat := 0
  /-- Replies waiting, with the module each is for. -/
  replies : List (Nat × List Nat) := []
  /-- When the last checkpoint ended, in ms of the AON reference (R746). -/
  ended : Option Nat := none
  received : List CkpRx := []
  /-- The latest generation seen (R763). -/
  seen : Option Nat := none
  deriving DecidableEq, Repr

/-! Thermal sensing (chapter Thermal Sensing and Response). -/

/-- A sensor as its last conversion left it (R656, R659, R665): whether it was converted, the reading in 1/8 °C, conversions
in a row out of range, FAILED, and its three flags. -/
structure Sensor where
  converted : Bool := false
  reading : Int := 0
  outOfRange : Nat := 0
  failed : Bool := false
  warn : Bool := false
  throt : Bool := false
  shut : Bool := false
  deriving DecidableEq, Repr

structure Thermal where
  /-- Calibration records by sensor, as loaded in the KEEL phase: T_A, N_A, T_B, N_B (R657). -/
  cal : List (Nat × Int × Nat × Int × Nat) := []
  sensors : KMap Sensor := []
  /-- The last supply measurement of each die (R661), 0 for none, and the last compensation of each die as the sum and
  number of its readings (R662). -/
  supply : KMap Nat := []
  comp : KMap (Int × Nat) := []
  /-- A failure warning stands for the logic class, and for the DRAM class (R667). -/
  warnedLogic : Bool := false
  warnedDram : Bool := false
  /-- The throttle condition holds; D_th has risen since it started; when D_th last changed, in µs of the AON reference (R668,
  R674). -/
  throttling : Bool := false
  risen : Bool := false
  changedAt : Nat := 0
  /-- Sensors whose shutdown flag has set and is not yet acted on, and the domains shutdowns have turned off (R669, R672). -/
  due : List Nat := []
  shut : List Nat := []
  /-- Cooling records, newest first: power in mW and the hottest logic reading (R680). -/
  cool : List (Nat × Int) := []
  /-- D exceeded D_MAX at the last boundary (R678). -/
  above : Bool := false
  /-- The cycle of the frame from which the scan may correct another die (R661). -/
  calFree : Nat := 0
  deriving DecidableEq, Repr

/-- Refresh by stack (R291, R294, R295, R627): stacks in HOT, stacks that refresh self-timed, and whether D_ref exceeded D_base
at the last boundary. -/
structure Refresh where
  hot : List Nat := []
  selfTimed : List Nat := [0, 1, 2, 3]
  floor : Bool := false
  deriving DecidableEq, Repr

/-! The facility interface. -/

structure Facility where
  /-- The filtered states of the stop channels: true for RUN (R686). -/
  aRun : Bool := false
  bRun : Bool := false
  /-- A stop was demanded since both channels were last in RUN (R691). -/
  demanded : Bool := true
  /-- The discrepancy timer runs (R692). -/
  timing : Bool := false
  /-- Headroom measurements since the last 0x070A, up to 100 (R707). -/
  loopQuiet : Nat := 100
  deriving DecidableEq, Repr

/-! Pilots (chapter Pilot Complex and Management Paths). -/

/-- A cache line in the directory (R776 to R778): its rotating pointer, the core that holds it in state M, a write-back in
flight, requests not yet ordered with their pilot cycles, requesters ordered and not yet served, and whether they are a case
of R777, with its rounds so far. -/
structure CacheLine where
  pointer : Nat := 0
  owner : Option Nat := none
  writeBack : Option Nat := none
  requests : List (Nat × Nat) := []
  order : List Nat := []
  race : Bool := false
  rounds : Nat := 0
  deriving DecidableEq, Repr

/-- A mailbox command that runs (R784): its opcode, its argument bytes and the host address. -/
structure MbxCmd where
  opcode : Nat
  arg : List Nat
  addr : Nat
  deriving DecidableEq, Repr

/-- The TAP (R805 to R808): the instruction in the register, whether it is one of EXTEST, CLAMP and HIGHZ in force, and the
cells that SAMPLE/PRELOAD loaded. -/
structure Tap where
  instr : Nat := 1
  active : Bool := false
  cells : List Bool := []
  deriving DecidableEq, Repr

/-- A firmware slot being written (R783, R787): the SEC_VERSION of the image, its blocks and 32-byte chunks, and those erased and
programmed. -/
structure FwWrite where
  version : Nat
  blocks : Nat
  chunks : Nat
  erased : Nat := 0
  written : Nat := 0
  deriving DecidableEq, Repr

structure Pilots where
  /-- SEC_VERSION of the image each firmware slot of the keel device holds, or none that verifies (R779). -/
  fwA : Option Nat := some 0
  fwB : Option Nat := some 0
  lines : KMap CacheLine := []
  cmd : Option MbxCmd := none
  fw : Option FwWrite := none
  /-- Numeric sensors disabled by SetNumericSensorEnable; threshold states other than normal, by sensor; and the readings
  shadowed at the last boundary (R795). -/
  disabled : List Nat := []
  levels : KMap Nat := []
  readings : KMap Int := []
  tap : Tap := {}
  deriving DecidableEq, Repr

/-! Refusals and faults. -/

/-- Why the machine stops with a fault. -/
inductive Fault where
  /-- Raised by no meaning: kept so that an outcome of this kind has a name. Safe. -/
  | unreachable
  deriving DecidableEq, Repr

/-- Why a command has no meaning. -/
inductive Refusal where
  /-- The command is not modelled. Raised only by an arm of `exec`; safe. -/
  | notModelled (mnemonic : String)
  deriving DecidableEq, Repr

/-- What the module sends out of itself. -/
inductive Out where
  /-- The value a register read returns. -/
  | value (v : Nat)
  /-- An MSI-X message of a function: vector, address and data (R440). -/
  | msix (func vector addr data : Nat)
  /-- A notice to the pilots from one of their waiter slots. -/
  | pilotNotice (slot : Nat)
  /-- A read of a function's BAR0 completed as an Unsupported Request. -/
  | readRefused (func : Nat)
  /-- A completion of a BAR0 or BAR2 request: its tag, its status, its bytes, and whether it carries EP. -/
  | completion (tag : Nat) (status : Nat) (data : List Nat) (ep : Bool)
  /-- A BAR2 request that the module has no credit for yet (R449): the link holds it, and offers it again. -/
  | withheld (tag : Nat)
  /-- An AER report of a function, by name, with the header logged. -/
  | aer (func : Nat) (what : String) (hdr : List Nat)
  /-- A write to host memory with a function's identity, and whether it carries EP. -/
  | hostWrite (func addr : Nat) (data : List Nat) (ep : Bool)
  /-- A read of host memory with a function's identity. -/
  | hostRead (func addr len : Nat)
  /-- A flit sent on a harbour port, as its 256 bytes. -/
  | flit (port : Nat) (data : List Nat)
  /-- An answer or a message of the management endpoint on a binding (SMBus, or PCIe VDM where `vdm`): its name, its completion
  code, and its values in order. -/
  | mctp (vdm : Bool) (name : String) (code : Nat) (values : List Int)
  /-- An SPDM answer over SMBus (0), PCIe VDM (1) or the DOE mailbox (2): its name and its bytes. -/
  | spdm (path : Nat) (name : String) (data : List Nat)
  /-- What a TAP instruction shifts out: the instruction's code, and the bits or the value. -/
  | tap (instr : Nat) (value : Nat)
  deriving DecidableEq, Repr

structure State where
  /-- Commands waiting, first in first out. -/
  pending : List Instr := []
  /-- Register fields that differ from their reset values, by key (address × 64 + lowest bit). -/
  regs : KMap Nat := []
  /-- The fields of PWR as step 2 of the last boundary left them, which reads return while local frames run (R50). -/
  pwrShadow : KMap Nat := []
  /-- What the module has sent, oldest first. -/
  out : List Out := []
  /-- Open values drawn so far. -/
  draws : Nat := 0
  log : EventLog := {}
  /-- PLDM events waiting, oldest first, and attempts made for the first (R798, R799). -/
  pldm : List PldmEvent := []
  pldmTries : Nat := 0
  /-- Records waiting to be programmed, in SEQ order (R721). -/
  keelQueue : List KeelRecord := []
  keel : Keel := {}
  lh : Lighthouse := {}
  frame : Frame := {}
  /-- Power domains PD0 to PD17. -/
  doms : KMap Dom := []
  avs : KMap Avs := []
  meter : Meter := {}
  fuses : Fuses := {}
  boot : Boot := {}
  ckp : Ckp := {}
  thermal : Thermal := {}
  refresh : Refresh := {}
  fac : Facility := {}
  pil : Pilots := {}
  archs : KMap Arch := []
  /-- Isles with a state request pending, in the order the last request of each was written (R135). -/
  requests : List Nat := []
  isles : KMap Isle := []
  slices : KMap Slice := []
  /-- The image in force and the staged image. -/
  image : Option Image := none
  staged : Option Image := none
  /-- The host address from which the image load under way, or the last one, fetches (R569). -/
  imageAddr : Nat := 0
  sched : Option SchedJob := none
  quays : KMap Quay := []
  /-- Bollard operations of the isle cycle that more are still to come in, in their order, and waiter slots armed in it (R423,
  R430). -/
  cycleOps : List BolOp := []
  cycleArms : List Nat := []
  ports : KMap Port := []
  hif : HostIf := {}
  /-- Lagoon bytes, at isle × 2²⁰ + address. -/
  lagoon : KMap Byte := []
  /-- Stored bits in error of a lagoon word and its check (R308), at isle × 2¹⁷ + word: data bits 0 to 63, check bits 64 to 71. -/
  lagoonErr : KMap Nat := []
  /-- Stored bytes of the slices, at (isle × 2²⁴ + code word) × 64 + byte 0–35. -/
  stored : KMap Byte := []
  deriving DecidableEq, Repr

/-- The module right after power-on. -/
def State.reset : State := {}

end Sys2Proof.Machine
end

