-- ==== Sys2Proof/Machine/Registers.lean ====
section
/-!
DEFINITION. The registers of BAR0 (R853, and the register tables of every chapter): one constant per field, with its
address, bit position, width, access code, reset value and instances; then one row per register, for accesses by address.
A reset value that the spec gives as a source (fused, strap, image, keel store) is 0 here until that source is loaded (R857).
-/
namespace Sys2Proof.Machine.R

/-! GLB_IDENT (00_scope.md). -/
def GLB_IDENT_FAMILY : Field := ⟨0x0, 24, 8, .ro, 0x4e, []⟩
def GLB_IDENT_PART : Field := ⟨0x0, 16, 8, .ro, 0x28, []⟩
def GLB_IDENT_STEPPING : Field := ⟨0x0, 8, 8, .ro, 0, []⟩
/-! GLB_FUSE (00_scope.md). -/
def GLB_FUSE_VARIANT : Field := ⟨0x4, 0, 2, .ro, 0, []⟩
def GLB_FUSE_FMAX_MHZ : Field := ⟨0x4, 4, 12, .ro, 0, []⟩
def GLB_FUSE_PCAP_W : Field := ⟨0x4, 16, 16, .ro, 0, []⟩
/-! GLB_INVENTORY (01_module_at_a_glance.md). -/
def GLB_INVENTORY_LOGICAL_ISLES : Field := ⟨0x8, 0, 9, .ro, 0, []⟩
def GLB_INVENTORY_SPARES_FREE : Field := ⟨0x8, 16, 5, .ro, 0, []⟩
def GLB_INVENTORY_HARBOUR_PORTS : Field := ⟨0x8, 24, 4, .ro, 8, []⟩
def GLB_INVENTORY_STACKS : Field := ⟨0x8, 28, 4, .ro, 4, []⟩
/-! GLB_DIE_HEALTH (01_module_at_a_glance.md). -/
def GLB_DIE_HEALTH_ISLE_DIE : Field := ⟨0x10, 0, 4, .ro, 0, []⟩
def GLB_DIE_HEALTH_DRAM_LAYER : Field := ⟨0x10, 4, 32, .ro, 0, []⟩
def GLB_DIE_HEALTH_HARBOUR_A : Field := ⟨0x10, 36, 1, .ro, 0, []⟩
def GLB_DIE_HEALTH_HARBOUR_B : Field := ⟨0x10, 37, 1, .ro, 0, []⟩
def GLB_DIE_HEALTH_PILOT : Field := ⟨0x10, 38, 1, .ro, 1, []⟩
def GLB_DIE_HEALTH_BRIDGE : Field := ⟨0x10, 39, 1, .ro, 0, []⟩
/-! GLB_HOSTVIEW (09_stacked_memory.md). -/
def GLB_HOSTVIEW_VIEW : Field := ⟨0x20, 0, 1, .rw, 0, []⟩
/-! GLB_HIF_LINK (14_host_interface.md). -/
def GLB_HIF_LINK_RATE : Field := ⟨0x30, 0, 3, .ro, 0, []⟩
def GLB_HIF_LINK_WIDTH : Field := ⟨0x30, 3, 5, .ro, 0, []⟩
def GLB_HIF_LINK_FLIT : Field := ⟨0x30, 8, 1, .ro, 0, []⟩
def GLB_HIF_LINK_IDE_SECURE : Field := ⟨0x30, 9, 1, .ro, 0, []⟩
def GLB_HIF_LINK_RETRAINS : Field := ⟨0x30, 16, 16, .rc, 0, []⟩
/-! GLB_BAR2_WINDOW (14_host_interface.md). -/
def GLB_BAR2_WINDOW_OFFSET_GIB : Field := ⟨0x38, 0, 7, .rw, 0, []⟩
/-! GLB_HIF_LIMIT (14_host_interface.md). -/
def GLB_HIF_LIMIT_HOST_WAIT_US : Field := ⟨0x40, 0, 16, .rw, 0x2710, []⟩
/-! GLB_HIF_ERR (14_host_interface.md). -/
def GLB_HIF_ERR_BAR0_BAD : Field := ⟨0x48, 0, 16, .rc, 0, []⟩
def GLB_HIF_ERR_REFUSED : Field := ⟨0x48, 16, 16, .rc, 0, []⟩
def GLB_HIF_ERR_EXPIRED : Field := ⟨0x48, 32, 16, .rc, 0, []⟩
def GLB_HIF_ERR_VEC_ERR : Field := ⟨0x48, 48, 16, .rc, 0, []⟩
/-! GLB_DMA_ARB (14_host_interface.md). -/
def GLB_DMA_ARB_QUAY_PRIO : Field := ⟨0x50, 0, 2, .rw, 1, []⟩
def GLB_DMA_ARB_AGE_ROUNDS : Field := ⟨0x50, 4, 4, .rw, 4, []⟩
/-! GLB_RACK (16_uzol_rack.md). -/
def GLB_RACK_MOD_STRAP : Field := ⟨0x60, 0, 6, .ro, 0, []⟩
def GLB_RACK_ID_MATCH : Field := ⟨0x60, 7, 1, .ro, 0, []⟩
def GLB_RACK_MASTER_ID : Field := ⟨0x60, 8, 6, .ro, 0, []⟩
def GLB_RACK_BACKUP_ID : Field := ⟨0x60, 16, 6, .ro, 0, []⟩
def GLB_RACK_FOREIGN : Field := ⟨0x60, 22, 1, .w1c, 0, []⟩
/-! GLB_RACK_ALIVE (16_uzol_rack.md). -/
def GLB_RACK_ALIVE_ALIVE : Field := ⟨0x68, 0, 64, .ro, 0, []⟩
/-! GLB_BOOT (18_bring_up.md). -/
def GLB_BOOT_STATE : Field := ⟨0x70, 0, 4, .ro, 0, []⟩
def GLB_BOOT_STOP_CAUSE : Field := ⟨0x70, 4, 4, .ro, 0, []⟩
def GLB_BOOT_STACK : Field := ⟨0x70, 8, 2, .ro, 0, []⟩
def GLB_BOOT_DETAIL : Field := ⟨0x70, 16, 8, .ro, 0, []⟩
/-! GLB_BOOT_TIME (18_bring_up.md). -/
def GLB_BOOT_TIME_RELEASE_US : Field := ⟨0x78, 0, 32, .ro, 0, []⟩
def GLB_BOOT_TIME_CRESET_US : Field := ⟨0x78, 32, 32, .ro, 0, []⟩
/-! GLB_CRESET (18_bring_up.md). -/
def GLB_CRESET_START : Field := ⟨0x80, 0, 1, .wo, 0, []⟩
def GLB_CRESET_BUSY : Field := ⟨0x80, 1, 1, .ro, 0, []⟩
def GLB_CRESET_DEFERRED : Field := ⟨0x80, 2, 1, .ro, 0, []⟩
def GLB_CRESET_MOVED : Field := ⟨0x80, 3, 1, .ro, 0, []⟩
def GLB_CRESET_REFUSED : Field := ⟨0x80, 4, 1, .w1c, 0, []⟩
def GLB_CRESET_COUNT : Field := ⟨0x80, 16, 16, .ro, 0, []⟩
/-! GLB_MRESET (18_bring_up.md). -/
def GLB_MRESET_KEY : Field := ⟨0x84, 0, 16, .wo, 0, []⟩
def GLB_MRESET_GO : Field := ⟨0x84, 16, 1, .wo, 0, []⟩
/-! GLB_SUPPLY (27_package_and_electrical.md). -/
def GLB_SUPPLY_MAIN_EN : Field := ⟨0x90, 0, 1, .ro, 0, []⟩
def GLB_SUPPLY_MAIN_PG : Field := ⟨0x90, 1, 1, .ro, 0, []⟩
def GLB_SUPPLY_REFCLK25_OK : Field := ⟨0x90, 2, 1, .ro, 0, []⟩
def GLB_SUPPLY_REFCLK100_OK : Field := ⟨0x90, 3, 1, .ro, 0, []⟩
def GLB_SUPPLY_MAIN_LOST : Field := ⟨0x90, 4, 1, .w1c, 0, []⟩
def GLB_SUPPLY_REFCLK_LOST : Field := ⟨0x90, 5, 1, .w1c, 0, []⟩
def GLB_SUPPLY_AVS_ERR : Field := ⟨0x90, 8, 8, .rc, 0, []⟩
def GLB_SUPPLY_BROWNOUTS : Field := ⟨0x90, 16, 16, .ro, 0, []⟩
/-! DMA_RING_BASE (14_host_interface.md). -/
def DMA_RING_BASE_ADDR : Field := ⟨0x100, 12, 52, .rw, 0, [(8, 0x40)]⟩
/-! DMA_CTRL (14_host_interface.md). -/
def DMA_CTRL_ENABLE : Field := ⟨0x108, 0, 1, .rw, 0, [(8, 0x40)]⟩
def DMA_CTRL_SIZE_LOG2 : Field := ⟨0x108, 1, 5, .rw, 4, [(8, 0x40)]⟩
def DMA_CTRL_PRIO : Field := ⟨0x108, 6, 2, .rw, 1, [(8, 0x40)]⟩
def DMA_CTRL_VECTOR : Field := ⟨0x108, 10, 10, .rw, 0, [(8, 0x40)]⟩
/-! DMA_PROD (14_host_interface.md). -/
def DMA_PROD_PI : Field := ⟨0x10c, 0, 32, .rw, 0, [(8, 0x40)]⟩
/-! DMA_CONS (14_host_interface.md). -/
def DMA_CONS_CI : Field := ⟨0x110, 0, 32, .ro, 0, [(8, 0x40)]⟩
/-! DMA_STATUS (14_host_interface.md). -/
def DMA_STATUS_BUSY : Field := ⟨0x114, 0, 1, .ro, 0, [(8, 0x40)]⟩
def DMA_STATUS_HALTED : Field := ⟨0x114, 1, 1, .w1c, 0, [(8, 0x40)]⟩
def DMA_STATUS_LAST_CODE : Field := ⟨0x114, 2, 4, .ro, 0, [(8, 0x40)]⟩
def DMA_STATUS_DB_REFUSED : Field := ⟨0x114, 6, 8, .rc, 0, [(8, 0x40)]⟩
/-! DMA_BYTES (14_host_interface.md). -/
def DMA_BYTES_BYTES : Field := ⟨0x118, 0, 64, .ro, 0, [(8, 0x40)]⟩
/-! GLB_RAIL (27_package_and_electrical.md). -/
def GLB_RAIL_MV : Field := ⟨0x400, 0, 16, .ro, 0, [(13, 0x8)]⟩
def GLB_RAIL_CURRENT_DA : Field := ⟨0x400, 16, 16, .ro, 0, [(13, 0x8)]⟩
def GLB_RAIL_MIN_MV : Field := ⟨0x400, 32, 16, .rc, 0xffff, [(13, 0x8)]⟩
def GLB_RAIL_MAX_MV : Field := ⟨0x400, 48, 16, .rc, 0, [(13, 0x8)]⟩
/-! LHT_CTRL (02_time_and_the_frame.md). -/
def LHT_CTRL_ENABLE : Field := ⟨0x100000, 0, 1, .rw, 0, []⟩
def LHT_CTRL_LOCK : Field := ⟨0x100000, 31, 1, .w1s, 0, []⟩
/-! LHT_STATUS (02_time_and_the_frame.md). -/
def LHT_STATUS_STATE : Field := ⟨0x100004, 0, 3, .ro, 0, []⟩
def LHT_STATUS_EVER_LOCKED : Field := ⟨0x100004, 3, 1, .ro, 0, []⟩
def LHT_STATUS_MASTER_ID : Field := ⟨0x100004, 4, 6, .ro, 0, []⟩
def LHT_STATUS_MASTER_EPOCH : Field := ⟨0x100004, 10, 8, .ro, 0, []⟩
def LHT_STATUS_PORTS_USED : Field := ⟨0x100004, 18, 8, .ro, 0, []⟩
def LHT_STATUS_PERIOD_MISMATCH : Field := ⟨0x100004, 26, 1, .ro, 0, []⟩
/-! LHT_LT (02_time_and_the_frame.md). -/
def LHT_LT_LT : Field := ⟨0x100008, 0, 64, .ro, 0, []⟩
/-! LHT_LT_PRESET (02_time_and_the_frame.md). -/
def LHT_LT_PRESET_PRESET : Field := ⟨0x100010, 0, 64, .rwl, 0, []⟩
/-! LHT_FRAME_CFG (02_time_and_the_frame.md). -/
def LHT_FRAME_CFG_PERIOD_US : Field := ⟨0x100018, 0, 16, .ro, 0, []⟩
def LHT_FRAME_CFG_D_BASE : Field := ⟨0x100018, 16, 5, .ro, 0, []⟩
/-! LHT_RDV_CFG (02_time_and_the_frame.md). -/
def LHT_RDV_CFG_RDV_PERIOD : Field := ⟨0x10001c, 0, 13, .ro, 0, []⟩
/-! LHT_TICK_ORIGIN (02_time_and_the_frame.md). -/
def LHT_TICK_ORIGIN_ORIGIN : Field := ⟨0x100020, 0, 64, .ro, 0, []⟩
/-! LHT_FN (02_time_and_the_frame.md). -/
def LHT_FN_FN : Field := ⟨0x100028, 0, 64, .ro, 0, []⟩
/-! LHT_LOCAL (02_time_and_the_frame.md). -/
def LHT_LOCAL_D_CUR : Field := ⟨0x100030, 0, 5, .ro, 0, []⟩
def LHT_LOCAL_K_CUR : Field := ⟨0x100030, 5, 5, .ro, 0, []⟩
def LHT_LOCAL_WET : Field := ⟨0x100030, 10, 1, .ro, 0, []⟩
/-! LHT_LOCAL_FN (02_time_and_the_frame.md). -/
def LHT_LOCAL_FN_FN_S : Field := ⟨0x100038, 0, 64, .ro, 0, []⟩
/-! LHT_DPOLICY (02_time_and_the_frame.md). -/
def LHT_DPOLICY_D_MIN : Field := ⟨0x100040, 0, 5, .rw, 0, []⟩
def LHT_DPOLICY_D_MAX : Field := ⟨0x100040, 8, 5, .rw, 0x10, []⟩
/-! LHT_SVC (02_time_and_the_frame.md). -/
def LHT_SVC_W_IMG : Field := ⟨0x100044, 0, 32, .ro, 0, []⟩
/-! LHT_RDV_MISSED (02_time_and_the_frame.md). -/
def LHT_RDV_MISSED_COUNT : Field := ⟨0x100048, 0, 32, .rc, 0, []⟩
/-! LHT_RDV_LAST (02_time_and_the_frame.md). -/
def LHT_RDV_LAST_FN : Field := ⟨0x100050, 0, 64, .ro, 0, []⟩
/-! LHT_SERVO (02_time_and_the_frame.md). -/
def LHT_SERVO_OFFSET_PS : Field := ⟨0x100058, 0, 24, .ro, 0, []⟩
/-! LHT_FREQ (02_time_and_the_frame.md). -/
def LHT_FREQ_FREQ_PPB : Field := ⟨0x10005c, 0, 20, .ro, 0, []⟩
/-! LHT_HOLD_CFG (02_time_and_the_frame.md). -/
def LHT_HOLD_CFG_HOLDOVER_LIMIT_US : Field := ⟨0x100060, 0, 17, .rwl, 0x2710, []⟩
def LHT_HOLD_CFG_MASTER_LOSS_FRAMES : Field := ⟨0x100060, 20, 4, .rwl, 3, []⟩
/-! LHT_PORT_ASYM (02_time_and_the_frame.md). -/
def LHT_PORT_ASYM_ASYM_PS : Field := ⟨0x100080, 0, 16, .rwl, 0, [(8, 0x4)]⟩
/-! LHT_PORT_OFFSET (02_time_and_the_frame.md). -/
def LHT_PORT_OFFSET_OFFSET_PS : Field := ⟨0x1000a0, 0, 24, .ro, 0, [(8, 0x4)]⟩
def LHT_PORT_OFFSET_REJECTED : Field := ⟨0x1000a0, 30, 1, .ro, 0, [(8, 0x4)]⟩
def LHT_PORT_OFFSET_VALID : Field := ⟨0x1000a0, 31, 1, .ro, 0, [(8, 0x4)]⟩
/-! QUA_CTRL (12_quays.md). -/
def QUA_CTRL_ENABLE : Field := ⟨0x200000, 0, 1, .rw, 0, [(64, 0x100)]⟩
def QUA_CTRL_LOC : Field := ⟨0x200000, 1, 1, .rw, 0, [(64, 0x100)]⟩
def QUA_CTRL_SIZE_LOG2 : Field := ⟨0x200000, 2, 5, .rw, 8, [(64, 0x100)]⟩
def QUA_CTRL_ENABLE_ERR : Field := ⟨0x200000, 7, 1, .w1c, 0, [(64, 0x100)]⟩
/-! QUA_RING_BASE (12_quays.md). -/
def QUA_RING_BASE_ADDR : Field := ⟨0x200008, 12, 52, .rw, 0, [(64, 0x100)]⟩
/-! QUA_PROD (12_quays.md). -/
def QUA_PROD_PI : Field := ⟨0x200010, 0, 32, .ro, 0, [(64, 0x100)]⟩
/-! QUA_CONS (12_quays.md). -/
def QUA_CONS_CI : Field := ⟨0x200014, 0, 32, .ro, 0, [(64, 0x100)]⟩
/-! QUA_SEQ (12_quays.md). -/
def QUA_SEQ_SEQ : Field := ⟨0x200018, 0, 32, .ro, 0, [(64, 0x100)]⟩
/-! QUA_SEQ_START (12_quays.md). -/
def QUA_SEQ_START_START : Field := ⟨0x20001c, 0, 32, .rw, 0, [(64, 0x100)]⟩
/-! QUA_NOTICE (12_quays.md). -/
def QUA_NOTICE_VECTOR : Field := ⟨0x200020, 0, 11, .rw, 0, [(64, 0x100)]⟩
def QUA_NOTICE_PKT_EN : Field := ⟨0x200020, 11, 1, .rw, 0, [(64, 0x100)]⟩
def QUA_NOTICE_ERR_EN : Field := ⟨0x200020, 12, 1, .rw, 0, [(64, 0x100)]⟩
def QUA_NOTICE_IDLE_US : Field := ⟨0x200020, 16, 16, .rw, 0, [(64, 0x100)]⟩
/-! QUA_STATUS (12_quays.md). -/
def QUA_STATUS_BOUND : Field := ⟨0x200024, 0, 1, .ro, 0, [(64, 0x100)]⟩
def QUA_STATUS_DIR : Field := ⟨0x200024, 1, 1, .ro, 0, [(64, 0x100)]⟩
def QUA_STATUS_FUNC : Field := ⟨0x200024, 2, 5, .ro, 0, [(64, 0x100)]⟩
def QUA_STATUS_HALTED : Field := ⟨0x200024, 7, 1, .ro, 0, [(64, 0x100)]⟩
def QUA_STATUS_HALT_CAUSE : Field := ⟨0x200024, 8, 3, .ro, 0, [(64, 0x100)]⟩
def QUA_STATUS_BUSY : Field := ⟨0x200024, 11, 1, .ro, 0, [(64, 0x100)]⟩
def QUA_STATUS_PKT : Field := ⟨0x200024, 12, 1, .w1c, 0, [(64, 0x100)]⟩
def QUA_STATUS_IDLE : Field := ⟨0x200024, 13, 1, .w1c, 0, [(64, 0x100)]⟩
def QUA_STATUS_ERR : Field := ⟨0x200024, 14, 1, .w1c, 0, [(64, 0x100)]⟩
/-! QUA_PEEK (12_quays.md). -/
def QUA_PEEK_HEADER : Field := ⟨0x200028, 0, 64, .ro, 0, [(64, 0x100)]⟩
/-! QUA_COUNT (12_quays.md). -/
def QUA_COUNT_PACKETS : Field := ⟨0x200030, 0, 32, .ro, 0, [(64, 0x100)]⟩
def QUA_COUNT_DROPPED : Field := ⟨0x200030, 32, 16, .rc, 0, [(64, 0x100)]⟩
def QUA_COUNT_DROPPED_FULL : Field := ⟨0x200030, 48, 8, .rc, 0, [(64, 0x100)]⟩
def QUA_COUNT_EMIT_LATE : Field := ⟨0x200030, 56, 8, .rc, 0, [(64, 0x100)]⟩
/-! QUA_ERR (12_quays.md). -/
def QUA_ERR_REASON : Field := ⟨0x200038, 0, 3, .ro, 0, [(64, 0x100)]⟩
def QUA_ERR_DB_REFUSED : Field := ⟨0x200038, 8, 8, .rc, 0, [(64, 0x100)]⟩
def QUA_ERR_SEQ : Field := ⟨0x200038, 32, 32, .ro, 0, [(64, 0x100)]⟩
/-! BOL_VALUE (13_bollards.md). -/
def BOL_VALUE_VALUE : Field := ⟨0x300000, 0, 32, .ro, 0, [(4096, 0x10)]⟩
/-! BOL_ADD (13_bollards.md). -/
def BOL_ADD_DELTA : Field := ⟨0x300004, 0, 32, .wo, 0, [(4096, 0x10)]⟩
/-! BOL_TAS (13_bollards.md). -/
def BOL_TAS_OLD : Field := ⟨0x300008, 0, 32, .ro, 0, [(4096, 0x10)]⟩
/-! BOL_WAIT_CTRL (13_bollards.md). -/
def BOL_WAIT_CTRL_BOLLARD : Field := ⟨0x310000, 0, 12, .rw, 0, [(256, 0x20)]⟩
def BOL_WAIT_CTRL_CONSUME : Field := ⟨0x310000, 12, 1, .rw, 0, [(256, 0x20)]⟩
def BOL_WAIT_CTRL_ARM : Field := ⟨0x310000, 13, 1, .rw, 0, [(256, 0x20)]⟩
def BOL_WAIT_CTRL_FIRED : Field := ⟨0x310000, 14, 1, .w1c, 0, [(256, 0x20)]⟩
def BOL_WAIT_CTRL_TIMED_OUT : Field := ⟨0x310000, 15, 1, .w1c, 0, [(256, 0x20)]⟩
def BOL_WAIT_CTRL_ARM_ERR : Field := ⟨0x310000, 16, 1, .w1c, 0, [(256, 0x20)]⟩
def BOL_WAIT_CTRL_VECTOR : Field := ⟨0x310000, 21, 11, .rw, 0, [(256, 0x20)]⟩
/-! BOL_WAIT_THRESH (13_bollards.md). -/
def BOL_WAIT_THRESH_THRESHOLD : Field := ⟨0x310004, 0, 32, .rw, 0, [(256, 0x20)]⟩
/-! BOL_WAIT_TIMEOUT (13_bollards.md). -/
def BOL_WAIT_TIMEOUT_TIMEOUT_US : Field := ⟨0x310008, 0, 26, .rw, 0, [(256, 0x20)]⟩
/-! BOL_WAIT_RESULT (13_bollards.md). -/
def BOL_WAIT_RESULT_VALUE : Field := ⟨0x310010, 0, 32, .ro, 0, [(256, 0x20)]⟩
def BOL_WAIT_RESULT_FN : Field := ⟨0x310010, 32, 16, .ro, 0, [(256, 0x20)]⟩
/-! BOL_STATUS (13_bollards.md). -/
def BOL_STATUS_SAT_COUNT : Field := ⟨0x320000, 0, 32, .rc, 0, []⟩
def BOL_STATUS_SAT_LAST : Field := ⟨0x320000, 32, 12, .ro, 0, []⟩
/-! HAR_CTRL (15_harbour_links.md). -/
def HAR_CTRL_ENABLE : Field := ⟨0x400000, 0, 1, .rw, 0, [(8, 0x10000)]⟩
def HAR_CTRL_RETRAIN : Field := ⟨0x400000, 1, 1, .wo, 0, [(8, 0x10000)]⟩
def HAR_CTRL_RETRAIN_ON_FEC : Field := ⟨0x400000, 2, 1, .rw, 0, [(8, 0x10000)]⟩
/-! HAR_STATUS (15_harbour_links.md). -/
def HAR_STATUS_STATE : Field := ⟨0x400004, 0, 3, .ro, 0, [(8, 0x10000)]⟩
def HAR_STATUS_QUARANTINED : Field := ⟨0x400004, 3, 1, .w1c, 0, [(8, 0x10000)]⟩
def HAR_STATUS_ROLE : Field := ⟨0x400004, 4, 2, .ro, 0, [(8, 0x10000)]⟩
def HAR_STATUS_RETRAIN_PENDING : Field := ⟨0x400004, 6, 1, .ro, 0, [(8, 0x10000)]⟩
/-! HAR_LSN (15_harbour_links.md). -/
def HAR_LSN_TX_NEXT : Field := ⟨0x400008, 0, 24, .ro, 0, [(8, 0x10000)]⟩
def HAR_LSN_RX_EXPECT : Field := ⟨0x400008, 24, 24, .ro, 0, [(8, 0x10000)]⟩
/-! HAR_FEC_CORR (15_harbour_links.md). -/
def HAR_FEC_CORR_CODEWORDS : Field := ⟨0x400010, 0, 64, .ro, 0, [(8, 0x10000)]⟩
/-! HAR_FEC_UNCORR (15_harbour_links.md). -/
def HAR_FEC_UNCORR_CODEWORDS : Field := ⟨0x400018, 0, 32, .rc, 0, [(8, 0x10000)]⟩
/-! HAR_FEC_RATE (15_harbour_links.md). -/
def HAR_FEC_RATE_FEC_THRESH : Field := ⟨0x40001c, 0, 16, .rw, 0, [(8, 0x10000)]⟩
def HAR_FEC_RATE_WIN_LOG2 : Field := ⟨0x40001c, 16, 4, .rw, 0xa, [(8, 0x10000)]⟩
def HAR_FEC_RATE_CROSSED : Field := ⟨0x40001c, 20, 1, .w1c, 0, [(8, 0x10000)]⟩
/-! HAR_FLIT_ERR (15_harbour_links.md). -/
def HAR_FLIT_ERR_DAMAGED : Field := ⟨0x400020, 0, 16, .rc, 0, [(8, 0x10000)]⟩
def HAR_FLIT_ERR_LOST : Field := ⟨0x400020, 16, 16, .rc, 0, [(8, 0x10000)]⟩
/-! HAR_VIOL (15_harbour_links.md). -/
def HAR_VIOL_COUNT : Field := ⟨0x400040, 0, 16, .rc, 0, [(8, 0x10000), (9, 0x4)]⟩
/-! HAR_QUAR_CFG (15_harbour_links.md). -/
def HAR_QUAR_CFG_QUAR_THRESH : Field := ⟨0x400070, 0, 16, .rw, 0x20, [(8, 0x10000)]⟩
def HAR_QUAR_CFG_QUAR_WINDOW : Field := ⟨0x400070, 16, 16, .rw, 0x2710, [(8, 0x10000)]⟩
/-! HAR_QUAR_STAT (15_harbour_links.md). -/
def HAR_QUAR_STAT_WINDOW_COUNT : Field := ⟨0x400074, 0, 16, .ro, 0, [(8, 0x10000)]⟩
def HAR_QUAR_STAT_QUAR_DROPPED : Field := ⟨0x400074, 16, 16, .rc, 0, [(8, 0x10000)]⟩
/-! HAR_PROTEST_TX (15_harbour_links.md). -/
def HAR_PROTEST_TX_REASON : Field := ⟨0x400078, 0, 4, .ro, 0, [(8, 0x10000)]⟩
def HAR_PROTEST_TX_LSN : Field := ⟨0x400078, 4, 24, .ro, 0, [(8, 0x10000)]⟩
def HAR_PROTEST_TX_SLOT : Field := ⟨0x400078, 28, 12, .ro, 0, [(8, 0x10000)]⟩
def HAR_PROTEST_TX_FN : Field := ⟨0x400078, 40, 16, .ro, 0, [(8, 0x10000)]⟩
def HAR_PROTEST_TX_COUNT : Field := ⟨0x400078, 56, 8, .rc, 0, [(8, 0x10000)]⟩
/-! HAR_PROTEST_RX (15_harbour_links.md). -/
def HAR_PROTEST_RX_REASON : Field := ⟨0x400080, 0, 4, .ro, 0, [(8, 0x10000)]⟩
def HAR_PROTEST_RX_LSN : Field := ⟨0x400080, 4, 24, .ro, 0, [(8, 0x10000)]⟩
def HAR_PROTEST_RX_SLOT : Field := ⟨0x400080, 28, 12, .ro, 0, [(8, 0x10000)]⟩
def HAR_PROTEST_RX_FN : Field := ⟨0x400080, 40, 16, .ro, 0, [(8, 0x10000)]⟩
def HAR_PROTEST_RX_COUNT : Field := ⟨0x400080, 56, 8, .rc, 0, [(8, 0x10000)]⟩
/-! HAR_SLOT_STAT (15_harbour_links.md). -/
def HAR_SLOT_STAT_INTACT : Field := ⟨0x400088, 0, 12, .ro, 0, [(8, 0x10000)]⟩
def HAR_SLOT_STAT_NOT_INTACT : Field := ⟨0x400088, 12, 12, .ro, 0, [(8, 0x10000)]⟩
def HAR_SLOT_STAT_FIRST_BAD : Field := ⟨0x400088, 24, 12, .ro, 0, [(8, 0x10000)]⟩
def HAR_SLOT_STAT_CAUSE : Field := ⟨0x400088, 36, 3, .ro, 0, [(8, 0x10000)]⟩
def HAR_SLOT_STAT_FN : Field := ⟨0x400088, 40, 16, .ro, 0, [(8, 0x10000)]⟩
/-! PWR_REQ (19_power_and_clocks.md). -/
def PWR_REQ_FIXED : Field := ⟨0x500000, 0, 2, .ro, 3, []⟩
def PWR_REQ_TARGET : Field := ⟨0x500000, 2, 16, .rw, 0, []⟩
/-! PWR_STATE (19_power_and_clocks.md). -/
def PWR_STATE_STATE_PD0 : Field := ⟨0x500008, 0, 3, .ro, 0, []⟩
def PWR_STATE_STATE_PD1 : Field := ⟨0x500008, 3, 3, .ro, 0, []⟩
def PWR_STATE_STATE_PD2 : Field := ⟨0x500008, 6, 3, .ro, 0, []⟩
def PWR_STATE_STATE_PD3 : Field := ⟨0x500008, 9, 3, .ro, 0, []⟩
def PWR_STATE_STATE_PD4 : Field := ⟨0x500008, 12, 3, .ro, 0, []⟩
def PWR_STATE_STATE_PD5 : Field := ⟨0x500008, 15, 3, .ro, 0, []⟩
def PWR_STATE_STATE_PD6 : Field := ⟨0x500008, 18, 3, .ro, 0, []⟩
def PWR_STATE_STATE_PD7 : Field := ⟨0x500008, 21, 3, .ro, 0, []⟩
def PWR_STATE_STATE_PD8 : Field := ⟨0x500008, 24, 3, .ro, 0, []⟩
def PWR_STATE_STATE_PD9 : Field := ⟨0x500008, 27, 3, .ro, 0, []⟩
def PWR_STATE_STATE_PD10 : Field := ⟨0x500008, 30, 3, .ro, 0, []⟩
def PWR_STATE_STATE_PD11 : Field := ⟨0x500008, 33, 3, .ro, 0, []⟩
def PWR_STATE_STATE_PD12 : Field := ⟨0x500008, 36, 3, .ro, 0, []⟩
def PWR_STATE_STATE_PD13 : Field := ⟨0x500008, 39, 3, .ro, 0, []⟩
def PWR_STATE_STATE_PD14 : Field := ⟨0x500008, 42, 3, .ro, 0, []⟩
def PWR_STATE_STATE_PD15 : Field := ⟨0x500008, 45, 3, .ro, 0, []⟩
def PWR_STATE_STATE_PD16 : Field := ⟨0x500008, 48, 3, .ro, 0, []⟩
def PWR_STATE_STATE_PD17 : Field := ⟨0x500008, 51, 3, .ro, 0, []⟩
/-! PWR_SEQ (19_power_and_clocks.md). -/
def PWR_SEQ_REFUSED : Field := ⟨0x500010, 0, 16, .rc, 0, []⟩
def PWR_SEQ_REVERSALS : Field := ⟨0x500010, 16, 16, .rc, 0, []⟩
/-! PWR_FAULT (19_power_and_clocks.md). -/
def PWR_FAULT_DOMAIN : Field := ⟨0x500014, 0, 5, .ro, 0, []⟩
def PWR_FAULT_CAUSE : Field := ⟨0x500014, 5, 3, .ro, 0, []⟩
def PWR_FAULT_COUNT : Field := ⟨0x500014, 16, 16, .rc, 0, []⟩
/-! PWR_CAP (19_power_and_clocks.md). -/
def PWR_CAP_HOST_CAP_W : Field := ⟨0x500020, 0, 16, .rw, 0, []⟩
def PWR_CAP_EFFECTIVE_W : Field := ⟨0x500020, 16, 16, .ro, 0, []⟩
/-! PWR_MEAS (19_power_and_clocks.md). -/
def PWR_MEAS_P_FRAME_W : Field := ⟨0x500028, 0, 16, .ro, 0, []⟩
def PWR_MEAS_P_SVC_W : Field := ⟨0x500028, 16, 16, .ro, 0, []⟩
def PWR_MEAS_E_FG_UJ : Field := ⟨0x500028, 32, 32, .ro, 0, []⟩
/-! PWR_LIMIT (19_power_and_clocks.md). -/
def PWR_LIMIT_D_PWR : Field := ⟨0x500030, 0, 5, .ro, 1, []⟩
def PWR_LIMIT_LIMITING : Field := ⟨0x500030, 5, 1, .ro, 0, []⟩
def PWR_LIMIT_FUSED_OVERRIDE : Field := ⟨0x500030, 6, 1, .w1c, 0, []⟩
def PWR_LIMIT_UNMET : Field := ⟨0x500030, 7, 1, .w1c, 0, []⟩
/-! PWR_AVS (19_power_and_clocks.md). -/
def PWR_AVS_VSET_MV : Field := ⟨0x500040, 0, 11, .ro, 0, [(4, 0x4)]⟩
def PWR_AVS_EN : Field := ⟨0x500040, 11, 1, .ro, 0, [(4, 0x4)]⟩
def PWR_AVS_AT_MAX : Field := ⟨0x500040, 12, 1, .w1c, 0, [(4, 0x4)]⟩
def PWR_AVS_AT_MIN : Field := ⟨0x500040, 13, 1, .ro, 0, [(4, 0x4)]⟩
/-! PWR_CLK_LOCK (19_power_and_clocks.md). -/
def PWR_CLK_LOCK_LOCKED : Field := ⟨0x500080, 0, 60, .ro, 0, []⟩
/-! PWR_CLK_FREQ (19_power_and_clocks.md). -/
def PWR_CLK_FREQ_ISLE_MHZ : Field := ⟨0x500088, 0, 12, .ro, 0, []⟩
def PWR_CLK_FREQ_SLICE_MHZ : Field := ⟨0x500088, 12, 12, .ro, 0, []⟩
def PWR_CLK_FREQ_UNLOCKS : Field := ⟨0x500088, 24, 8, .rc, 0, []⟩
/-! THM_CTRL (20_thermal.md). -/
def THM_CTRL_LOCK : Field := ⟨0x600000, 31, 1, .w1s, 0, []⟩
/-! THM_STATUS (20_thermal.md). -/
def THM_STATUS_STATE : Field := ⟨0x600004, 0, 2, .ro, 0, []⟩
def THM_STATUS_D_TH : Field := ⟨0x600004, 2, 5, .ro, 0, []⟩
def THM_STATUS_POLICY_OVERRIDDEN : Field := ⟨0x600004, 7, 1, .w1c, 0, []⟩
def THM_STATUS_OVERRIDE_CAUSE : Field := ⟨0x600004, 8, 3, .ro, 0, []⟩
def THM_STATUS_ENV_OUT : Field := ⟨0x600004, 11, 4, .ro, 0, []⟩
/-! THM_THRESH_LOGIC (20_thermal.md). -/
def THM_THRESH_LOGIC_WARN_C : Field := ⟨0x600008, 0, 8, .rwl, 0x5f, []⟩
def THM_THRESH_LOGIC_THROT_C : Field := ⟨0x600008, 8, 8, .rwl, 0x69, []⟩
def THM_THRESH_LOGIC_SHUT_C : Field := ⟨0x600008, 16, 8, .ro, 0x73, []⟩
/-! THM_THRESH_DRAM (20_thermal.md). -/
def THM_THRESH_DRAM_WARN_C : Field := ⟨0x60000c, 0, 8, .rwl, 0x55, []⟩
def THM_THRESH_DRAM_THROT_C : Field := ⟨0x60000c, 8, 8, .rwl, 0x5f, []⟩
def THM_THRESH_DRAM_SHUT_C : Field := ⟨0x60000c, 16, 8, .ro, 0x69, []⟩
/-! THM_HYST (20_thermal.md). -/
def THM_HYST_LOGIC_WARN_HYST : Field := ⟨0x600010, 0, 4, .rwl, 5, []⟩
def THM_HYST_LOGIC_THROT_HYST : Field := ⟨0x600010, 4, 4, .rwl, 5, []⟩
def THM_HYST_LOGIC_SHUT_HYST : Field := ⟨0x600010, 8, 4, .rwl, 5, []⟩
def THM_HYST_DRAM_WARN_HYST : Field := ⟨0x600010, 12, 4, .rwl, 5, []⟩
def THM_HYST_DRAM_THROT_HYST : Field := ⟨0x600010, 16, 4, .rwl, 5, []⟩
def THM_HYST_DRAM_SHUT_HYST : Field := ⟨0x600010, 20, 4, .rwl, 5, []⟩
/-! THM_DCTRL (20_thermal.md). -/
def THM_DCTRL_RISE_STEP : Field := ⟨0x600014, 0, 4, .rwl, 1, []⟩
def THM_DCTRL_RISE_MS : Field := ⟨0x600014, 8, 8, .rwl, 2, []⟩
def THM_DCTRL_FALL_MS : Field := ⟨0x600014, 16, 16, .rwl, 0xc8, []⟩
/-! THM_COOL_CFG (20_thermal.md). -/
def THM_COOL_CFG_COOL_RISE : Field := ⟨0x600018, 0, 8, .rwl, 0x18, []⟩
def THM_COOL_CFG_COOL_WIN : Field := ⟨0x600018, 8, 8, .rwl, 0x64, []⟩
def THM_COOL_CFG_DERATE_C : Field := ⟨0x600018, 16, 4, .rwl, 5, []⟩
def THM_COOL_CFG_PUMP_OUT : Field := ⟨0x600018, 20, 2, .rwl, 0, []⟩
/-! THM_COOL_STAT (20_thermal.md). -/
def THM_COOL_STAT_COOL_TREND : Field := ⟨0x60001c, 0, 1, .w1c, 0, []⟩
def THM_COOL_STAT_VALVE_SUSPECT : Field := ⟨0x60001c, 1, 1, .ro, 0, []⟩
def THM_COOL_STAT_PUMP_FAULT : Field := ⟨0x60001c, 2, 1, .ro, 0, []⟩
def THM_COOL_STAT_RISE : Field := ⟨0x60001c, 16, 16, .ro, 0, []⟩
/-! THM_SHUTDOWN (20_thermal.md). -/
def THM_SHUTDOWN_LATCHED : Field := ⟨0x600020, 0, 1, .w1c, 0, []⟩
def THM_SHUTDOWN_CLEAR_REFUSED : Field := ⟨0x600020, 1, 1, .w1c, 0, []⟩
def THM_SHUTDOWN_DRAM_LIMIT : Field := ⟨0x600020, 2, 1, .w1c, 0, []⟩
def THM_SHUTDOWN_SENSOR : Field := ⟨0x600020, 8, 9, .ro, 0, []⟩
/-! THM_OVERRIDE (20_thermal.md). -/
def THM_OVERRIDE_FRAMES : Field := ⟨0x600028, 0, 32, .rc, 0, []⟩
/-! THM_STACK (20_thermal.md). -/
def THM_STACK_LOGIC_MAX : Field := ⟨0x600040, 0, 16, .ro, 0, [(4, 0x8)]⟩
def THM_STACK_DRAM_TEMP : Field := ⟨0x600040, 16, 16, .ro, 0, [(4, 0x8)]⟩
def THM_STACK_DRAM_MIN : Field := ⟨0x600040, 32, 16, .ro, 0, [(4, 0x8)]⟩
/-! THM_SENSOR (20_thermal.md). -/
def THM_SENSOR_TEMP : Field := ⟨0x601000, 0, 16, .ro, 0, [(428, 0x4)]⟩
def THM_SENSOR_UNCAL : Field := ⟨0x601000, 16, 1, .ro, 0, [(428, 0x4)]⟩
def THM_SENSOR_FAILED : Field := ⟨0x601000, 17, 1, .ro, 0, [(428, 0x4)]⟩
def THM_SENSOR_WARN : Field := ⟨0x601000, 18, 1, .ro, 0, [(428, 0x4)]⟩
def THM_SENSOR_THROT : Field := ⟨0x601000, 19, 1, .ro, 0, [(428, 0x4)]⟩
def THM_SENSOR_SHUT : Field := ⟨0x601000, 20, 1, .ro, 0, [(428, 0x4)]⟩
/-! FAC_STOP (21_facility_interface.md). -/
def FAC_STOP_A_RUN : Field := ⟨0x700000, 0, 1, .ro, 0, []⟩
def FAC_STOP_B_RUN : Field := ⟨0x700000, 1, 1, .ro, 0, []⟩
def FAC_STOP_DEMAND : Field := ⟨0x700000, 2, 1, .ro, 1, []⟩
def FAC_STOP_STOP_LATCHED : Field := ⟨0x700000, 3, 1, .w1c, 0, []⟩
def FAC_STOP_CHANNEL_FAULT : Field := ⟨0x700000, 4, 1, .w1c, 0, []⟩
def FAC_STOP_CLEAR_REFUSED : Field := ⟨0x700000, 5, 1, .w1c, 0, []⟩
def FAC_STOP_DISC_MS : Field := ⟨0x700000, 16, 10, .ro, 0x64, []⟩
/-! FAC_STOP_COUNT (21_facility_interface.md). -/
def FAC_STOP_COUNT_TRANSIENTS : Field := ⟨0x700004, 0, 16, .rc, 0, []⟩
def FAC_STOP_COUNT_DEMANDS : Field := ⟨0x700004, 16, 16, .rc, 0, []⟩
/-! FAC_STOP_TIME (21_facility_interface.md). -/
def FAC_STOP_TIME_LT : Field := ⟨0x700008, 0, 64, .ro, 0, []⟩
/-! FAC_SWO1_CTRL (21_facility_interface.md). -/
def FAC_SWO1_CTRL_CMD : Field := ⟨0x700010, 0, 1, .rw, 1, []⟩
def FAC_SWO1_CTRL_RETRY : Field := ⟨0x700010, 1, 1, .rw, 0, []⟩
def FAC_SWO1_CTRL_STATE : Field := ⟨0x700010, 2, 3, .ro, 1, []⟩
def FAC_SWO1_CTRL_OVERCURRENT : Field := ⟨0x700010, 5, 1, .w1c, 0, []⟩
def FAC_SWO1_CTRL_BACKFEED : Field := ⟨0x700010, 6, 1, .w1c, 0, []⟩
def FAC_SWO1_CTRL_CLEAR_REFUSED : Field := ⟨0x700010, 7, 1, .w1c, 0, []⟩
def FAC_SWO1_CTRL_RETRIES_USED : Field := ⟨0x700010, 8, 2, .ro, 0, []⟩
def FAC_SWO1_CTRL_TRIPS : Field := ⟨0x700010, 16, 16, .rc, 0, []⟩
/-! FAC_SWO1_MEAS (21_facility_interface.md). -/
def FAC_SWO1_MEAS_CURRENT_MA : Field := ⟨0x700014, 0, 16, .ro, 0, []⟩
def FAC_SWO1_MEAS_PIN_MV : Field := ⟨0x700014, 16, 16, .ro, 0, []⟩
/-! FAC_SWO2_CTRL (21_facility_interface.md). -/
def FAC_SWO2_CTRL_CMD : Field := ⟨0x700018, 0, 1, .rw, 0, []⟩
def FAC_SWO2_CTRL_RETRY : Field := ⟨0x700018, 1, 1, .rw, 0, []⟩
def FAC_SWO2_CTRL_STATE : Field := ⟨0x700018, 2, 3, .ro, 0, []⟩
def FAC_SWO2_CTRL_OVERCURRENT : Field := ⟨0x700018, 5, 1, .w1c, 0, []⟩
def FAC_SWO2_CTRL_BACKFEED : Field := ⟨0x700018, 6, 1, .w1c, 0, []⟩
def FAC_SWO2_CTRL_CLEAR_REFUSED : Field := ⟨0x700018, 7, 1, .w1c, 0, []⟩
def FAC_SWO2_CTRL_RETRIES_USED : Field := ⟨0x700018, 8, 2, .ro, 0, []⟩
def FAC_SWO2_CTRL_TRIPS : Field := ⟨0x700018, 16, 16, .rc, 0, []⟩
/-! FAC_SWO2_MEAS (21_facility_interface.md). -/
def FAC_SWO2_MEAS_CURRENT_MA : Field := ⟨0x70001c, 0, 16, .ro, 0, []⟩
def FAC_SWO2_MEAS_PIN_MV : Field := ⟨0x70001c, 16, 16, .ro, 0, []⟩
/-! FAC_LOOP_CTRL (21_facility_interface.md). -/
def FAC_LOOP_CTRL_CMD_UA : Field := ⟨0x700020, 0, 15, .rw, 0x4e20, []⟩
/-! FAC_LOOP_STATUS (21_facility_interface.md). -/
def FAC_LOOP_STATUS_COMPLIANCE : Field := ⟨0x700024, 0, 1, .ro, 0, []⟩
def FAC_LOOP_STATUS_COMPLIANCE_LOST : Field := ⟨0x700024, 1, 1, .ro, 0, []⟩
def FAC_LOOP_STATUS_LOOP_OPEN : Field := ⟨0x700024, 2, 1, .ro, 0, []⟩
def FAC_LOOP_STATUS_HEADROOM_MV : Field := ⟨0x700024, 16, 16, .ro, 0, []⟩
/-! FAC_LOOP_MEAS (21_facility_interface.md). -/
def FAC_LOOP_MEAS_CURRENT_UA : Field := ⟨0x700028, 0, 16, .ro, 0, []⟩
def FAC_LOOP_MEAS_PIN_MV : Field := ⟨0x700028, 16, 16, .ro, 0, []⟩
/-! FAC_VAUX (21_facility_interface.md). -/
def FAC_VAUX_VAUX_MV : Field := ⟨0x700030, 0, 16, .ro, 0, []⟩
/-! KEL_STATUS (22_keel_store.md). -/
def KEL_STATUS_STATE : Field := ⟨0x800000, 0, 3, .ro, 0, []⟩
def KEL_STATUS_SLOT : Field := ⟨0x800000, 3, 1, .ro, 0, []⟩
def KEL_STATUS_OCCUPANCY : Field := ⟨0x800000, 4, 7, .ro, 0, []⟩
/-! KEL_SEQ (22_keel_store.md). -/
def KEL_SEQ_NEXT_SEQ : Field := ⟨0x800008, 0, 32, .ro, 0, []⟩
def KEL_SEQ_DURABLE_SEQ : Field := ⟨0x800008, 32, 32, .ro, 0, []⟩
/-! KEL_SNAP (22_keel_store.md). -/
def KEL_SNAP_GENERATION : Field := ⟨0x800010, 0, 32, .ro, 0, []⟩
def KEL_SNAP_COVERS_SEQ : Field := ⟨0x800010, 32, 32, .ro, 0, []⟩
/-! KEL_CMD (22_keel_store.md). -/
def KEL_CMD_OP : Field := ⟨0x800018, 0, 2, .wo, 0, []⟩
def KEL_CMD_BUSY : Field := ⟨0x800018, 2, 1, .ro, 0, []⟩
def KEL_CMD_RESULT : Field := ⟨0x800018, 3, 2, .ro, 0, []⟩
def KEL_CMD_OVERRUN : Field := ⟨0x800018, 5, 1, .w1c, 0, []⟩
def KEL_CMD_LENGTH : Field := ⟨0x800018, 16, 11, .rw, 0, []⟩
def KEL_CMD_KEY : Field := ⟨0x800018, 32, 16, .rw, 0, []⟩
/-! KEL_ARG (22_keel_store.md). -/
def KEL_ARG_SEQ : Field := ⟨0x800020, 0, 32, .rw, 0, []⟩
/-! KEL_COUNT (22_keel_store.md). -/
def KEL_COUNT_TORN : Field := ⟨0x800028, 0, 16, .rc, 0, []⟩
def KEL_COUNT_DROPPED : Field := ⟨0x800028, 16, 16, .rc, 0, []⟩
def KEL_COUNT_RETIRED : Field := ⟨0x800028, 32, 16, .ro, 0, []⟩
def KEL_COUNT_COMPACTIONS : Field := ⟨0x800028, 48, 16, .ro, 0, []⟩
/-! KEL_RD_BUF (22_keel_store.md). -/
def KEL_RD_BUF_WORD : Field := ⟨0x801000, 0, 32, .ro, 0, [(1024, 0x4)]⟩
/-! KEL_WR_BUF (22_keel_store.md). -/
def KEL_WR_BUF_WORD : Field := ⟨0x802000, 0, 32, .rw, 0, [(256, 0x4)]⟩
/-! CKP_CTRL (23_checkpoint_and_buddy.md). -/
def CKP_CTRL_ENABLE : Field := ⟨0x900000, 0, 1, .rw, 0, []⟩
def CKP_CTRL_TRIG_CE : Field := ⟨0x900000, 1, 1, .rw, 1, []⟩
def CKP_CTRL_TRIG_THERM : Field := ⟨0x900000, 2, 1, .rw, 1, []⟩
def CKP_CTRL_TRIG_FEC : Field := ⟨0x900000, 3, 1, .rw, 1, []⟩
def CKP_CTRL_COVER : Field := ⟨0x900000, 4, 1, .rw, 0, []⟩
def CKP_CTRL_REQUEST : Field := ⟨0x900000, 5, 1, .wo, 0, []⟩
def CKP_CTRL_FULL_NEXT : Field := ⟨0x900000, 6, 1, .rw, 0, []⟩
def CKP_CTRL_CLEAR_MAPS : Field := ⟨0x900000, 7, 1, .wo, 0, []⟩
def CKP_CTRL_RESTORE_ACCEPT : Field := ⟨0x900000, 8, 1, .rw, 0, []⟩
def CKP_CTRL_HOST_HOLD : Field := ⟨0x900000, 9, 1, .rw, 0, []⟩
def CKP_CTRL_REFUGE_RESET : Field := ⟨0x900000, 10, 1, .wo, 0, []⟩
def CKP_CTRL_HOLDOFF_MS : Field := ⟨0x900000, 16, 16, .rw, 0x2710, []⟩
/-! CKP_CFG (23_checkpoint_and_buddy.md). -/
def CKP_CFG_ABANDON_RDV : Field := ⟨0x900004, 0, 8, .rw, 4, []⟩
/-! CKP_REFUGE (23_checkpoint_and_buddy.md). -/
def CKP_REFUGE_BASE_64K : Field := ⟨0x900008, 0, 13, .rw, 0, []⟩
def CKP_REFUGE_PAGES : Field := ⟨0x900008, 16, 13, .rw, 0, []⟩
/-! CKP_STATUS (23_checkpoint_and_buddy.md). -/
def CKP_STATUS_STATE : Field := ⟨0x900010, 0, 3, .ro, 0, []⟩
def CKP_STATUS_PENDING : Field := ⟨0x900010, 3, 1, .ro, 0, []⟩
def CKP_STATUS_CAUSE : Field := ⟨0x900010, 4, 3, .ro, 0, []⟩
def CKP_STATUS_LAST : Field := ⟨0x900010, 7, 3, .ro, 0, []⟩
def CKP_STATUS_SUPPRESSED : Field := ⟨0x900010, 10, 1, .w1c, 0, []⟩
/-! CKP_GEN (23_checkpoint_and_buddy.md). -/
def CKP_GEN_CURRENT : Field := ⟨0x900018, 0, 32, .ro, 0, []⟩
def CKP_GEN_ACKED : Field := ⟨0x900018, 32, 32, .ro, 0, []⟩
/-! CKP_CUT_FN (23_checkpoint_and_buddy.md). -/
def CKP_CUT_FN_FN : Field := ⟨0x900020, 0, 64, .ro, 0, []⟩
/-! CKP_PROGRESS (23_checkpoint_and_buddy.md). -/
def CKP_PROGRESS_TOTAL : Field := ⟨0x900028, 0, 32, .ro, 0, []⟩
def CKP_PROGRESS_SENT : Field := ⟨0x900028, 32, 32, .ro, 0, []⟩
/-! CKP_COUNT (23_checkpoint_and_buddy.md). -/
def CKP_COUNT_COMMITTED : Field := ⟨0x900030, 0, 32, .ro, 0, []⟩
def CKP_COUNT_ABANDONED : Field := ⟨0x900030, 32, 16, .rc, 0, []⟩
def CKP_COUNT_RESENT : Field := ⟨0x900030, 48, 16, .rc, 0, []⟩
/-! CKP_REFUGE_STAT (23_checkpoint_and_buddy.md). -/
def CKP_REFUGE_STAT_COMMITTED_GEN : Field := ⟨0x900038, 0, 32, .ro, 0, []⟩
def CKP_REFUGE_STAT_PARTNER : Field := ⟨0x900038, 32, 6, .ro, 0, []⟩
def CKP_REFUGE_STAT_OWNED : Field := ⟨0x900038, 38, 1, .ro, 0, []⟩
def CKP_REFUGE_STAT_POOL_FREE : Field := ⟨0x900038, 40, 13, .ro, 0, []⟩
/-! CKP_RESTORE (23_checkpoint_and_buddy.md). -/
def CKP_RESTORE_START : Field := ⟨0x900040, 0, 1, .wo, 0, []⟩
def CKP_RESTORE_BUSY : Field := ⟨0x900040, 1, 1, .ro, 0, []⟩
def CKP_RESTORE_DONE : Field := ⟨0x900040, 2, 1, .w1c, 0, []⟩
/-! CKP_DIRTY (23_checkpoint_and_buddy.md). -/
def CKP_DIRTY_PAGES : Field := ⟨0x900100, 0, 14, .ro, 0, [(256, 0x4)]⟩
/-! CKP_MAP (23_checkpoint_and_buddy.md). -/
def CKP_MAP_BITS : Field := ⟨0x910000, 0, 32, .ro, 0, [(256, 0x400), (256, 0x4)]⟩
/-! EVT_CTRL (25_errors_and_long_runs.md). -/
def EVT_CTRL_FREEZE_ON_FATAL : Field := ⟨0xa00000, 0, 1, .rw, 1, []⟩
def EVT_CTRL_UNFREEZE : Field := ⟨0xa00000, 1, 1, .wo, 0, []⟩
def EVT_CTRL_PERSIST_MIN : Field := ⟨0xa00000, 2, 2, .rw, 1, []⟩
def EVT_CTRL_POST_FATAL : Field := ⟨0xa00000, 8, 8, .rw, 0x40, []⟩
/-! EVT_STATUS (25_errors_and_long_runs.md). -/
def EVT_STATUS_FROZEN : Field := ⟨0xa00004, 0, 1, .ro, 0, []⟩
def EVT_STATUS_FATAL_VALID : Field := ⟨0xa00004, 1, 1, .w1c, 0, []⟩
/-! EVT_SEQ (25_errors_and_long_runs.md). -/
def EVT_SEQ_NEXT_SEQ : Field := ⟨0xa00008, 0, 32, .ro, 0, []⟩
def EVT_SEQ_OLDEST_SEQ : Field := ⟨0xa00008, 32, 32, .ro, 0, []⟩
/-! EVT_ACK (25_errors_and_long_runs.md). -/
def EVT_ACK_ACK_SEQ : Field := ⟨0xa00010, 0, 32, .rw, 0, []⟩
/-! EVT_LOSS (25_errors_and_long_runs.md). -/
def EVT_LOSS_OVERWRITTEN : Field := ⟨0xa00018, 0, 16, .rc, 0, []⟩
def EVT_LOSS_LOST : Field := ⟨0xa00018, 16, 16, .rc, 0, []⟩
def EVT_LOSS_OVERFLOW : Field := ⟨0xa00018, 32, 16, .rc, 0, []⟩
/-! EVT_FATAL (25_errors_and_long_runs.md). -/
def EVT_FATAL_DATA : Field := ⟨0xa00040, 0, 64, .ro, 0, [(4, 0x8)]⟩
/-! EVT_LOG (25_errors_and_long_runs.md). -/
def EVT_LOG_DATA : Field := ⟨0xa10000, 0, 64, .ro, 0, [(4096, 0x20), (4, 0x8)]⟩
/-! FRV_IMG_ADDR (17_fervo_image.md). -/
def FRV_IMG_ADDR_ADDR : Field := ⟨0xb00000, 12, 52, .rw, 0, []⟩
/-! FRV_IMG_CMD (17_fervo_image.md). -/
def FRV_IMG_CMD_START : Field := ⟨0xb00008, 0, 1, .wo, 0, []⟩
def FRV_IMG_CMD_CANCEL : Field := ⟨0xb00008, 1, 1, .wo, 0, []⟩
/-! FRV_IMG_STATUS (17_fervo_image.md). -/
def FRV_IMG_STATUS_STATE : Field := ⟨0xb0000c, 0, 2, .ro, 0, []⟩
def FRV_IMG_STATUS_RESULT : Field := ⟨0xb0000c, 2, 2, .ro, 0, []⟩
def FRV_IMG_STATUS_REFUSAL : Field := ⟨0xb0000c, 4, 8, .ro, 0, []⟩
def FRV_IMG_STATUS_OVERRUN : Field := ⟨0xb0000c, 12, 1, .w1c, 0, []⟩
def FRV_IMG_STATUS_LATE_ACT : Field := ⟨0xb0000c, 13, 1, .w1c, 0, []⟩
def FRV_IMG_STATUS_LOADED : Field := ⟨0xb0000c, 14, 1, .ro, 0, []⟩
/-! FRV_IMG_DETAIL (17_fervo_image.md). -/
def FRV_IMG_DETAIL_SECTION : Field := ⟨0xb00010, 0, 8, .ro, 0, []⟩
def FRV_IMG_DETAIL_ENTRY : Field := ⟨0xb00010, 8, 16, .ro, 0, []⟩
def FRV_IMG_DETAIL_BYTE : Field := ⟨0xb00010, 24, 8, .ro, 0, []⟩
/-! FRV_IMG_ACT (17_fervo_image.md). -/
def FRV_IMG_ACT_ACTIVATE_FN : Field := ⟨0xb00018, 0, 64, .ro, 0, []⟩
/-! FRV_IMG_ACTIVE_FN (17_fervo_image.md). -/
def FRV_IMG_ACTIVE_FN_FN : Field := ⟨0xb00020, 0, 64, .ro, 0, []⟩
/-! FRV_DIGEST (17_fervo_image.md). -/
def FRV_DIGEST_BYTES : Field := ⟨0xb00040, 0, 32, .ro, 0, [(8, 0x4)]⟩
/-! FRV_KEYS (17_fervo_image.md). -/
def FRV_KEYS_ENROLLED : Field := ⟨0xb00060, 0, 4, .ro, 0, []⟩
def FRV_KEYS_REVOKED : Field := ⟨0xb00060, 4, 4, .ro, 0, []⟩
def FRV_KEYS_SIGNER : Field := ⟨0xb00060, 8, 2, .ro, 0, []⟩
/-! FRV_SEC_FLOOR (17_fervo_image.md). -/
def FRV_SEC_FLOOR_FLOOR : Field := ⟨0xb00064, 0, 32, .ro, 0, []⟩
/-! FRV_KEY_REVOKE (17_fervo_image.md). -/
def FRV_KEY_REVOKE_REVOKE : Field := ⟨0xb00068, 0, 4, .w1s, 0, []⟩
/-! FRV_ARCH_DIGEST (17_fervo_image.md). -/
def FRV_ARCH_DIGEST_BYTES : Field := ⟨0xb00400, 0, 32, .ro, 0, [(32, 0x20), (8, 0x4)]⟩
/-! FRV_SCHED_ADDR (03_schedule_contract.md). -/
def FRV_SCHED_ADDR_ADDR : Field := ⟨0xb01000, 12, 52, .rw, 0, []⟩
/-! FRV_SCHED_CMD (03_schedule_contract.md). -/
def FRV_SCHED_CMD_ARCH : Field := ⟨0xb01008, 0, 5, .rw, 0, []⟩
def FRV_SCHED_CMD_START : Field := ⟨0xb01008, 31, 1, .wo, 0, []⟩
/-! FRV_SCHED_STATUS (03_schedule_contract.md). -/
def FRV_SCHED_STATUS_BUSY : Field := ⟨0xb0100c, 0, 1, .ro, 0, []⟩
def FRV_SCHED_STATUS_RESULT : Field := ⟨0xb0100c, 1, 2, .ro, 0, []⟩
def FRV_SCHED_STATUS_ARCH : Field := ⟨0xb0100c, 3, 5, .ro, 0, []⟩
def FRV_SCHED_STATUS_REFUSAL : Field := ⟨0xb0100c, 8, 8, .ro, 0, []⟩
def FRV_SCHED_STATUS_OVERRUN : Field := ⟨0xb0100c, 16, 1, .w1c, 0, []⟩
/-! FRV_SCHED_DETAIL (03_schedule_contract.md). -/
def FRV_SCHED_DETAIL_ISLE : Field := ⟨0xb01010, 0, 8, .ro, 0, []⟩
def FRV_SCHED_DETAIL_INDEX : Field := ⟨0xb01010, 8, 16, .ro, 0, []⟩
def FRV_SCHED_DETAIL_CYCLE : Field := ⟨0xb01010, 24, 28, .ro, 0, []⟩
def FRV_SCHED_DETAIL_RESOURCE : Field := ⟨0xb01010, 52, 8, .ro, 0, []⟩
/-! FRV_ARCH_STATE (03_schedule_contract.md). -/
def FRV_ARCH_STATE_INSTALLED : Field := ⟨0xb01100, 0, 1, .ro, 0, [(32, 0x4)]⟩
def FRV_ARCH_STATE_GEN : Field := ⟨0xb01100, 1, 1, .ro, 0, [(32, 0x4)]⟩
def FRV_ARCH_STATE_VOID_RUN : Field := ⟨0xb01100, 2, 2, .ro, 0, [(32, 0x4)]⟩
/-! FRV_ARCH_VOID (03_schedule_contract.md). -/
def FRV_ARCH_VOID_VOID_CYCLE : Field := ⟨0xb01180, 0, 28, .ro, 0, [(32, 0x4)]⟩
/-! PIL_MBX_CMD (24_pilot_and_management.md). -/
def PIL_MBX_CMD_OPCODE : Field := ⟨0xc00000, 0, 8, .rw, 0, []⟩
def PIL_MBX_CMD_START : Field := ⟨0xc00000, 31, 1, .wo, 0, []⟩
/-! PIL_MBX_STATUS (24_pilot_and_management.md). -/
def PIL_MBX_STATUS_BUSY : Field := ⟨0xc00004, 0, 1, .ro, 0, []⟩
def PIL_MBX_STATUS_RESULT : Field := ⟨0xc00004, 1, 3, .ro, 0, []⟩
def PIL_MBX_STATUS_OVERRUN : Field := ⟨0xc00004, 4, 1, .w1c, 0, []⟩
def PIL_MBX_STATUS_DONE : Field := ⟨0xc00004, 5, 1, .w1c, 0, []⟩
/-! PIL_MBX_ADDR (24_pilot_and_management.md). -/
def PIL_MBX_ADDR_ADDR : Field := ⟨0xc00008, 12, 52, .rw, 0, []⟩
/-! PIL_MBX_NOTICE (24_pilot_and_management.md). -/
def PIL_MBX_NOTICE_VECTOR : Field := ⟨0xc00010, 0, 11, .rw, 0, []⟩
def PIL_MBX_NOTICE_EN : Field := ⟨0xc00010, 11, 1, .rw, 0, []⟩
/-! PIL_FW (24_pilot_and_management.md). -/
def PIL_FW_VERSION_A : Field := ⟨0xc00020, 0, 16, .ro, 0, []⟩
def PIL_FW_VERSION_B : Field := ⟨0xc00020, 16, 16, .ro, 0, []⟩
def PIL_FW_ACTIVE : Field := ⟨0xc00020, 32, 1, .ro, 0, []⟩
def PIL_FW_FLOOR : Field := ⟨0xc00020, 33, 6, .ro, 0, []⟩
/-! PIL_CTRL (24_pilot_and_management.md). -/
def PIL_CTRL_MGMT_WRITE_EN : Field := ⟨0xc00030, 0, 1, .rwl, 1, []⟩
def PIL_CTRL_LOCK : Field := ⟨0xc00030, 31, 1, .w1s, 0, []⟩
/-! PIL_MCTP (24_pilot_and_management.md). -/
def PIL_MCTP_EID_SMBUS : Field := ⟨0xc00040, 0, 8, .ro, 0, []⟩
def PIL_MCTP_EID_VDM : Field := ⟨0xc00040, 8, 8, .ro, 0, []⟩
def PIL_MCTP_SMBUS_ADDR : Field := ⟨0xc00040, 16, 7, .ro, 0, []⟩
/-! PIL_MCTP_ERR (24_pilot_and_management.md). -/
def PIL_MCTP_ERR_BAD : Field := ⟨0xc00044, 0, 16, .rc, 0, []⟩
def PIL_MCTP_ERR_UNSUPPORTED : Field := ⟨0xc00044, 16, 16, .rc, 0, []⟩
/-! PIL_PLDM (24_pilot_and_management.md). -/
def PIL_PLDM_RECEIVER_EID : Field := ⟨0xc00048, 0, 8, .ro, 0, []⟩
def PIL_PLDM_RECEIVER_VDM : Field := ⟨0xc00048, 8, 1, .ro, 0, []⟩
def PIL_PLDM_RECEIVER_SET : Field := ⟨0xc00048, 9, 1, .ro, 0, []⟩
def PIL_PLDM_QUEUED : Field := ⟨0xc00048, 16, 7, .ro, 0, []⟩
/-! PIL_PLDM_FWD (24_pilot_and_management.md). -/
def PIL_PLDM_FWD_GROUP_MASK : Field := ⟨0xc0004c, 0, 16, .rw, 0, []⟩
def PIL_PLDM_FWD_DROPPED : Field := ⟨0xc0004c, 16, 16, .rc, 0, []⟩
/-! PIL_COH (24_pilot_and_management.md). -/
def PIL_COH_RACES : Field := ⟨0xc00050, 0, 32, .ro, 0, []⟩
def PIL_COH_MAX_ROUNDS : Field := ⟨0xc00050, 32, 2, .ro, 0, []⟩
/-! PIL_WDOG (24_pilot_and_management.md). -/
def PIL_WDOG_RESETS : Field := ⟨0xc00058, 0, 16, .ro, 0, []⟩
def PIL_WDOG_LAST_PILOT : Field := ⟨0xc00058, 16, 3, .ro, 0, []⟩
/-! PIL_IDCODE (24_pilot_and_management.md). -/
def PIL_IDCODE_IDCODE : Field := ⟨0xc00060, 0, 32, .ro, 0x4e281af, []⟩
/-! PIL_JTAG_STAT (24_pilot_and_management.md). -/
def PIL_JTAG_STAT_EXTEST_BLOCKED : Field := ⟨0xc00064, 0, 1, .w1c, 0, []⟩
def PIL_JTAG_STAT_TAP_ACTIVE : Field := ⟨0xc00064, 1, 1, .ro, 0, []⟩
/-! PIL_MBX_ARG (24_pilot_and_management.md). -/
def PIL_MBX_ARG_BYTES : Field := ⟨0xc00100, 0, 32, .rw, 0, [(64, 0x4)]⟩
/-! PIL_MBX_RSP (24_pilot_and_management.md). -/
def PIL_MBX_RSP_BYTES : Field := ⟨0xc00200, 0, 32, .ro, 0, [(64, 0x4)]⟩
/-! ISL_STATE (04_isle.md). -/
def ISL_STATE_STATE : Field := ⟨0x1000000, 0, 3, .ro, 1, [(256, 0x10000)]⟩
def ISL_STATE_STALE : Field := ⟨0x1000000, 3, 1, .ro, 0, [(256, 0x10000)]⟩
def ISL_STATE_REQ_PENDING : Field := ⟨0x1000000, 4, 1, .ro, 0, [(256, 0x10000)]⟩
def ISL_STATE_ARCH : Field := ⟨0x1000000, 5, 5, .ro, 0, [(256, 0x10000)]⟩
def ISL_STATE_ASSIGNED : Field := ⟨0x1000000, 10, 1, .ro, 0, [(256, 0x10000)]⟩
def ISL_STATE_EPOCH : Field := ⟨0x1000000, 16, 16, .ro, 0, [(256, 0x10000)]⟩
/-! ISL_EPOCH_LIVE (04_isle.md). -/
def ISL_EPOCH_LIVE_EPOCH : Field := ⟨0x1000004, 0, 16, .ro, 0, [(256, 0x10000)]⟩
/-! ISL_STATE_REQ (04_isle.md). -/
def ISL_STATE_REQ_REQ : Field := ⟨0x1000008, 0, 3, .rw, 0, [(256, 0x10000)]⟩
def ISL_STATE_REQ_REQ_REFUSED : Field := ⟨0x1000008, 16, 16, .rc, 0, [(256, 0x10000)]⟩
/-! ISL_FRAME (04_isle.md). -/
def ISL_FRAME_OUTCOME : Field := ⟨0x1000010, 0, 2, .ro, 0, [(256, 0x10000)]⟩
def ISL_FRAME_GEN : Field := ⟨0x1000010, 2, 1, .ro, 0, [(256, 0x10000)]⟩
def ISL_FRAME_LAUNCHED : Field := ⟨0x1000010, 3, 16, .ro, 0, [(256, 0x10000)]⟩
def ISL_FRAME_LAST_OFFSET : Field := ⟨0x1000010, 19, 28, .ro, 0, [(256, 0x10000)]⟩
/-! ISL_BUSY (04_isle.md). -/
def ISL_BUSY_ARRAY_CYCLES : Field := ⟨0x1000018, 0, 28, .ro, 0, [(256, 0x10000)]⟩
def ISL_BUSY_SLICE_CYCLES : Field := ⟨0x1000018, 28, 28, .ro, 0, [(256, 0x10000)]⟩
/-! ISL_VOID (04_isle.md). -/
def ISL_VOID_CAUSE : Field := ⟨0x1000020, 0, 4, .ro, 0, [(256, 0x10000)]⟩
def ISL_VOID_SOURCE : Field := ⟨0x1000020, 4, 8, .ro, 0, [(256, 0x10000)]⟩
/-! ISL_VOID_COUNT (04_isle.md). -/
def ISL_VOID_COUNT_COUNT : Field := ⟨0x1000024, 0, 32, .rc, 0, [(256, 0x10000)]⟩
/-! ISL_ARRAY_COUNT (05_matrix_array.md). -/
def ISL_ARRAY_COUNT_PASSES : Field := ⟨0x1000100, 0, 24, .ro, 0, [(256, 0x10000)]⟩
def ISL_ARRAY_COUNT_COMPUTE_CYCLES : Field := ⟨0x1000100, 24, 28, .ro, 0, [(256, 0x10000)]⟩
/-! ISL_ARRAY_ABORT (05_matrix_array.md). -/
def ISL_ARRAY_ABORT_CYCLE : Field := ⟨0x1000108, 0, 28, .ro, 0, [(256, 0x10000)]⟩
def ISL_ARRAY_ABORT_PHASE : Field := ⟨0x1000108, 28, 2, .ro, 3, [(256, 0x10000)]⟩
def ISL_ARRAY_ABORT_POISONED : Field := ⟨0x1000108, 30, 1, .ro, 0, [(256, 0x10000)]⟩
/-! ISL_ARRAY_SAT (05_matrix_array.md). -/
def ISL_ARRAY_SAT_ACC_SAT : Field := ⟨0x100010c, 0, 16, .rc, 0, [(256, 0x10000)]⟩
def ISL_ARRAY_SAT_OUT_SAT : Field := ⟨0x100010c, 16, 16, .rc, 0, [(256, 0x10000)]⟩
/-! ISL_ARRAY_NAN (05_matrix_array.md). -/
def ISL_ARRAY_NAN_COUNT : Field := ⟨0x1000110, 0, 32, .rc, 0, [(256, 0x10000)]⟩
/-! ISL_VEC_STAT (07_instruction_reference.md). -/
def ISL_VEC_STAT_SAT : Field := ⟨0x1000120, 0, 16, .rc, 0, [(256, 0x10000)]⟩
def ISL_VEC_STAT_NAN : Field := ⟨0x1000120, 16, 16, .rc, 0, [(256, 0x10000)]⟩
/-! ISL_SIEVE_NMS (08_image_operators.md). -/
def ISL_SIEVE_NMS_KEPT : Field := ⟨0x1000130, 0, 12, .ro, 0, [(256, 0x10000)]⟩
def ISL_SIEVE_NMS_ELIGIBLE : Field := ⟨0x1000130, 12, 12, .ro, 0, [(256, 0x10000)]⟩
/-! ISL_SIEVE_STAT (08_image_operators.md). -/
def ISL_SIEVE_STAT_TRUNC : Field := ⟨0x1000134, 0, 16, .rc, 0, [(256, 0x10000)]⟩
def ISL_SIEVE_STAT_BOX_SAT : Field := ⟨0x1000134, 16, 16, .rc, 0, [(256, 0x10000)]⟩
/-! ISL_LAGOON_ERR (10_stored_data_protection.md). -/
def ISL_LAGOON_ERR_CE : Field := ⟨0x1000140, 0, 16, .rc, 0, [(256, 0x10000)]⟩
def ISL_LAGOON_ERR_UE : Field := ⟨0x1000140, 16, 16, .rc, 0, [(256, 0x10000)]⟩
/-! SLC_GEOMETRY (09_stacked_memory.md). -/
def SLC_GEOMETRY_LAYERS : Field := ⟨0x2000000, 0, 4, .ro, 8, [(256, 0x10000)]⟩
def SLC_GEOMETRY_BANKS : Field := ⟨0x2000000, 4, 4, .ro, 8, [(256, 0x10000)]⟩
def SLC_GEOMETRY_ROWS_LOG2 : Field := ⟨0x2000000, 8, 5, .ro, 0xe, [(256, 0x10000)]⟩
def SLC_GEOMETRY_ROW_BYTES_LOG2 : Field := ⟨0x2000000, 13, 5, .ro, 9, [(256, 0x10000)]⟩
/-! SLC_REFRESH (09_stacked_memory.md). -/
def SLC_REFRESH_HOT : Field := ⟨0x2000008, 0, 1, .ro, 0, [(256, 0x10000)]⟩
def SLC_REFRESH_SELF_TIMED : Field := ⟨0x2000008, 1, 1, .ro, 1, [(256, 0x10000)]⟩
def SLC_REFRESH_FLOOR : Field := ⟨0x2000008, 2, 1, .ro, 0, [(256, 0x10000)]⟩
def SLC_REFRESH_POINTER : Field := ⟨0x2000008, 16, 14, .ro, 0, [(256, 0x10000)]⟩
def SLC_REFRESH_SLOTS_LAST : Field := ⟨0x2000008, 30, 20, .ro, 0, [(256, 0x10000)]⟩
/-! SLC_REFRESH_SPACING (09_stacked_memory.md). -/
def SLC_REFRESH_SPACING_SIGMA : Field := ⟨0x2000010, 0, 28, .ro, 0, [(256, 0x10000)]⟩
/-! SLC_REFRESH_TOTAL (09_stacked_memory.md). -/
def SLC_REFRESH_TOTAL_SLOTS : Field := ⟨0x2000018, 0, 64, .ro, 0, [(256, 0x10000)]⟩
/-! SLC_SPARE (09_stacked_memory.md). -/
def SLC_SPARE_ROWS_USED : Field := ⟨0x2000020, 0, 12, .ro, 0, [(256, 0x10000)]⟩
def SLC_SPARE_LANES_USED : Field := ⟨0x2000020, 12, 8, .ro, 0, [(256, 0x10000)]⟩
def SLC_SPARE_MIN_ROWS_FREE : Field := ⟨0x2000020, 20, 6, .ro, 0, [(256, 0x10000)]⟩
def SLC_SPARE_MIN_LANES_FREE : Field := ⟨0x2000020, 26, 2, .ro, 0, [(256, 0x10000)]⟩
def SLC_SPARE_MIN_BONDS_FREE : Field := ⟨0x2000020, 28, 4, .ro, 0, [(256, 0x10000)]⟩
/-! SLC_HOST (09_stacked_memory.md). -/
def SLC_HOST_WORDS : Field := ⟨0x2000028, 0, 24, .ro, 0, [(256, 0x10000)]⟩
def SLC_HOST_RMW : Field := ⟨0x2000028, 24, 20, .ro, 0, [(256, 0x10000)]⟩
def SLC_HOST_PENDING : Field := ⟨0x2000028, 44, 1, .ro, 0, [(256, 0x10000)]⟩
/-! SLC_REGION (10_stored_data_protection.md). -/
def SLC_REGION_VALID : Field := ⟨0x2000100, 0, 1, .ro, 0, [(256, 0x10000), (8, 0x8)]⟩
def SLC_REGION_KIND : Field := ⟨0x2000100, 1, 1, .ro, 0, [(256, 0x10000), (8, 0x8)]⟩
def SLC_REGION_ENC : Field := ⟨0x2000100, 2, 1, .ro, 0, [(256, 0x10000), (8, 0x8)]⟩
def SLC_REGION_ECC_MODE : Field := ⟨0x2000100, 3, 1, .ro, 0, [(256, 0x10000), (8, 0x8)]⟩
def SLC_REGION_HOST_RD : Field := ⟨0x2000100, 4, 1, .ro, 1, [(256, 0x10000), (8, 0x8)]⟩
def SLC_REGION_HOST_WR : Field := ⟨0x2000100, 5, 1, .ro, 1, [(256, 0x10000), (8, 0x8)]⟩
def SLC_REGION_KEY_SLOT : Field := ⟨0x2000100, 8, 6, .ro, 0, [(256, 0x10000), (8, 0x8)]⟩
def SLC_REGION_LAYER_MASK : Field := ⟨0x2000100, 16, 8, .ro, 0, [(256, 0x10000), (8, 0x8)]⟩
def SLC_REGION_BANK_MASK : Field := ⟨0x2000100, 24, 8, .ro, 0, [(256, 0x10000), (8, 0x8)]⟩
def SLC_REGION_FIRST_64K : Field := ⟨0x2000100, 32, 7, .ro, 0, [(256, 0x10000), (8, 0x8)]⟩
def SLC_REGION_LAST_64K : Field := ⟨0x2000100, 40, 7, .ro, 0, [(256, 0x10000), (8, 0x8)]⟩
/-! SLC_KEY_DATA (10_stored_data_protection.md). -/
def SLC_KEY_DATA_BYTES : Field := ⟨0x2000200, 0, 32, .wo, 0, [(256, 0x10000), (16, 0x4)]⟩
/-! SLC_KEY_CMD (10_stored_data_protection.md). -/
def SLC_KEY_CMD_SLOT : Field := ⟨0x2000240, 0, 6, .rw, 0, [(256, 0x10000)]⟩
def SLC_KEY_CMD_OP : Field := ⟨0x2000240, 8, 2, .wo, 0, [(256, 0x10000)]⟩
def SLC_KEY_CMD_PENDING : Field := ⟨0x2000240, 16, 1, .ro, 0, [(256, 0x10000)]⟩
def SLC_KEY_CMD_REFUSED : Field := ⟨0x2000240, 17, 1, .w1c, 0, [(256, 0x10000)]⟩
/-! SLC_KEY_STATE (10_stored_data_protection.md). -/
def SLC_KEY_STATE_LOADED : Field := ⟨0x2000248, 0, 64, .ro, 0, [(256, 0x10000)]⟩
/-! SLC_FLIP (10_stored_data_protection.md). -/
def SLC_FLIP_MASK : Field := ⟨0x2000300, 0, 32, .rw, 0, [(256, 0x10000), (9, 0x4)]⟩
/-! SLC_FLIP_ADDR (10_stored_data_protection.md). -/
def SLC_FLIP_ADDR_ADDR_XOR : Field := ⟨0x2000324, 0, 29, .rw, 0, [(256, 0x10000)]⟩
/-! SLC_FLIP_CTRL (10_stored_data_protection.md). -/
def SLC_FLIP_CTRL_ARM : Field := ⟨0x2000328, 0, 1, .w1s, 0, [(256, 0x10000)]⟩
def SLC_FLIP_CTRL_TARGET : Field := ⟨0x2000328, 1, 3, .rw, 0, [(256, 0x10000)]⟩
def SLC_FLIP_CTRL_FIRED : Field := ⟨0x2000328, 4, 1, .w1c, 0, [(256, 0x10000)]⟩
/-! SLC_CE_COUNT (10_stored_data_protection.md). -/
def SLC_CE_COUNT_COUNT : Field := ⟨0x2000400, 0, 32, .rc, 0, [(256, 0x10000)]⟩
/-! SLC_UE_COUNT (10_stored_data_protection.md). -/
def SLC_UE_COUNT_COUNT : Field := ⟨0x2000404, 0, 32, .rc, 0, [(256, 0x10000)]⟩
/-! SLC_POISON_COUNT (10_stored_data_protection.md). -/
def SLC_POISON_COUNT_COUNT : Field := ⟨0x2000408, 0, 32, .rc, 0, [(256, 0x10000)]⟩
/-! SLC_CE_RATE (10_stored_data_protection.md). -/
def SLC_CE_RATE_CE_THRESH : Field := ⟨0x2000410, 0, 16, .rw, 0, [(256, 0x10000)]⟩
def SLC_CE_RATE_RATE_WIN_LOG2 : Field := ⟨0x2000410, 16, 4, .rw, 0xa, [(256, 0x10000)]⟩
def SLC_CE_RATE_CROSSED : Field := ⟨0x2000410, 20, 1, .w1c, 0, [(256, 0x10000)]⟩
/-! SLC_ERR_FIRST (10_stored_data_protection.md). -/
def SLC_ERR_FIRST_OFFSET : Field := ⟨0x2000418, 0, 29, .ro, 0, [(256, 0x10000)]⟩
def SLC_ERR_FIRST_CLASS : Field := ⟨0x2000418, 32, 3, .ro, 0, [(256, 0x10000)]⟩
def SLC_ERR_FIRST_AGENT : Field := ⟨0x2000418, 36, 3, .ro, 0, [(256, 0x10000)]⟩
def SLC_ERR_FIRST_FN : Field := ⟨0x2000418, 40, 16, .ro, 0, [(256, 0x10000)]⟩
def SLC_ERR_FIRST_VALID : Field := ⟨0x2000418, 63, 1, .w1c, 0, [(256, 0x10000)]⟩
/-! SLC_ERR_LAST (10_stored_data_protection.md). -/
def SLC_ERR_LAST_OFFSET : Field := ⟨0x2000420, 0, 29, .ro, 0, [(256, 0x10000)]⟩
def SLC_ERR_LAST_CLASS : Field := ⟨0x2000420, 32, 3, .ro, 0, [(256, 0x10000)]⟩
def SLC_ERR_LAST_AGENT : Field := ⟨0x2000420, 36, 3, .ro, 0, [(256, 0x10000)]⟩
def SLC_ERR_LAST_FN : Field := ⟨0x2000420, 40, 16, .ro, 0, [(256, 0x10000)]⟩
def SLC_ERR_LAST_VALID : Field := ⟨0x2000420, 63, 1, .ro, 0, [(256, 0x10000)]⟩
/-! SLC_CE_LAST (10_stored_data_protection.md). -/
def SLC_CE_LAST_OFFSET : Field := ⟨0x2000428, 0, 29, .ro, 0, [(256, 0x10000)]⟩
def SLC_CE_LAST_SYMBOL : Field := ⟨0x2000428, 32, 6, .ro, 0, [(256, 0x10000)]⟩
def SLC_CE_LAST_AGENT : Field := ⟨0x2000428, 39, 3, .ro, 0, [(256, 0x10000)]⟩
def SLC_CE_LAST_FN : Field := ⟨0x2000428, 42, 16, .ro, 0, [(256, 0x10000)]⟩
/-! SLC_SCRUB (10_stored_data_protection.md). -/
def SLC_SCRUB_PTR_L : Field := ⟨0x2000430, 0, 19, .ro, 0, [(256, 0x10000)]⟩
def SLC_SCRUB_PTR_H : Field := ⟨0x2000430, 19, 19, .ro, 0, [(256, 0x10000)]⟩
def SLC_SCRUB_PASSES : Field := ⟨0x2000430, 38, 26, .ro, 0, [(256, 0x10000)]⟩
/-! NBU_HCMD (11_near_bank_units.md). -/
def NBU_HCMD_NBU_OP : Field := ⟨0x3000000, 0, 8, .rw, 0, [(4, 0x100000), (64, 0x2000)]⟩
def NBU_HCMD_LAYER_MASK : Field := ⟨0x3000000, 8, 8, .rw, 0, [(4, 0x100000), (64, 0x2000)]⟩
def NBU_HCMD_BANK_MASK : Field := ⟨0x3000000, 16, 8, .rw, 0, [(4, 0x100000), (64, 0x2000)]⟩
def NBU_HCMD_IMM : Field := ⟨0x3000000, 24, 16, .rw, 0, [(4, 0x100000), (64, 0x2000)]⟩
def NBU_HCMD_START : Field := ⟨0x3000000, 63, 1, .wo, 0, [(4, 0x100000), (64, 0x2000)]⟩
/-! NBU_HRANGE (11_near_bank_units.md). -/
def NBU_HRANGE_BASE_WORD : Field := ⟨0x3000008, 0, 18, .rw, 0, [(4, 0x100000), (64, 0x2000)]⟩
def NBU_HRANGE_WORDS_M1 : Field := ⟨0x3000008, 32, 18, .rw, 0, [(4, 0x100000), (64, 0x2000)]⟩
/-! NBU_HARG (11_near_bank_units.md). -/
def NBU_HARG_BYTES : Field := ⟨0x3000040, 0, 32, .rw, 0, [(4, 0x100000), (64, 0x2000), (16, 0x4)]⟩
/-! NBU_HSTATUS (11_near_bank_units.md). -/
def NBU_HSTATUS_BUSY : Field := ⟨0x3000080, 0, 1, .ro, 0, [(4, 0x100000), (64, 0x2000)]⟩
def NBU_HSTATUS_RESULT : Field := ⟨0x3000080, 1, 3, .ro, 0, [(4, 0x100000), (64, 0x2000)]⟩
def NBU_HSTATUS_OVERRUN : Field := ⟨0x3000080, 4, 1, .w1c, 0, [(4, 0x100000), (64, 0x2000)]⟩
def NBU_HSTATUS_INDEX : Field := ⟨0x3000080, 13, 18, .ro, 0, [(4, 0x100000), (64, 0x2000)]⟩
/-! NBU_ARB (11_near_bank_units.md). -/
def NBU_ARB_HOST_PRIO : Field := ⟨0x3000088, 0, 2, .rw, 1, [(4, 0x100000), (64, 0x2000)]⟩
def NBU_ARB_MGMT_PRIO : Field := ⟨0x3000088, 2, 2, .rw, 2, [(4, 0x100000), (64, 0x2000)]⟩
def NBU_ARB_SLC_PRIO : Field := ⟨0x3000088, 4, 2, .rw, 0, [(4, 0x100000), (64, 0x2000)]⟩
def NBU_ARB_AGE_ROUNDS : Field := ⟨0x3000088, 8, 4, .rw, 4, [(4, 0x100000), (64, 0x2000)]⟩
/-! NBU_COUNT (11_near_bank_units.md). -/
def NBU_COUNT_SCHED : Field := ⟨0x3000090, 0, 32, .ro, 0, [(4, 0x100000), (64, 0x2000)]⟩
def NBU_COUNT_HOST : Field := ⟨0x3000090, 32, 32, .ro, 0, [(4, 0x100000), (64, 0x2000)]⟩
/-! NBU_ERR (11_near_bank_units.md). -/
def NBU_ERR_BAD_INDEX : Field := ⟨0x3000098, 0, 16, .rc, 0, [(4, 0x100000), (64, 0x2000)]⟩
def NBU_ERR_NAN_SAT : Field := ⟨0x3000098, 16, 16, .rc, 0, [(4, 0x100000), (64, 0x2000)]⟩
def NBU_ERR_BLOCKED : Field := ⟨0x3000098, 32, 16, .rc, 0, [(4, 0x100000), (64, 0x2000)]⟩
def NBU_ERR_BEAT_ERR : Field := ⟨0x3000098, 48, 16, .rc, 0, [(4, 0x100000), (64, 0x2000)]⟩
/-! NBU_HRES (11_near_bank_units.md). -/
def NBU_HRES_DATA : Field := ⟨0x3001000, 0, 64, .ro, 0, [(4, 0x100000), (64, 0x2000), (128, 0x8)]⟩

/-- The registers of the GLB block. -/
def rowsGlb : List Reg := [
  ⟨0x0, 4, [], [GLB_IDENT_FAMILY, GLB_IDENT_PART, GLB_IDENT_STEPPING]⟩,
  ⟨0x4, 4, [], [GLB_FUSE_VARIANT, GLB_FUSE_FMAX_MHZ, GLB_FUSE_PCAP_W]⟩,
  ⟨0x8, 4, [], [GLB_INVENTORY_LOGICAL_ISLES, GLB_INVENTORY_SPARES_FREE, GLB_INVENTORY_HARBOUR_PORTS, GLB_INVENTORY_STACKS]⟩,
  ⟨0x10, 8, [], [GLB_DIE_HEALTH_ISLE_DIE, GLB_DIE_HEALTH_DRAM_LAYER, GLB_DIE_HEALTH_HARBOUR_A, GLB_DIE_HEALTH_HARBOUR_B, GLB_DIE_HEALTH_PILOT, GLB_DIE_HEALTH_BRIDGE]⟩,
  ⟨0x20, 4, [], [GLB_HOSTVIEW_VIEW]⟩,
  ⟨0x30, 4, [], [GLB_HIF_LINK_RATE, GLB_HIF_LINK_WIDTH, GLB_HIF_LINK_FLIT, GLB_HIF_LINK_IDE_SECURE, GLB_HIF_LINK_RETRAINS]⟩,
  ⟨0x38, 4, [], [GLB_BAR2_WINDOW_OFFSET_GIB]⟩,
  ⟨0x40, 4, [], [GLB_HIF_LIMIT_HOST_WAIT_US]⟩,
  ⟨0x48, 8, [], [GLB_HIF_ERR_BAR0_BAD, GLB_HIF_ERR_REFUSED, GLB_HIF_ERR_EXPIRED, GLB_HIF_ERR_VEC_ERR]⟩,
  ⟨0x50, 4, [], [GLB_DMA_ARB_QUAY_PRIO, GLB_DMA_ARB_AGE_ROUNDS]⟩,
  ⟨0x60, 4, [], [GLB_RACK_MOD_STRAP, GLB_RACK_ID_MATCH, GLB_RACK_MASTER_ID, GLB_RACK_BACKUP_ID, GLB_RACK_FOREIGN]⟩,
  ⟨0x68, 8, [], [GLB_RACK_ALIVE_ALIVE]⟩,
  ⟨0x70, 4, [], [GLB_BOOT_STATE, GLB_BOOT_STOP_CAUSE, GLB_BOOT_STACK, GLB_BOOT_DETAIL]⟩,
  ⟨0x78, 8, [], [GLB_BOOT_TIME_RELEASE_US, GLB_BOOT_TIME_CRESET_US]⟩,
  ⟨0x80, 4, [], [GLB_CRESET_START, GLB_CRESET_BUSY, GLB_CRESET_DEFERRED, GLB_CRESET_MOVED, GLB_CRESET_REFUSED, GLB_CRESET_COUNT]⟩,
  ⟨0x84, 4, [], [GLB_MRESET_KEY, GLB_MRESET_GO]⟩,
  ⟨0x90, 4, [], [GLB_SUPPLY_MAIN_EN, GLB_SUPPLY_MAIN_PG, GLB_SUPPLY_REFCLK25_OK, GLB_SUPPLY_REFCLK100_OK, GLB_SUPPLY_MAIN_LOST, GLB_SUPPLY_REFCLK_LOST, GLB_SUPPLY_AVS_ERR, GLB_SUPPLY_BROWNOUTS]⟩,
  ⟨0x100, 8, [(8, 0x40)], [DMA_RING_BASE_ADDR]⟩,
  ⟨0x108, 4, [(8, 0x40)], [DMA_CTRL_ENABLE, DMA_CTRL_SIZE_LOG2, DMA_CTRL_PRIO, DMA_CTRL_VECTOR]⟩,
  ⟨0x10c, 4, [(8, 0x40)], [DMA_PROD_PI]⟩,
  ⟨0x110, 4, [(8, 0x40)], [DMA_CONS_CI]⟩,
  ⟨0x114, 4, [(8, 0x40)], [DMA_STATUS_BUSY, DMA_STATUS_HALTED, DMA_STATUS_LAST_CODE, DMA_STATUS_DB_REFUSED]⟩,
  ⟨0x118, 8, [(8, 0x40)], [DMA_BYTES_BYTES]⟩,
  ⟨0x400, 8, [(13, 0x8)], [GLB_RAIL_MV, GLB_RAIL_CURRENT_DA, GLB_RAIL_MIN_MV, GLB_RAIL_MAX_MV]⟩]

/-- The registers of the LHT block. -/
def rowsLht : List Reg := [
  ⟨0x100000, 4, [], [LHT_CTRL_ENABLE, LHT_CTRL_LOCK]⟩,
  ⟨0x100004, 4, [], [LHT_STATUS_STATE, LHT_STATUS_EVER_LOCKED, LHT_STATUS_MASTER_ID, LHT_STATUS_MASTER_EPOCH, LHT_STATUS_PORTS_USED, LHT_STATUS_PERIOD_MISMATCH]⟩,
  ⟨0x100008, 8, [], [LHT_LT_LT]⟩,
  ⟨0x100010, 8, [], [LHT_LT_PRESET_PRESET]⟩,
  ⟨0x100018, 4, [], [LHT_FRAME_CFG_PERIOD_US, LHT_FRAME_CFG_D_BASE]⟩,
  ⟨0x10001c, 4, [], [LHT_RDV_CFG_RDV_PERIOD]⟩,
  ⟨0x100020, 8, [], [LHT_TICK_ORIGIN_ORIGIN]⟩,
  ⟨0x100028, 8, [], [LHT_FN_FN]⟩,
  ⟨0x100030, 4, [], [LHT_LOCAL_D_CUR, LHT_LOCAL_K_CUR, LHT_LOCAL_WET]⟩,
  ⟨0x100038, 8, [], [LHT_LOCAL_FN_FN_S]⟩,
  ⟨0x100040, 4, [], [LHT_DPOLICY_D_MIN, LHT_DPOLICY_D_MAX]⟩,
  ⟨0x100044, 4, [], [LHT_SVC_W_IMG]⟩,
  ⟨0x100048, 4, [], [LHT_RDV_MISSED_COUNT]⟩,
  ⟨0x100050, 8, [], [LHT_RDV_LAST_FN]⟩,
  ⟨0x100058, 4, [], [LHT_SERVO_OFFSET_PS]⟩,
  ⟨0x10005c, 4, [], [LHT_FREQ_FREQ_PPB]⟩,
  ⟨0x100060, 4, [], [LHT_HOLD_CFG_HOLDOVER_LIMIT_US, LHT_HOLD_CFG_MASTER_LOSS_FRAMES]⟩,
  ⟨0x100080, 4, [(8, 0x4)], [LHT_PORT_ASYM_ASYM_PS]⟩,
  ⟨0x1000a0, 4, [(8, 0x4)], [LHT_PORT_OFFSET_OFFSET_PS, LHT_PORT_OFFSET_REJECTED, LHT_PORT_OFFSET_VALID]⟩]

/-- The registers of the QUA block. -/
def rowsQua : List Reg := [
  ⟨0x200000, 4, [(64, 0x100)], [QUA_CTRL_ENABLE, QUA_CTRL_LOC, QUA_CTRL_SIZE_LOG2, QUA_CTRL_ENABLE_ERR]⟩,
  ⟨0x200008, 8, [(64, 0x100)], [QUA_RING_BASE_ADDR]⟩,
  ⟨0x200010, 4, [(64, 0x100)], [QUA_PROD_PI]⟩,
  ⟨0x200014, 4, [(64, 0x100)], [QUA_CONS_CI]⟩,
  ⟨0x200018, 4, [(64, 0x100)], [QUA_SEQ_SEQ]⟩,
  ⟨0x20001c, 4, [(64, 0x100)], [QUA_SEQ_START_START]⟩,
  ⟨0x200020, 4, [(64, 0x100)], [QUA_NOTICE_VECTOR, QUA_NOTICE_PKT_EN, QUA_NOTICE_ERR_EN, QUA_NOTICE_IDLE_US]⟩,
  ⟨0x200024, 4, [(64, 0x100)], [QUA_STATUS_BOUND, QUA_STATUS_DIR, QUA_STATUS_FUNC, QUA_STATUS_HALTED, QUA_STATUS_HALT_CAUSE, QUA_STATUS_BUSY, QUA_STATUS_PKT, QUA_STATUS_IDLE, QUA_STATUS_ERR]⟩,
  ⟨0x200028, 8, [(64, 0x100)], [QUA_PEEK_HEADER]⟩,
  ⟨0x200030, 8, [(64, 0x100)], [QUA_COUNT_PACKETS, QUA_COUNT_DROPPED, QUA_COUNT_DROPPED_FULL, QUA_COUNT_EMIT_LATE]⟩,
  ⟨0x200038, 8, [(64, 0x100)], [QUA_ERR_REASON, QUA_ERR_DB_REFUSED, QUA_ERR_SEQ]⟩]

/-- The registers of the BOL block. -/
def rowsBol : List Reg := [
  ⟨0x300000, 4, [(4096, 0x10)], [BOL_VALUE_VALUE]⟩,
  ⟨0x300004, 4, [(4096, 0x10)], [BOL_ADD_DELTA]⟩,
  ⟨0x300008, 4, [(4096, 0x10)], [BOL_TAS_OLD]⟩,
  ⟨0x310000, 4, [(256, 0x20)], [BOL_WAIT_CTRL_BOLLARD, BOL_WAIT_CTRL_CONSUME, BOL_WAIT_CTRL_ARM, BOL_WAIT_CTRL_FIRED, BOL_WAIT_CTRL_TIMED_OUT, BOL_WAIT_CTRL_ARM_ERR, BOL_WAIT_CTRL_VECTOR]⟩,
  ⟨0x310004, 4, [(256, 0x20)], [BOL_WAIT_THRESH_THRESHOLD]⟩,
  ⟨0x310008, 4, [(256, 0x20)], [BOL_WAIT_TIMEOUT_TIMEOUT_US]⟩,
  ⟨0x310010, 8, [(256, 0x20)], [BOL_WAIT_RESULT_VALUE, BOL_WAIT_RESULT_FN]⟩,
  ⟨0x320000, 8, [], [BOL_STATUS_SAT_COUNT, BOL_STATUS_SAT_LAST]⟩]

/-- The registers of the HAR block. -/
def rowsHar : List Reg := [
  ⟨0x400000, 4, [(8, 0x10000)], [HAR_CTRL_ENABLE, HAR_CTRL_RETRAIN, HAR_CTRL_RETRAIN_ON_FEC]⟩,
  ⟨0x400004, 4, [(8, 0x10000)], [HAR_STATUS_STATE, HAR_STATUS_QUARANTINED, HAR_STATUS_ROLE, HAR_STATUS_RETRAIN_PENDING]⟩,
  ⟨0x400008, 8, [(8, 0x10000)], [HAR_LSN_TX_NEXT, HAR_LSN_RX_EXPECT]⟩,
  ⟨0x400010, 8, [(8, 0x10000)], [HAR_FEC_CORR_CODEWORDS]⟩,
  ⟨0x400018, 4, [(8, 0x10000)], [HAR_FEC_UNCORR_CODEWORDS]⟩,
  ⟨0x40001c, 4, [(8, 0x10000)], [HAR_FEC_RATE_FEC_THRESH, HAR_FEC_RATE_WIN_LOG2, HAR_FEC_RATE_CROSSED]⟩,
  ⟨0x400020, 4, [(8, 0x10000)], [HAR_FLIT_ERR_DAMAGED, HAR_FLIT_ERR_LOST]⟩,
  ⟨0x400040, 4, [(8, 0x10000), (9, 0x4)], [HAR_VIOL_COUNT]⟩,
  ⟨0x400070, 4, [(8, 0x10000)], [HAR_QUAR_CFG_QUAR_THRESH, HAR_QUAR_CFG_QUAR_WINDOW]⟩,
  ⟨0x400074, 4, [(8, 0x10000)], [HAR_QUAR_STAT_WINDOW_COUNT, HAR_QUAR_STAT_QUAR_DROPPED]⟩,
  ⟨0x400078, 8, [(8, 0x10000)], [HAR_PROTEST_TX_REASON, HAR_PROTEST_TX_LSN, HAR_PROTEST_TX_SLOT, HAR_PROTEST_TX_FN, HAR_PROTEST_TX_COUNT]⟩,
  ⟨0x400080, 8, [(8, 0x10000)], [HAR_PROTEST_RX_REASON, HAR_PROTEST_RX_LSN, HAR_PROTEST_RX_SLOT, HAR_PROTEST_RX_FN, HAR_PROTEST_RX_COUNT]⟩,
  ⟨0x400088, 8, [(8, 0x10000)], [HAR_SLOT_STAT_INTACT, HAR_SLOT_STAT_NOT_INTACT, HAR_SLOT_STAT_FIRST_BAD, HAR_SLOT_STAT_CAUSE, HAR_SLOT_STAT_FN]⟩]

/-- The registers of the PWR block. -/
def rowsPwr : List Reg := [
  ⟨0x500000, 4, [], [PWR_REQ_FIXED, PWR_REQ_TARGET]⟩,
  ⟨0x500008, 8, [], [PWR_STATE_STATE_PD0, PWR_STATE_STATE_PD1, PWR_STATE_STATE_PD2, PWR_STATE_STATE_PD3, PWR_STATE_STATE_PD4, PWR_STATE_STATE_PD5, PWR_STATE_STATE_PD6, PWR_STATE_STATE_PD7, PWR_STATE_STATE_PD8, PWR_STATE_STATE_PD9, PWR_STATE_STATE_PD10, PWR_STATE_STATE_PD11, PWR_STATE_STATE_PD12, PWR_STATE_STATE_PD13, PWR_STATE_STATE_PD14, PWR_STATE_STATE_PD15, PWR_STATE_STATE_PD16, PWR_STATE_STATE_PD17]⟩,
  ⟨0x500010, 4, [], [PWR_SEQ_REFUSED, PWR_SEQ_REVERSALS]⟩,
  ⟨0x500014, 4, [], [PWR_FAULT_DOMAIN, PWR_FAULT_CAUSE, PWR_FAULT_COUNT]⟩,
  ⟨0x500020, 4, [], [PWR_CAP_HOST_CAP_W, PWR_CAP_EFFECTIVE_W]⟩,
  ⟨0x500028, 8, [], [PWR_MEAS_P_FRAME_W, PWR_MEAS_P_SVC_W, PWR_MEAS_E_FG_UJ]⟩,
  ⟨0x500030, 4, [], [PWR_LIMIT_D_PWR, PWR_LIMIT_LIMITING, PWR_LIMIT_FUSED_OVERRIDE, PWR_LIMIT_UNMET]⟩,
  ⟨0x500040, 4, [(4, 0x4)], [PWR_AVS_VSET_MV, PWR_AVS_EN, PWR_AVS_AT_MAX, PWR_AVS_AT_MIN]⟩,
  ⟨0x500080, 8, [], [PWR_CLK_LOCK_LOCKED]⟩,
  ⟨0x500088, 4, [], [PWR_CLK_FREQ_ISLE_MHZ, PWR_CLK_FREQ_SLICE_MHZ, PWR_CLK_FREQ_UNLOCKS]⟩]

/-- The registers of the THM block. -/
def rowsThm : List Reg := [
  ⟨0x600000, 4, [], [THM_CTRL_LOCK]⟩,
  ⟨0x600004, 4, [], [THM_STATUS_STATE, THM_STATUS_D_TH, THM_STATUS_POLICY_OVERRIDDEN, THM_STATUS_OVERRIDE_CAUSE, THM_STATUS_ENV_OUT]⟩,
  ⟨0x600008, 4, [], [THM_THRESH_LOGIC_WARN_C, THM_THRESH_LOGIC_THROT_C, THM_THRESH_LOGIC_SHUT_C]⟩,
  ⟨0x60000c, 4, [], [THM_THRESH_DRAM_WARN_C, THM_THRESH_DRAM_THROT_C, THM_THRESH_DRAM_SHUT_C]⟩,
  ⟨0x600010, 4, [], [THM_HYST_LOGIC_WARN_HYST, THM_HYST_LOGIC_THROT_HYST, THM_HYST_LOGIC_SHUT_HYST, THM_HYST_DRAM_WARN_HYST, THM_HYST_DRAM_THROT_HYST, THM_HYST_DRAM_SHUT_HYST]⟩,
  ⟨0x600014, 4, [], [THM_DCTRL_RISE_STEP, THM_DCTRL_RISE_MS, THM_DCTRL_FALL_MS]⟩,
  ⟨0x600018, 4, [], [THM_COOL_CFG_COOL_RISE, THM_COOL_CFG_COOL_WIN, THM_COOL_CFG_DERATE_C, THM_COOL_CFG_PUMP_OUT]⟩,
  ⟨0x60001c, 4, [], [THM_COOL_STAT_COOL_TREND, THM_COOL_STAT_VALVE_SUSPECT, THM_COOL_STAT_PUMP_FAULT, THM_COOL_STAT_RISE]⟩,
  ⟨0x600020, 4, [], [THM_SHUTDOWN_LATCHED, THM_SHUTDOWN_CLEAR_REFUSED, THM_SHUTDOWN_DRAM_LIMIT, THM_SHUTDOWN_SENSOR]⟩,
  ⟨0x600028, 4, [], [THM_OVERRIDE_FRAMES]⟩,
  ⟨0x600040, 8, [(4, 0x8)], [THM_STACK_LOGIC_MAX, THM_STACK_DRAM_TEMP, THM_STACK_DRAM_MIN]⟩,
  ⟨0x601000, 4, [(428, 0x4)], [THM_SENSOR_TEMP, THM_SENSOR_UNCAL, THM_SENSOR_FAILED, THM_SENSOR_WARN, THM_SENSOR_THROT, THM_SENSOR_SHUT]⟩]

/-- The registers of the FAC block. -/
def rowsFac : List Reg := [
  ⟨0x700000, 4, [], [FAC_STOP_A_RUN, FAC_STOP_B_RUN, FAC_STOP_DEMAND, FAC_STOP_STOP_LATCHED, FAC_STOP_CHANNEL_FAULT, FAC_STOP_CLEAR_REFUSED, FAC_STOP_DISC_MS]⟩,
  ⟨0x700004, 4, [], [FAC_STOP_COUNT_TRANSIENTS, FAC_STOP_COUNT_DEMANDS]⟩,
  ⟨0x700008, 8, [], [FAC_STOP_TIME_LT]⟩,
  ⟨0x700010, 4, [], [FAC_SWO1_CTRL_CMD, FAC_SWO1_CTRL_RETRY, FAC_SWO1_CTRL_STATE, FAC_SWO1_CTRL_OVERCURRENT, FAC_SWO1_CTRL_BACKFEED, FAC_SWO1_CTRL_CLEAR_REFUSED, FAC_SWO1_CTRL_RETRIES_USED, FAC_SWO1_CTRL_TRIPS]⟩,
  ⟨0x700014, 4, [], [FAC_SWO1_MEAS_CURRENT_MA, FAC_SWO1_MEAS_PIN_MV]⟩,
  ⟨0x700018, 4, [], [FAC_SWO2_CTRL_CMD, FAC_SWO2_CTRL_RETRY, FAC_SWO2_CTRL_STATE, FAC_SWO2_CTRL_OVERCURRENT, FAC_SWO2_CTRL_BACKFEED, FAC_SWO2_CTRL_CLEAR_REFUSED, FAC_SWO2_CTRL_RETRIES_USED, FAC_SWO2_CTRL_TRIPS]⟩,
  ⟨0x70001c, 4, [], [FAC_SWO2_MEAS_CURRENT_MA, FAC_SWO2_MEAS_PIN_MV]⟩,
  ⟨0x700020, 4, [], [FAC_LOOP_CTRL_CMD_UA]⟩,
  ⟨0x700024, 4, [], [FAC_LOOP_STATUS_COMPLIANCE, FAC_LOOP_STATUS_COMPLIANCE_LOST, FAC_LOOP_STATUS_LOOP_OPEN, FAC_LOOP_STATUS_HEADROOM_MV]⟩,
  ⟨0x700028, 4, [], [FAC_LOOP_MEAS_CURRENT_UA, FAC_LOOP_MEAS_PIN_MV]⟩,
  ⟨0x700030, 4, [], [FAC_VAUX_VAUX_MV]⟩]

/-- The registers of the KEL block. -/
def rowsKel : List Reg := [
  ⟨0x800000, 4, [], [KEL_STATUS_STATE, KEL_STATUS_SLOT, KEL_STATUS_OCCUPANCY]⟩,
  ⟨0x800008, 8, [], [KEL_SEQ_NEXT_SEQ, KEL_SEQ_DURABLE_SEQ]⟩,
  ⟨0x800010, 8, [], [KEL_SNAP_GENERATION, KEL_SNAP_COVERS_SEQ]⟩,
  ⟨0x800018, 8, [], [KEL_CMD_OP, KEL_CMD_BUSY, KEL_CMD_RESULT, KEL_CMD_OVERRUN, KEL_CMD_LENGTH, KEL_CMD_KEY]⟩,
  ⟨0x800020, 4, [], [KEL_ARG_SEQ]⟩,
  ⟨0x800028, 8, [], [KEL_COUNT_TORN, KEL_COUNT_DROPPED, KEL_COUNT_RETIRED, KEL_COUNT_COMPACTIONS]⟩,
  ⟨0x801000, 4, [(1024, 0x4)], [KEL_RD_BUF_WORD]⟩,
  ⟨0x802000, 4, [(256, 0x4)], [KEL_WR_BUF_WORD]⟩]

/-- The registers of the CKP block. -/
def rowsCkp : List Reg := [
  ⟨0x900000, 4, [], [CKP_CTRL_ENABLE, CKP_CTRL_TRIG_CE, CKP_CTRL_TRIG_THERM, CKP_CTRL_TRIG_FEC, CKP_CTRL_COVER, CKP_CTRL_REQUEST, CKP_CTRL_FULL_NEXT, CKP_CTRL_CLEAR_MAPS, CKP_CTRL_RESTORE_ACCEPT, CKP_CTRL_HOST_HOLD, CKP_CTRL_REFUGE_RESET, CKP_CTRL_HOLDOFF_MS]⟩,
  ⟨0x900004, 4, [], [CKP_CFG_ABANDON_RDV]⟩,
  ⟨0x900008, 8, [], [CKP_REFUGE_BASE_64K, CKP_REFUGE_PAGES]⟩,
  ⟨0x900010, 4, [], [CKP_STATUS_STATE, CKP_STATUS_PENDING, CKP_STATUS_CAUSE, CKP_STATUS_LAST, CKP_STATUS_SUPPRESSED]⟩,
  ⟨0x900018, 8, [], [CKP_GEN_CURRENT, CKP_GEN_ACKED]⟩,
  ⟨0x900020, 8, [], [CKP_CUT_FN_FN]⟩,
  ⟨0x900028, 8, [], [CKP_PROGRESS_TOTAL, CKP_PROGRESS_SENT]⟩,
  ⟨0x900030, 8, [], [CKP_COUNT_COMMITTED, CKP_COUNT_ABANDONED, CKP_COUNT_RESENT]⟩,
  ⟨0x900038, 8, [], [CKP_REFUGE_STAT_COMMITTED_GEN, CKP_REFUGE_STAT_PARTNER, CKP_REFUGE_STAT_OWNED, CKP_REFUGE_STAT_POOL_FREE]⟩,
  ⟨0x900040, 4, [], [CKP_RESTORE_START, CKP_RESTORE_BUSY, CKP_RESTORE_DONE]⟩,
  ⟨0x900100, 4, [(256, 0x4)], [CKP_DIRTY_PAGES]⟩,
  ⟨0x910000, 4, [(256, 0x400), (256, 0x4)], [CKP_MAP_BITS]⟩]

/-- The registers of the EVT block. -/
def rowsEvt : List Reg := [
  ⟨0xa00000, 4, [], [EVT_CTRL_FREEZE_ON_FATAL, EVT_CTRL_UNFREEZE, EVT_CTRL_PERSIST_MIN, EVT_CTRL_POST_FATAL]⟩,
  ⟨0xa00004, 4, [], [EVT_STATUS_FROZEN, EVT_STATUS_FATAL_VALID]⟩,
  ⟨0xa00008, 8, [], [EVT_SEQ_NEXT_SEQ, EVT_SEQ_OLDEST_SEQ]⟩,
  ⟨0xa00010, 4, [], [EVT_ACK_ACK_SEQ]⟩,
  ⟨0xa00018, 8, [], [EVT_LOSS_OVERWRITTEN, EVT_LOSS_LOST, EVT_LOSS_OVERFLOW]⟩,
  ⟨0xa00040, 8, [(4, 0x8)], [EVT_FATAL_DATA]⟩,
  ⟨0xa10000, 8, [(4096, 0x20), (4, 0x8)], [EVT_LOG_DATA]⟩]

/-- The registers of the FRV block. -/
def rowsFrv : List Reg := [
  ⟨0xb00000, 8, [], [FRV_IMG_ADDR_ADDR]⟩,
  ⟨0xb00008, 4, [], [FRV_IMG_CMD_START, FRV_IMG_CMD_CANCEL]⟩,
  ⟨0xb0000c, 4, [], [FRV_IMG_STATUS_STATE, FRV_IMG_STATUS_RESULT, FRV_IMG_STATUS_REFUSAL, FRV_IMG_STATUS_OVERRUN, FRV_IMG_STATUS_LATE_ACT, FRV_IMG_STATUS_LOADED]⟩,
  ⟨0xb00010, 8, [], [FRV_IMG_DETAIL_SECTION, FRV_IMG_DETAIL_ENTRY, FRV_IMG_DETAIL_BYTE]⟩,
  ⟨0xb00018, 8, [], [FRV_IMG_ACT_ACTIVATE_FN]⟩,
  ⟨0xb00020, 8, [], [FRV_IMG_ACTIVE_FN_FN]⟩,
  ⟨0xb00040, 4, [(8, 0x4)], [FRV_DIGEST_BYTES]⟩,
  ⟨0xb00060, 4, [], [FRV_KEYS_ENROLLED, FRV_KEYS_REVOKED, FRV_KEYS_SIGNER]⟩,
  ⟨0xb00064, 4, [], [FRV_SEC_FLOOR_FLOOR]⟩,
  ⟨0xb00068, 4, [], [FRV_KEY_REVOKE_REVOKE]⟩,
  ⟨0xb00400, 4, [(32, 0x20), (8, 0x4)], [FRV_ARCH_DIGEST_BYTES]⟩,
  ⟨0xb01000, 8, [], [FRV_SCHED_ADDR_ADDR]⟩,
  ⟨0xb01008, 4, [], [FRV_SCHED_CMD_ARCH, FRV_SCHED_CMD_START]⟩,
  ⟨0xb0100c, 4, [], [FRV_SCHED_STATUS_BUSY, FRV_SCHED_STATUS_RESULT, FRV_SCHED_STATUS_ARCH, FRV_SCHED_STATUS_REFUSAL, FRV_SCHED_STATUS_OVERRUN]⟩,
  ⟨0xb01010, 8, [], [FRV_SCHED_DETAIL_ISLE, FRV_SCHED_DETAIL_INDEX, FRV_SCHED_DETAIL_CYCLE, FRV_SCHED_DETAIL_RESOURCE]⟩,
  ⟨0xb01100, 4, [(32, 0x4)], [FRV_ARCH_STATE_INSTALLED, FRV_ARCH_STATE_GEN, FRV_ARCH_STATE_VOID_RUN]⟩,
  ⟨0xb01180, 4, [(32, 0x4)], [FRV_ARCH_VOID_VOID_CYCLE]⟩]

/-- The registers of the PIL block. -/
def rowsPil : List Reg := [
  ⟨0xc00000, 4, [], [PIL_MBX_CMD_OPCODE, PIL_MBX_CMD_START]⟩,
  ⟨0xc00004, 4, [], [PIL_MBX_STATUS_BUSY, PIL_MBX_STATUS_RESULT, PIL_MBX_STATUS_OVERRUN, PIL_MBX_STATUS_DONE]⟩,
  ⟨0xc00008, 8, [], [PIL_MBX_ADDR_ADDR]⟩,
  ⟨0xc00010, 4, [], [PIL_MBX_NOTICE_VECTOR, PIL_MBX_NOTICE_EN]⟩,
  ⟨0xc00020, 8, [], [PIL_FW_VERSION_A, PIL_FW_VERSION_B, PIL_FW_ACTIVE, PIL_FW_FLOOR]⟩,
  ⟨0xc00030, 4, [], [PIL_CTRL_MGMT_WRITE_EN, PIL_CTRL_LOCK]⟩,
  ⟨0xc00040, 4, [], [PIL_MCTP_EID_SMBUS, PIL_MCTP_EID_VDM, PIL_MCTP_SMBUS_ADDR]⟩,
  ⟨0xc00044, 4, [], [PIL_MCTP_ERR_BAD, PIL_MCTP_ERR_UNSUPPORTED]⟩,
  ⟨0xc00048, 4, [], [PIL_PLDM_RECEIVER_EID, PIL_PLDM_RECEIVER_VDM, PIL_PLDM_RECEIVER_SET, PIL_PLDM_QUEUED]⟩,
  ⟨0xc0004c, 4, [], [PIL_PLDM_FWD_GROUP_MASK, PIL_PLDM_FWD_DROPPED]⟩,
  ⟨0xc00050, 8, [], [PIL_COH_RACES, PIL_COH_MAX_ROUNDS]⟩,
  ⟨0xc00058, 4, [], [PIL_WDOG_RESETS, PIL_WDOG_LAST_PILOT]⟩,
  ⟨0xc00060, 4, [], [PIL_IDCODE_IDCODE]⟩,
  ⟨0xc00064, 4, [], [PIL_JTAG_STAT_EXTEST_BLOCKED, PIL_JTAG_STAT_TAP_ACTIVE]⟩,
  ⟨0xc00100, 4, [(64, 0x4)], [PIL_MBX_ARG_BYTES]⟩,
  ⟨0xc00200, 4, [(64, 0x4)], [PIL_MBX_RSP_BYTES]⟩]

/-- The registers of the ISL block. -/
def rowsIsl : List Reg := [
  ⟨0x1000000, 4, [(256, 0x10000)], [ISL_STATE_STATE, ISL_STATE_STALE, ISL_STATE_REQ_PENDING, ISL_STATE_ARCH, ISL_STATE_ASSIGNED, ISL_STATE_EPOCH]⟩,
  ⟨0x1000004, 4, [(256, 0x10000)], [ISL_EPOCH_LIVE_EPOCH]⟩,
  ⟨0x1000008, 4, [(256, 0x10000)], [ISL_STATE_REQ_REQ, ISL_STATE_REQ_REQ_REFUSED]⟩,
  ⟨0x1000010, 8, [(256, 0x10000)], [ISL_FRAME_OUTCOME, ISL_FRAME_GEN, ISL_FRAME_LAUNCHED, ISL_FRAME_LAST_OFFSET]⟩,
  ⟨0x1000018, 8, [(256, 0x10000)], [ISL_BUSY_ARRAY_CYCLES, ISL_BUSY_SLICE_CYCLES]⟩,
  ⟨0x1000020, 4, [(256, 0x10000)], [ISL_VOID_CAUSE, ISL_VOID_SOURCE]⟩,
  ⟨0x1000024, 4, [(256, 0x10000)], [ISL_VOID_COUNT_COUNT]⟩,
  ⟨0x1000100, 8, [(256, 0x10000)], [ISL_ARRAY_COUNT_PASSES, ISL_ARRAY_COUNT_COMPUTE_CYCLES]⟩,
  ⟨0x1000108, 4, [(256, 0x10000)], [ISL_ARRAY_ABORT_CYCLE, ISL_ARRAY_ABORT_PHASE, ISL_ARRAY_ABORT_POISONED]⟩,
  ⟨0x100010c, 4, [(256, 0x10000)], [ISL_ARRAY_SAT_ACC_SAT, ISL_ARRAY_SAT_OUT_SAT]⟩,
  ⟨0x1000110, 4, [(256, 0x10000)], [ISL_ARRAY_NAN_COUNT]⟩,
  ⟨0x1000120, 4, [(256, 0x10000)], [ISL_VEC_STAT_SAT, ISL_VEC_STAT_NAN]⟩,
  ⟨0x1000130, 4, [(256, 0x10000)], [ISL_SIEVE_NMS_KEPT, ISL_SIEVE_NMS_ELIGIBLE]⟩,
  ⟨0x1000134, 4, [(256, 0x10000)], [ISL_SIEVE_STAT_TRUNC, ISL_SIEVE_STAT_BOX_SAT]⟩,
  ⟨0x1000140, 4, [(256, 0x10000)], [ISL_LAGOON_ERR_CE, ISL_LAGOON_ERR_UE]⟩]

/-- The registers of the SLC block. -/
def rowsSlc : List Reg := [
  ⟨0x2000000, 4, [(256, 0x10000)], [SLC_GEOMETRY_LAYERS, SLC_GEOMETRY_BANKS, SLC_GEOMETRY_ROWS_LOG2, SLC_GEOMETRY_ROW_BYTES_LOG2]⟩,
  ⟨0x2000008, 8, [(256, 0x10000)], [SLC_REFRESH_HOT, SLC_REFRESH_SELF_TIMED, SLC_REFRESH_FLOOR, SLC_REFRESH_POINTER, SLC_REFRESH_SLOTS_LAST]⟩,
  ⟨0x2000010, 4, [(256, 0x10000)], [SLC_REFRESH_SPACING_SIGMA]⟩,
  ⟨0x2000018, 8, [(256, 0x10000)], [SLC_REFRESH_TOTAL_SLOTS]⟩,
  ⟨0x2000020, 4, [(256, 0x10000)], [SLC_SPARE_ROWS_USED, SLC_SPARE_LANES_USED, SLC_SPARE_MIN_ROWS_FREE, SLC_SPARE_MIN_LANES_FREE, SLC_SPARE_MIN_BONDS_FREE]⟩,
  ⟨0x2000028, 8, [(256, 0x10000)], [SLC_HOST_WORDS, SLC_HOST_RMW, SLC_HOST_PENDING]⟩,
  ⟨0x2000100, 8, [(256, 0x10000), (8, 0x8)], [SLC_REGION_VALID, SLC_REGION_KIND, SLC_REGION_ENC, SLC_REGION_ECC_MODE, SLC_REGION_HOST_RD, SLC_REGION_HOST_WR, SLC_REGION_KEY_SLOT, SLC_REGION_LAYER_MASK, SLC_REGION_BANK_MASK, SLC_REGION_FIRST_64K, SLC_REGION_LAST_64K]⟩,
  ⟨0x2000200, 4, [(256, 0x10000), (16, 0x4)], [SLC_KEY_DATA_BYTES]⟩,
  ⟨0x2000240, 4, [(256, 0x10000)], [SLC_KEY_CMD_SLOT, SLC_KEY_CMD_OP, SLC_KEY_CMD_PENDING, SLC_KEY_CMD_REFUSED]⟩,
  ⟨0x2000248, 8, [(256, 0x10000)], [SLC_KEY_STATE_LOADED]⟩,
  ⟨0x2000300, 4, [(256, 0x10000), (9, 0x4)], [SLC_FLIP_MASK]⟩,
  ⟨0x2000324, 4, [(256, 0x10000)], [SLC_FLIP_ADDR_ADDR_XOR]⟩,
  ⟨0x2000328, 4, [(256, 0x10000)], [SLC_FLIP_CTRL_ARM, SLC_FLIP_CTRL_TARGET, SLC_FLIP_CTRL_FIRED]⟩,
  ⟨0x2000400, 4, [(256, 0x10000)], [SLC_CE_COUNT_COUNT]⟩,
  ⟨0x2000404, 4, [(256, 0x10000)], [SLC_UE_COUNT_COUNT]⟩,
  ⟨0x2000408, 4, [(256, 0x10000)], [SLC_POISON_COUNT_COUNT]⟩,
  ⟨0x2000410, 4, [(256, 0x10000)], [SLC_CE_RATE_CE_THRESH, SLC_CE_RATE_RATE_WIN_LOG2, SLC_CE_RATE_CROSSED]⟩,
  ⟨0x2000418, 8, [(256, 0x10000)], [SLC_ERR_FIRST_OFFSET, SLC_ERR_FIRST_CLASS, SLC_ERR_FIRST_AGENT, SLC_ERR_FIRST_FN, SLC_ERR_FIRST_VALID]⟩,
  ⟨0x2000420, 8, [(256, 0x10000)], [SLC_ERR_LAST_OFFSET, SLC_ERR_LAST_CLASS, SLC_ERR_LAST_AGENT, SLC_ERR_LAST_FN, SLC_ERR_LAST_VALID]⟩,
  ⟨0x2000428, 8, [(256, 0x10000)], [SLC_CE_LAST_OFFSET, SLC_CE_LAST_SYMBOL, SLC_CE_LAST_AGENT, SLC_CE_LAST_FN]⟩,
  ⟨0x2000430, 8, [(256, 0x10000)], [SLC_SCRUB_PTR_L, SLC_SCRUB_PTR_H, SLC_SCRUB_PASSES]⟩]

/-- The registers of the NBU block. -/
def rowsNbu : List Reg := [
  ⟨0x3000000, 8, [(4, 0x100000), (64, 0x2000)], [NBU_HCMD_NBU_OP, NBU_HCMD_LAYER_MASK, NBU_HCMD_BANK_MASK, NBU_HCMD_IMM, NBU_HCMD_START]⟩,
  ⟨0x3000008, 8, [(4, 0x100000), (64, 0x2000)], [NBU_HRANGE_BASE_WORD, NBU_HRANGE_WORDS_M1]⟩,
  ⟨0x3000040, 4, [(4, 0x100000), (64, 0x2000), (16, 0x4)], [NBU_HARG_BYTES]⟩,
  ⟨0x3000080, 4, [(4, 0x100000), (64, 0x2000)], [NBU_HSTATUS_BUSY, NBU_HSTATUS_RESULT, NBU_HSTATUS_OVERRUN, NBU_HSTATUS_INDEX]⟩,
  ⟨0x3000088, 4, [(4, 0x100000), (64, 0x2000)], [NBU_ARB_HOST_PRIO, NBU_ARB_MGMT_PRIO, NBU_ARB_SLC_PRIO, NBU_ARB_AGE_ROUNDS]⟩,
  ⟨0x3000090, 8, [(4, 0x100000), (64, 0x2000)], [NBU_COUNT_SCHED, NBU_COUNT_HOST]⟩,
  ⟨0x3000098, 8, [(4, 0x100000), (64, 0x2000)], [NBU_ERR_BAD_INDEX, NBU_ERR_NAN_SAT, NBU_ERR_BLOCKED, NBU_ERR_BEAT_ERR]⟩,
  ⟨0x3001000, 8, [(4, 0x100000), (64, 0x2000), (128, 0x8)], [NBU_HRES_DATA]⟩]

/-- Every register of BAR0. -/
def allRows : List Reg :=
  rowsGlb ++ rowsLht ++ rowsQua ++ rowsBol ++ rowsHar ++ rowsPwr ++ rowsThm ++ rowsFac ++ rowsKel ++ rowsCkp ++ rowsEvt ++ rowsFrv ++ rowsPil ++ rowsIsl ++ rowsSlc ++ rowsNbu

end Sys2Proof.Machine.R
end

