-- ==== Sys2Proof/Machine/Ops.lean ====
section
/-!
DEFINITION. The named operations over the state: register fields, events, the keel queue, memories and open values.
-/
namespace Sys2Proof.Machine

/-- What a meaning answers. -/
abbrev Result := Host.Outcome State Fault Refusal

/-! Register fields. -/

/-- The copy of a field named by its indices, outermost first. -/
def Field.at (f : Field) (ix : List Nat) : Field :=
  { f with addr := f.addr + ((f.dims.zip ix).map (fun p => p.1.2 * p.2)).sum, dims := f.dims.drop ix.length }

/-- Where a field is held: its address times 64, plus its lowest bit. -/
def Field.key (f : Field) : Nat := f.addr * 64 + f.lo

/-- The value of a field. -/
def State.get (s : State) (f : Field) : Nat := KMap.get f.reset s.regs f.key

/-- The state with a field set, to the field's width. -/
def State.set (s : State) (f : Field) (v : Nat) : State :=
  { s with regs := KMap.put f.reset s.regs f.key (v % 2 ^ f.width) }

/-- A one-bit field as a truth value, and set from one. -/
def State.flag (s : State) (f : Field) : Bool := s.get f == 1
def State.setFlag (s : State) (f : Field) (b : Bool) : State := s.set f (b2n b)

/-- A counter that stops at its field's largest value. -/
def State.bump (s : State) (f : Field) (n : Nat := 1) : State := s.set f (satAdd f.width (s.get f) n)

/-- A counter that wraps at its field's width. -/
def State.count (s : State) (f : Field) (n : Nat := 1) : State := s.set f (s.get f + n)

/-- The next open value's number, and the state with it drawn. -/
def State.draw (s : State) : Nat × State := (s.draws, { s with draws := s.draws + 1 })

/-- The module sends something. -/
def State.emit (s : State) (o : Out) : State := { s with out := s.out ++ [o] }

/-! Isles, archipelagos and slices by number. -/

def State.isle (s : State) (i : Nat) : Isle := KMap.get {} s.isles i
def State.setIsle (s : State) (i : Nat) (v : Isle) : State := { s with isles := KMap.put {} s.isles i v }
def State.modIsle (s : State) (i : Nat) (f : Isle → Isle) : State := s.setIsle i (f (s.isle i))
def State.arch (s : State) (a : Nat) : Arch := KMap.get {} s.archs a
def State.setArch (s : State) (a : Nat) (v : Arch) : State := { s with archs := KMap.put {} s.archs a v }
def State.modArch (s : State) (a : Nat) (f : Arch → Arch) : State := s.setArch a (f (s.arch a))
def State.slice (s : State) (i : Nat) : Slice := KMap.get {} s.slices i
def State.setSlice (s : State) (i : Nat) (v : Slice) : State := { s with slices := KMap.put {} s.slices i v }
def State.modSlice (s : State) (i : Nat) (f : Slice → Slice) : State := s.setSlice i (f (s.slice i))

def State.dom (s : State) (d : Nat) : Dom := KMap.get {} s.doms d
def State.setDom (s : State) (d : Nat) (v : Dom) : State := { s with doms := KMap.put {} s.doms d v }
def State.modDom (s : State) (d : Nat) (f : Dom → Dom) : State := s.setDom d (f (s.dom d))

/-- Whether a power domain is ON. -/
def domainOn (s : State) (d : Nat) : Bool := (s.dom d).state == .on

/-! The image in force. -/

def State.parts (s : State) : List PartEntry :=
  match s.image with
  | some im => im.parts
  | none => []

/-- The PARTITION entry of an archipelago. -/
def partOf (s : State) (a : Nat) : Option PartEntry := s.parts.find? (fun p => p.arch == a)

/-- The isles of an archipelago, in ascending order. -/
def islesOf (s : State) (a : Nat) : List Nat := ((partOf s a).map (fun p => p.isles)).getD []

/-- The archipelago of an isle, or none (R126). -/
def archOf (s : State) (i : Nat) : Option Nat := (s.parts.find? (fun p => p.isles.contains i)).map (fun p => p.arch)

/-- The lowest isle of an archipelago, which its events name (R811). -/
def lowestIsle (s : State) (a : Nat) : Nat := (islesOf s a).headD 0

/-- The binding of a quay (R382). -/
def bindOf (s : State) (q : Nat) : Option QuayBind :=
  match s.image with
  | some im => im.quays.find? (fun b => b.quay == q)
  | none => none

/-! Sequence numbers (R407). -/

/-- Whether a is later than b. -/
def laterSeq (a b : Nat) : Bool :=
  let d := (a + 2 ^ 32 - b % 2 ^ 32) % 2 ^ 32
  0 < d && d < 2 ^ 31

/-! Events (R810 to R821). -/

/-- INFO and WARN codes; FATAL codes; every other code is ERROR (R821). -/
def infoCodes : List Nat := [
  0x0001, 0x0003, 0x0004, 0x0101, 0x0401, 0x0406, 0x0409, 0x0501, 0x0502, 0x0506, 0x0603, 0x0607, 0x060D, 0x0702,
  0x0705, 0x0801, 0x0804, 0x0805, 0x0901, 0x0902, 0x0903, 0x0906, 0x0907, 0x0908, 0x0B01, 0x0B03, 0x0B05, 0x0B20,
  0x0C02, 0x0C03, 0x0D03, 0x0E01, 0x0E02, 0x0E17]
def warnCodes : List Nat := [
  0x0005, 0x0006, 0x0007, 0x0015, 0x0102, 0x0104, 0x0105, 0x0107, 0x0203, 0x0204, 0x0301, 0x0302, 0x0402, 0x0403,
  0x0404, 0x0407, 0x0408, 0x0503, 0x0507, 0x0508, 0x0509, 0x0601, 0x0602, 0x0605, 0x0606, 0x0608, 0x0609, 0x0703,
  0x0707, 0x070A, 0x0802, 0x0803, 0x0806, 0x0807, 0x0904, 0x0909, 0x0A02, 0x0A03, 0x0B04, 0x0B06, 0x0C05, 0x0C06,
  0x0C07, 0x0C08, 0x0E03, 0x0E10, 0x0E16, 0x0F04]
def fatalCodes : List Nat := [0x0002, 0x0505, 0x0604, 0x060C, 0x0701, 0x0A01, 0x0C04]

def severity (code : Nat) : Nat :=
  if infoCodes.contains code then 0
  else if warnCodes.contains code then 1
  else if fatalCodes.contains code then 3
  else 2

/-- The four 64-bit words of an entry (R810). -/
def Entry.words (e : Entry) : List Nat :=
  [e.code + e.sev * 2 ^ 16 + e.unit * 2 ^ 32, e.seq + e.detail % 2 ^ 32 * 2 ^ 32, e.lt, e.fn]

/-- An entry's 32 bytes. -/
def Entry.bytes (e : Entry) : List Nat := (e.words.map (fun w => (leBytes 8 w).map (fun b => b.toNat))).flatten

/-- Four words set in a register of four copies. -/
def State.setWords (s : State) (f : Nat → Field) (ws : List Nat) : State :=
  (ws.zip (List.range ws.length)).foldl (fun t p => t.set (f p.2) p.1) s

/-- An entry put in the ring (R814). -/
def enterRing (e : Entry) (s : State) : State :=
  let old := s.get R.EVT_SEQ_OLDEST_SEQ
  let held := (e.seq + 2 ^ 32 - old) % 2 ^ 32
  let s := s.setWords (fun w => R.EVT_LOG_DATA.at [e.seq % 4096, w]) e.words
  if held < 4096 then s
  else
    let gone := (e.seq + 2 ^ 32 - 4096) % 2 ^ 32
    let s := if laterSeq gone (s.get R.EVT_ACK_ACK_SEQ) then s.bump R.EVT_LOSS_OVERWRITTEN else s
    s.set R.EVT_SEQ_OLDEST_SEQ (gone + 1)

/-- A cooling event, always forwarded (R797). -/
def isCooling (code : Nat) : Bool := code == 0x0608 || code == 0x0609 || code == 0x060A

def setPldm (q : List PldmEvent) (s : State) : State :=
  { s with pldm := q }.set R.PIL_PLDM_QUEUED q.length

/-- The oldest event that is not a cooling event removed, or the oldest of all. -/
def displaceOldest (q : List PldmEvent) : List PldmEvent :=
  match q.find? (fun e => !isCooling e.code) with
  | some e => q.erase e
  | none => q.drop 1

/-- An event taken into the PLDM queue (R799, R800). -/
def pldmPut (e : PldmEvent) (s : State) : State :=
  if !s.flag R.PIL_PLDM_RECEIVER_SET then s
  else if s.pldm.length < 64 then setPldm (s.pldm ++ [e]) s
  else
    let s := s.bump R.PIL_PLDM_FWD_DROPPED
    if isCooling e.code then setPldm (displaceOldest s.pldm ++ [e]) s else s

/-- Forwarding of a raised event (R797, R820). -/
def forwardEvent (e : Entry) (s : State) : State :=
  if isCooling e.code || bit (s.get R.PIL_PLDM_FWD_GROUP_MASK) (e.code / 256) then
    pldmPut ⟨e.code, e.fn, none⟩ s
  else s

/-- The first part of a raise: the sequence number, the fatal copy, persistence and forwarding. -/
def beginEvent (code unit detail : Nat) (s : State) : Entry × State :=
  let seq := s.get R.EVT_SEQ_NEXT_SEQ
  let e : Entry := ⟨code, severity code, unit, seq, detail, s.get R.LHT_LT_LT, s.get R.LHT_FN_FN⟩
  let s := s.set R.EVT_SEQ_NEXT_SEQ (seq + 1)
  let s :=
    if e.sev == 3 && !s.flag R.EVT_STATUS_FATAL_VALID then
      (s.setWords (fun w => R.EVT_FATAL_DATA.at [w]) e.words).setFlag R.EVT_STATUS_FATAL_VALID true
    else s
  let s :=
    if e.sev ≥ s.get R.EVT_CTRL_PERSIST_MIN then { s with log := { s.log with persist := s.log.persist ++ [e] } } else s
  (e, forwardEvent e s)

/-- The freeze: 0x0A02 is raised and entered, and the ring enters nothing more (R815). -/
def freezeRing (s : State) : State :=
  let (e, s) := beginEvent 0x0A02 0xFFFF 0 s
  ({ (enterRing e s) with log := { s.log with freezeLeft := none } }).setFlag R.EVT_STATUS_FROZEN true

/-- What entering an entry does to the freeze (R815). -/
def afterEntry (e : Entry) (s : State) : State :=
  match s.log.freezeLeft with
  | some n => if n ≤ 1 then freezeRing s else { s with log := { s.log with freezeLeft := some (n - 1) } }
  | none =>
    if e.sev == 3 && s.flag R.EVT_CTRL_FREEZE_ON_FATAL then
      let n := s.get R.EVT_CTRL_POST_FATAL
      if n == 0 then freezeRing s else { s with log := { s.log with freezeLeft := some n } }
    else s

/-- An event entered, but for the closing of a record that a FATAL event brings. -/
def enterEvent (code unit detail : Nat) (s : State) : State :=
  let (e, s) := beginEvent code unit detail s
  if s.flag R.EVT_STATUS_FROZEN then s.bump R.EVT_LOSS_LOST
  else if e.sev != 3 && code != 0x0A03 && s.log.frameEntered ≥ 256 then
    { s with log := { s.log with frameOver := s.log.frameOver + 1 } }.bump R.EVT_LOSS_OVERFLOW
  else
    let n := if e.sev == 3 || code == 0x0A03 then s.log.frameEntered else s.log.frameEntered + 1
    afterEntry e { (enterRing e s) with log := { s.log with frameEntered := n } }

/-! The keel queue (R716 to R721). -/

/-- The bytes a record takes in the journal: header, payload, CRC, padded to 32. -/
def KeelRecord.size (r : KeelRecord) : Nat := cdiv (16 + r.payload.length + 4) 32 * 32

def queueBytes (q : List KeelRecord) : Nat := (q.map KeelRecord.size).sum

/-- The newest EVENT record dropped from a queue, or none when it holds no EVENT record; the first `held` are being programmed
and stay. -/
def dropNewestEvent (held : Nat) (q : List KeelRecord) : Option (List KeelRecord) :=
  match (q.drop held).reverse.find? (fun r => r.kind == 6) with
  | some r => some (q.take held ++ ((q.drop held).reverse.erase r).reverse)
  | none => none

/-- Whether an event was raised in this local frame for its unit, and the state that remembers it (R813). -/
def firstInFrame (code unit : Nat) (s : State) : Bool × State :=
  if s.log.once.contains (code, unit) then (false, s)
  else (true, { s with log := { s.log with once := (code, unit) :: s.log.once } })

/-- The event of a dropped EVENT record, once per local frame (R721). -/
def droppedEvent (s : State) : State :=
  let (first, s) := firstInFrame 0x0807 0xFFFF s
  if first then enterEvent 0x0807 0xFFFF 0 s else s

/-- EVENT records dropped, newest first, until the queue holds at most 64 KiB (R721). -/
def fitQueue : Nat → State → State
  | 0, s => s
  | n + 1, s =>
    if queueBytes s.keelQueue ≤ 65536 then s
    else
      match dropNewestEvent (Nat.min 1 s.keel.chunks) s.keelQueue with
      | none => s
      | some q => fitQueue n (droppedEvent ({ s with keelQueue := q }.bump R.KEL_COUNT_DROPPED))

/-- A record takes the next SEQ and waits to be programmed (R717, R721). -/
def keelAppend (kind : Nat) (payload : List Nat) (s : State) : State :=
  let seq := s.get R.KEL_SEQ_NEXT_SEQ
  let r : KeelRecord := ⟨kind, seq, s.keel.boot, payload⟩
  let t : State := { s with keelQueue := s.keelQueue ++ [r] }
  fitQueue t.keelQueue.length (t.set R.KEL_SEQ_NEXT_SEQ (seq + 1))

/-- The persisted entries waiting, as one EVENT record of at most 127 entries (R818, R719). -/
def persistRecord (s : State) : State :=
  let es := s.log.persist.take 127
  if es.isEmpty then s
  else
    let payload := [es.length % 256, es.length / 256, 0, 0] ++ (es.map Entry.bytes).flatten
    keelAppend 6 payload { s with log := { s.log with persist := s.log.persist.drop 127, spacing := true } }

/-- Every persisted entry waiting, in as many records as it takes. -/
def persistAll : Nat → State → State
  | 0, s => s
  | n + 1, s => persistAll n (persistRecord s)

/-- An event takes its SEQ (R812): a FATAL entry closes and queues its record at once, while the journal is mounted (R818). -/
def logEvent (code unit detail : Nat) (s : State) : State :=
  let s := enterEvent code unit detail s
  if severity code == 3 && 3 ≥ s.get R.EVT_CTRL_PERSIST_MIN && s.get R.KEL_STATUS_STATE != 0 then persistAll (s.log.persist.length / 127 + 1) s else s

/-- An event raised: at once, or with the others of a cycle that is being gathered (R812). -/
def raise (code unit detail : Nat) (s : State) : State :=
  match s.log.gathered with
  | some es => { s with log := { s.log with gathered := some (es ++ [(code, unit, detail)]) } }
  | none => logEvent code unit detail s

/-- Raised at most once per local frame for its unit (R813). -/
def raiseOnce (code unit detail : Nat) (s : State) : State :=
  let (first, s) := firstInFrame code unit s
  if first then raise code unit detail s else s

/-- Raised at most once per local frame for the module (R441, R443). -/
def raiseOnceFrame (code unit detail : Nat) (s : State) : State :=
  let (first, s) := firstInFrame code 0xFFFF s
  if first then raise code unit detail s else s

/-- An event put in its place by ascending code, after those of the same code. -/
def insertEvent (e : Nat × Nat × Nat) : List (Nat × Nat × Nat) → List (Nat × Nat × Nat)
  | [] => [e]
  | x :: xs => if e.1 < x.1 then e :: x :: xs else x :: insertEvent e xs

/-- What happens in one cycle: its events take their SEQ together, in ascending code (R812). -/
def inOneCycle (f : State → State) (s : State) : State :=
  match s.log.gathered with
  | some _ => f s
  | none =>
    let s := f { s with log := { s.log with gathered := some [] } }
    let es := (s.log.gathered.getD []).foldl (fun l e => insertEvent e l) []
    es.foldl (fun t e => logEvent e.1 e.2.1 e.2.2 t) { s with log := { s.log with gathered := none } }

/-- No unit named (R810). -/
def noUnit : Nat := 0xFFFF

/-- A pending request of an isle is replaced by none (R135). -/
def forgetRequest (i : Nat) (s : State) : State :=
  { s with requests := s.requests.filter (fun j => j != i) }.set (R.ISL_STATE_REQ_REQ.at [i]) 0

/-! Clock domains, and the isles that octets clock. -/

/-- Clock domains locked, or not (PWR_CLK_LOCK). -/
def setLocks (cs : List Nat) (b : Bool) (s : State) : State :=
  let w := s.get R.PWR_CLK_LOCK_LOCKED
  s.set R.PWR_CLK_LOCK_LOCKED (cs.foldl (fun w c => setBits w c 1 (b2n b)) w)

/-- The physical isle of a logical isle (R15, R604). -/
def physOf (placed : KMap Nat) (i : Nat) : Nat :=
  let q := KMap.get 0 placed i
  i / 64 * 68 + (if q = 0 then i % 64 else 63 + q)

/-- The octet that clocks a logical isle (R643). -/
def octetOf (s : State) (i : Nat) : Nat :=
  let p := physOf s.boot.placed i % 68
  if p < 64 then p / 8 else 2 * (p - 64)

/-- The octets of stack `k` in which an array still ramps down (R635). -/
def rampingOctets (s : State) (k : Nat) : List Nat :=
  ((List.range 64).filter (fun j => (s.isle (64 * k + j)).ramping.isSome)).map (fun j => octetOf s (64 * k + j))

/-! The local frame in cycles. -/

/-- F of the image in force: D_base × C − W_img (R31, R35). -/
def frameCycles (s : State) : Nat :=
  s.get R.LHT_FRAME_CFG_D_BASE * (s.get R.LHT_FRAME_CFG_PERIOD_US * s.get R.PWR_CLK_FREQ_ISLE_MHZ) - s.get R.LHT_SVC_W_IMG

/-- The service window of a frame of `ns` nanoseconds, in isle cycles (R37, R55). -/
def windowCycles (s : State) (ns : Nat) : Nat := ns * s.get R.PWR_CLK_FREQ_ISLE_MHZ / 1000 - frameCycles s

/-- A stack refreshes on its own timer: while no local frames run, and while its isle logic is off (R295, R627). -/
def selfTimed (s : State) (k : Nat) : Bool := !s.frame.running || s.refresh.selfTimed.contains k

/-- The service window is open: cycle F is past, and step 1 of the boundary has not closed it (R22, R23, R50). -/
def windowOpen (s : State) : Bool := s.frame.running && s.frame.window && !s.frame.closed

/-- The cycle at which the boundary reserve of the frame begins (R50). -/
def reserveStart (s : State) : Nat := frameCycles s + windowCycles s s.frame.lengthNs - 256

/-- Whether work of the service window may take `n` cycles from cycle `c` on: all of them lie in the open window, before the
boundary reserve (R49, R50). -/
def windowHolds (s : State) (c n : Nat) : Bool :=
  windowOpen s && decide (frameCycles s ≤ c) && decide (c + n ≤ reserveStart s)

/-! Lagoons. -/

def lagoonKey (i a : Nat) : Nat := i * 2 ^ 20 + a % 2 ^ 20

/-- What an unlisted byte of a lagoon reads as: zero from the fill (R333), or the open byte of a void frame's working
area (R85). -/
def lagoonUnlisted (s : State) (i a : Nat) : Byte :=
  let v := s.isle i
  match v.undefined with
  | some n => if a % 2 ^ 20 ≥ 0x2000 + v.residentBytes then Config.lagoonByte n i (a % 2 ^ 20) else 0#8
  | none => 0#8

/-- A byte as it was last written, whatever has happened to its word since. -/
def lagoonHeld (s : State) (i a : Nat) : Byte := KMap.get (lagoonUnlisted s i a) s.lagoon (lagoonKey i a)

/-! The check of each lagoon word of 8 bytes (R308, R309). -/

/-- Bits set among the lowest `n` of a number. -/
def popCount : Nat → Nat → Nat
  | 0, _ => 0
  | n + 1, w => w % 2 + popCount n (w / 2)

/-- What a read of a lagoon word finds: no error, one that is corrected, or one beyond correction; with the stored bits that
the data delivered still has wrong. -/
inductive LagoonRead where
  | clean (wrong : Nat)
  | corrected (wrong : Nat)
  | bad (wrong : Nat)
  deriving DecidableEq, Repr

/-- The check of R308 on a word of the bits in error: one is corrected, two are detected, and with three or more the outcome is
an open value: clean, one more bit turned, or uncorrectable. -/
def lagoonCheck (word err : Nat) : LagoonRead :=
  match popCount 72 err with
  | 0 => .clean 0
  | 1 => .corrected 0
  | 2 => .bad err
  | _ =>
    match Config.lagoonOutcome word err % 74 with
    | 0 => .clean err
    | 73 => .bad err
    | k => .corrected (err.xor (2 ^ (k - 1)))

/-- The number of the lagoon word that holds an address, over all isles. -/
def lagoonWord (i a : Nat) : Nat := i * 2 ^ 17 + a % 2 ^ 20 / 8

/-- The eight bytes of a word, as last written. -/
def lagoonWordHeld (s : State) (i a : Nat) : Nat :=
  leNat ((List.range 8).map (fun k => lagoonHeld s i (a % 2 ^ 20 / 8 * 8 + k)))

/-- A word as a read of it finds it. -/
def lagoonOutcomeAt (s : State) (i a : Nat) : LagoonRead :=
  match KMap.get 0 s.lagoonErr (lagoonWord i a) with
  | 0 => .clean 0
  | e => lagoonCheck (lagoonWordHeld s i a) e

/-- The bits wrong in what a read delivers. -/
def LagoonRead.wrong : LagoonRead → Nat
  | .clean e => e
  | .corrected e => e
  | .bad e => e

/-- A byte as a read delivers it. -/
def lagoonGet (s : State) (i a : Nat) : Byte :=
  match (lagoonOutcomeAt s i a).wrong with
  | 0 => lagoonHeld s i a
  | e => (lagoonHeld s i a).xor (BitVec.ofNat 8 (bits e (8 * (a % 8)) 8))

/-- Whether an unlisted byte of a lagoon is an open value. -/
def openByte (s : State) (i a : Nat) : Bool :=
  (s.isle i).undefined.isSome && decide (a ≥ 0x2000 + (s.isle i).residentBytes)

/-- A byte written. In a working area that holds undefined bytes every written byte is listed, since what an unlisted one
reads as is open. -/
def lagoonPut (i a : Nat) (v : Byte) (s : State) : State :=
  let k := lagoonKey i a
  if openByte s i (a % 2 ^ 20) then { s with lagoon := KMap.insert k v (KMap.erase s.lagoon k) }
  else { s with lagoon := KMap.put 0#8 s.lagoon k v }

/-- Bytes read from, and written to, rising addresses. -/
def lagoonRead (s : State) (i a n : Nat) : List Nat := (List.range n).map (fun k => (lagoonGet s i (a + k)).toNat)

def putBytes (i : Nat) : Nat → List Nat → State → State
  | _, [], s => s
  | a, b :: bs, s => putBytes i (a + 1) bs (lagoonPut i a (BitVec.ofNat 8 b) s)

/-- The stored bits in error of a word, set. -/
def setLagoonErr (i a e : Nat) (s : State) : State := { s with lagoonErr := KMap.put 0 s.lagoonErr (lagoonWord i a) e }

/-- The check byte as R309 leaves it on an uncorrectable word: a word that keeps two bits in error. -/
def stillBad : Nat := 3 * 2 ^ 64

/-- A word of which a write covers only a part: it is written as it was delivered, and stays uncorrectable if it was (R309). -/
def settleWord (i a : Nat) (s : State) : State :=
  match KMap.get 0 s.lagoonErr (lagoonWord i a) with
  | 0 => s
  | _ =>
    let base := a % 2 ^ 20 / 8 * 8
    let bytes := lagoonRead s i base 8
    match lagoonOutcomeAt s i a with
    | .bad _ => setLagoonErr i a stillBad (putBytes i base bytes s)
    | _ => setLagoonErr i a 0 (putBytes i base bytes s)

/-- The words of a lagoon from one on up to another are free of error; past the last word of the lagoon they go on at its first. -/
def freshWords (i first stop : Nat) (s : State) : State :=
  let b := i * 2 ^ 17
  { s with
    lagoonErr := (s.lagoonErr.dropRange (b + first) (b + Nat.min stop (2 ^ 17))).dropRange b (b + Nat.min (stop - 2 ^ 17) (2 ^ 17)) }

/-- A run written: a word that it covers whole gets a valid check, and the words at its ends that it covers in part are merged
(R118, R309). -/
def lagoonWrite (i a : Nat) (bs : List Nat) (s : State) : State :=
  let n := bs.length
  if n = 0 then s
  else
    let s := if a % 8 = 0 then s else settleWord i a s
    let s := if (a + n) % 8 = 0 then s else settleWord i (a + n - 1) s
    freshWords i ((a % 2 ^ 20 + 7) / 8) ((a % 2 ^ 20 + n) / 8) (putBytes i a bs s)

/-- The words in error of one 64-byte line: how many a read corrects, and how many it finds uncorrectable. -/
def lineErrors (s : State) (i line : Nat) : Nat × Nat :=
  let ws := s.lagoonErr.filter (fun e => e.1 / 8 == i * 2 ^ 14 + line)
  let found := ws.map (fun e => lagoonOutcomeAt s i (e.1 % 2 ^ 17 * 8))
  (found.countP (fun r => match r with
    | .corrected _ => true
    | _ => false),
   found.countP (fun r => match r with
    | .bad _ => true
    | _ => false))

/-- The working area of a lagoon loses its contents (R85): they are an open value from now on. -/
def lagoonForget (i : Nat) (s : State) : State :=
  let (n, s) := s.draw
  let top := 0x2000 + (s.isle i).residentBytes
  let s := { s with
    lagoon := s.lagoon.dropRange (i * 2 ^ 20 + top) ((i + 1) * 2 ^ 20)
    lagoonErr := s.lagoonErr.dropRange (i * 2 ^ 17 + top / 8) ((i + 1) * 2 ^ 17) }
  s.modIsle i (fun v => { v with undefined := some n })

/-- Every word of a lagoon is zero with a valid check (R333, R335). -/
def lagoonFill (i : Nat) (s : State) : State :=
  { s with
    lagoon := s.lagoon.dropRange (i * 2 ^ 20) ((i + 1) * 2 ^ 20)
    lagoonErr := s.lagoonErr.dropRange (i * 2 ^ 17) ((i + 1) * 2 ^ 17) }.modIsle i (fun v => { v with undefined := none })

/-! Detection of uncorrectable foreground reads (R128, R227). -/

/-- An uncorrectable read of an isle, in cycle `c`, raises its archipelago's void line 24 cycles later; of two, the earlier stands
(R128), and of two in one cycle that of the lower isle. -/
def detect (a i c : Nat) (s : State) : State :=
  s.modArch a (fun r =>
    if r.frame == .none_ || r.voidAt.isSome then r
    else
      match r.voidDue with
      | none => { r with voidDue := some (c, i) }
      | some (d, j) => if c < d || (c == d && i < j) then { r with voidDue := some (c, i) } else r)

def detectIf (b : Bool) (a i c : Nat) (s : State) : State := if b then detect a i c s else s

end Sys2Proof.Machine
end

