-- ==== Sys2Proof/Machine/Regfile.lean ====
section
/-!
DEFINITION. Accesses to BAR0 registers by address: which domain holds a field (R853 to R859), who may see it (R383, R421,
R428, R442), what a read returns and clears, and what a write to a field sets (R9 to R12).
-/
namespace Sys2Proof.Machine

/-! Addresses. -/

/-- Where an offset lies among a register's instances, if it is the address of one. -/
def locate : List (Nat × Nat) → Nat → Bool
  | [], d => d == 0
  | (n, stride) :: ds, d => decide (d / stride < n) && locate ds (d % stride)

/-- The register at an address, with its first address moved there. -/
def regAt (a : Nat) : Option Reg :=
  (R.allRows.find? (fun r => decide (r.addr ≤ a) && locate r.dims (a - r.addr))).map (fun r =>
    { r with addr := a, dims := [], fields := r.fields.map (fun f => { f with addr := a, dims := [] }) })

/-- The code of the always-on island among holding domains. -/
def aon : Nat := 18

/-- The holding domain of a field at an address (R853). -/
def holder (a lo : Nat) : Nat :=
  let b := a / 2 ^ 20
  if b = 0 then
    if a = 0 || a = 4 || a = 0x60 || a = 0x90 then aon
    else if a = 8 || a = 0x10 || (decide (0x68 ≤ a) && decide (a < 0x90)) || (decide (0x400 ≤ a) && decide (a < 0x500)) then 0
    else 1
  else if b = 1 then aon
  else if b = 2 then 1
  else if b = 4 then 14 + a % 2 ^ 20 / 2 ^ 18
  else if b = 7 then 17
  else if b = 10 then
    if (decide (0xA00040 ≤ a) && decide (a < 0xA00060)) || (a == 0xA00004 && lo == 1) || (a == 0xA00008 && lo == 0) then aon else 0
  else if b = 12 then if a = R.PIL_WDOG_RESETS.addr then aon else 0
  else if b < 16 then 0
  else if b < 32 then
    if a % 2 ^ 16 = 0 || a % 2 ^ 16 = 4 || a % 2 ^ 16 = 8 then 0 else 2 + (a - 2 ^ 24) / 2 ^ 22
  else if b < 48 then 6 + (a - 2 ^ 25) / 2 ^ 22
  else 6 + (a - 3 * 2 ^ 24) / 2 ^ 20

/-- The pilots, beside the functions 0 to 16, as issuers of requests. -/
def pilots : Nat := 17

/-- Whether a field is reachable: PD1, which the pilots do without, and its holding domain are ON (R855). -/
def reachable (s : State) (f : Field) (func : Nat := 0) : Bool :=
  let d := holder f.addr f.lo
  (func == pilots || domainOn s 1) && (d == aon || domainOn s d)

/-- The state with every field of a domain back at its reset value (R854). -/
def resetDomain (d : Nat) (s : State) : State :=
  { s with regs := s.regs.filter (fun e => holder (e.1 / 64) (e.1 % 64) != d) }

/-! Who sees what. -/

/-- The bollards a function reaches (R421). -/
def reachesBollard (s : State) (func b : Nat) : Bool :=
  func == 0 || (match s.image with
    | some im => im.quays.any (fun q =>
        q.func == func && !q.toHost && decide (q.bolBase ≤ b) && decide (b < q.bolBase + q.bolCount))
    | none => false)

/-- The owner of a waiter slot: a function, or 17 for the pilots (R428). -/
def slotOwner (w : Nat) : Nat := if w < 128 then 0 else if w < 192 then 1 + (w - 128) / 4 else 17

/-- The address of a function's view moved to where the register is held: a virtual function's waiter slots 0 to 3 are slots
128 + 4(f − 1) onwards (R428). -/
def viewAddr (func a : Nat) : Nat :=
  if func != 0 && func != pilots && decide (0x310000 ≤ a) && decide (a < 0x310080) then a + (128 + 4 * (func - 1)) * 32 else a

/-- Whether a function's BAR0 lists an address (R383, R421, R428, R442); the pilots reach every bollard and their own slots (R422,
R428). -/
def listed (s : State) (func a : Nat) : Bool :=
  let b := a / 2 ^ 20
  let pilotSlot := decide (0x310000 + 192 * 32 ≤ a) && decide (a < 0x312000)
  if func = pilots then b == 3 && (decide (a < 0x310000) || pilotSlot || decide (0x320000 ≤ a))
  else if func = 0 then !pilotSlot
  else if b = 0 then a == 0 || a == 4
  else if b = 1 then a == R.LHT_LT_LT.addr || a == R.LHT_FN_FN.addr
  else if b = 2 then
    match bindOf s (a % 2 ^ 20 / 256) with
    | some q => q.func == func
    | none => false
  else if b = 3 then
    if a < 0x310000 then reachesBollard s func ((a - 0x300000) / 16)
    else decide (a < 0x310080)
  else false

/-- Whether a function decodes its BARs: it is present, and not in D3hot (R435, R473, R475). The pilots need PD0 only. -/
def decodes (s : State) (func : Nat) : Bool :=
  if func = pilots then domainOn s 0 else domainOn s 1 && decide (func ≤ s.hif.vfs) && !s.hif.d3hot.contains func

/-- A BAR0 request of a function takes effect: at once, or, for the physical function, after the requests held before it (R444) and
the BAR2 writes of the tags `writes` that came before it (R424). -/
def ordered (func : Nat) (writes : List Nat) (cmd : Instr) (now : State → State) (s : State) : State :=
  if func = 0 && decodes s 0 && (!writes.isEmpty || !s.hif.held.isEmpty) then
    { s with hif := { s.hif with held := s.hif.held ++ [⟨cmd, writes⟩] } }
  else now s

/-! Reads. -/

/-- Whether a read of a field returns its shadow: while local frames run, what of PWR the module alone sets and is no live state. -/
def isShadowed (s : State) (f : Field) : Bool :=
  s.frame.running && f.addr / 2 ^ 20 == 5 && f.acc == .ro && f.addr != R.PWR_STATE_STATE_PD0.addr
    && f.addr != R.PWR_CLK_LOCK_LOCKED.addr

/-- A field as a read finds it. -/
def fieldRead (s : State) (f : Field) : Nat := if isShadowed s f then KMap.get f.reset s.pwrShadow f.key else s.get f

/-- What a register reads as: its fields in their places, WO fields and fields out of reach as 0. -/
def regValue (s : State) (r : Reg) (func : Nat := 0) : Nat :=
  (r.fields.map (fun f => if f.acc == .wo || !reachable s f func then 0 else fieldRead s f * 2 ^ f.lo)).sum

/-- The value an RC field restarts at (R9): 0, but the live voltage for a rail's extremes. -/
def restartAt (s : State) (f : Field) : Nat :=
  if decide (0x400 ≤ f.addr) && decide (f.addr < 0x500) then s.get { R.GLB_RAIL_MV with addr := f.addr, dims := [] } else 0

/-- A full-width read's side effect: reachable RC fields restart (R9, R855). -/
def clearRead (r : Reg) (s : State) (func : Nat := 0) : State :=
  r.fields.foldl (fun t f => if f.acc == .rc && reachable s f func then t.set f (restartAt s f) else t) s

/-- ISL_STATE as read: the copy, STALE and REQ_PENDING (R137). -/
def isleStateWord (s : State) (i : Nat) : Nat :=
  let pend := s.get (R.ISL_STATE_REQ_REQ.at [i]) != 0
  let stale := pend || s.get (R.ISL_STATE_EPOCH.at [i]) != s.get (R.ISL_EPOCH_LIVE_EPOCH.at [i])
  s.get (R.ISL_STATE_STATE.at [i]) + b2n stale * 8 + b2n pend * 16 + s.get (R.ISL_STATE_ARCH.at [i]) * 32 +
    s.get (R.ISL_STATE_ASSIGNED.at [i]) * 1024 + s.get (R.ISL_STATE_EPOCH.at [i]) * 65536

/-- A full read of ISL_STATE: what it returns, and the event of a stale copy (R137, R138). -/
def readIsleState (i : Nat) (s : State) : Nat × State :=
  let w := isleStateWord s i
  (w, if bit w 3 then raiseOnce 0x0D03 i 0 s else s)

/-! Writes. -/

/-- Fields whose write is a command of its own: a register write does not touch them. -/
def ownKeys : List (Nat × Nat) :=
  [R.GLB_HOSTVIEW_VIEW, R.GLB_BAR2_WINDOW_OFFSET_GIB, R.GLB_CRESET_START, R.GLB_MRESET_KEY, R.GLB_MRESET_GO,
    R.DMA_CTRL_ENABLE, R.DMA_PROD_PI, R.DMA_STATUS_HALTED, R.LHT_CTRL_ENABLE, R.LHT_CTRL_LOCK, R.LHT_DPOLICY_D_MIN,
    R.LHT_DPOLICY_D_MAX, R.QUA_CTRL_ENABLE, R.QUA_PROD_PI, R.QUA_CONS_CI, R.BOL_ADD_DELTA, R.BOL_WAIT_CTRL_ARM,
    R.HAR_CTRL_ENABLE, R.HAR_CTRL_RETRAIN, R.HAR_STATUS_QUARANTINED, R.PWR_REQ_TARGET, R.PWR_CAP_HOST_CAP_W,
    R.THM_CTRL_LOCK, R.THM_THRESH_LOGIC_WARN_C, R.THM_THRESH_LOGIC_THROT_C, R.THM_THRESH_DRAM_WARN_C,
    R.THM_THRESH_DRAM_THROT_C, R.THM_SHUTDOWN_LATCHED, R.FAC_STOP_STOP_LATCHED, R.FAC_STOP_CHANNEL_FAULT,
    R.FAC_SWO1_CTRL_CMD, R.FAC_SWO2_CTRL_CMD, R.FAC_SWO1_CTRL_BACKFEED, R.FAC_SWO2_CTRL_BACKFEED, R.FAC_LOOP_CTRL_CMD_UA,
    R.KEL_CMD_OP, R.CKP_CTRL_ENABLE, R.CKP_CTRL_REQUEST, R.CKP_CTRL_CLEAR_MAPS, R.CKP_CTRL_REFUGE_RESET,
    R.CKP_RESTORE_START, R.EVT_CTRL_UNFREEZE, R.EVT_STATUS_FATAL_VALID, R.FRV_IMG_CMD_START, R.FRV_IMG_CMD_CANCEL,
    R.FRV_KEY_REVOKE_REVOKE, R.FRV_SCHED_CMD_START, R.PIL_MBX_CMD_START, R.PIL_CTRL_LOCK, R.ISL_STATE_REQ_REQ,
    R.SLC_KEY_CMD_OP, R.SLC_FLIP_CTRL_ARM, R.NBU_HCMD_START].map (fun f => (f.addr, f.lo))

/-- The address a field's first copy has, within its block. -/
def firstAddr (a : Nat) : Nat :=
  let b := a / 2 ^ 20
  if b = 0 && decide (0x100 ≤ a) && decide (a < 0x300) then 0x100 + a % 0x40
  else if b = 2 then 0x200000 + a % 256
  else if b = 3 then
    if a < 0x310000 then 0x300000 + a % 16 else if a < 0x320000 then 0x310000 + a % 32 else a
  else if b = 4 then 0x400000 + a % 2 ^ 16
  else if b < 16 then a
  else if b < 48 then b / 16 * 2 ^ 24 + a % 2 ^ 16
  else 3 * 2 ^ 24 + a % 2 ^ 13

/-- Whether a field has a command of its own. -/
def ownRow (f : Field) : Bool := ownKeys.contains (firstAddr f.addr, f.lo)

/-- The LOCK bit of a block (R858). -/
def blockLocked (s : State) (a : Nat) : Bool :=
  let b := a / 2 ^ 20
  if b = 1 then s.flag R.LHT_CTRL_LOCK else if b = 6 then s.flag R.THM_CTRL_LOCK else if b = 12 then s.flag R.PIL_CTRL_LOCK
  else false

/-- Whether the conditions of a field's chapter let a function set it now: quays by owner and while disabled (R382, R383,
R411), DMA rings while disabled (R457), waiter slots by owner and while disarmed (R428, R429), the flip mask while not
armed (R346), and the refuge while checkpoints are disabled. -/
def writable (s : State) (func : Nat) (f : Field) : Bool :=
  let b := f.addr / 2 ^ 20
  let first := firstAddr f.addr
  if b = 0 && (first == R.DMA_RING_BASE_ADDR.addr || (first == R.DMA_CTRL_SIZE_LOG2.addr && f.lo == R.DMA_CTRL_SIZE_LOG2.lo)) then
    !s.flag (R.DMA_CTRL_ENABLE.at [(f.addr - 0x100) / 0x40])
  else if b = 2 then
    let q := f.addr % 2 ^ 20 / 256
    let config := first == R.QUA_RING_BASE_ADDR.addr || first == R.QUA_SEQ_START_START.addr ||
      (first == R.QUA_CTRL_LOC.addr && (f.lo == R.QUA_CTRL_LOC.lo || f.lo == R.QUA_CTRL_SIZE_LOG2.lo))
    match bindOf s q with
    | some bind => bind.func == func && (!config || !s.flag (R.QUA_CTRL_ENABLE.at [q]))
    | none => first == R.QUA_NOTICE_VECTOR.addr && func == 0
  else if b = 3 && decide (0x310000 ≤ f.addr) && decide (f.addr < 0x320000) then
    let w := (f.addr - 0x310000) / 32
    slotOwner w == func && (f.acc == .w1c || !s.flag (R.BOL_WAIT_CTRL_ARM.at [w]))
  else if first == R.SLC_FLIP_ADDR_ADDR_XOR.addr || (decide (0x2000300 ≤ first) && decide (first < 0x2000324)) then
    !s.flag (R.SLC_FLIP_CTRL_ARM.at [(f.addr - 2 ^ 25) / 2 ^ 16])
  else if b = 9 && f.addr == R.CKP_REFUGE_BASE_64K.addr then !s.flag R.CKP_CTRL_ENABLE
  else true

/-- One field written, by its access code (R9). -/
def writeField (s : State) (func : Nat) (f : Field) (v : Nat) : State :=
  if !reachable s f func || !writable s func f then s
  else
    match f.acc with
    | .rw => s.set f v
    | .rwl => if blockLocked s f.addr then s else s.set f v
    | .wo => s.set f v
    | .w1c => s.set f (s.get f - (s.get f).land v)
    | .w1s => s.set f ((s.get f).lor v)
    | .ro => s
    | .rc => s

/-- A register written whole: its fields that have no command of their own. -/
def writeReg (s : State) (func : Nat) (r : Reg) (v : Nat) : State :=
  r.fields.foldl (fun t f => if ownRow f then t else writeField t func f (bits v f.lo f.width)) s

/-- The other fields of a register that a command writes. -/
def writeRest (func a v : Nat) (s : State) : State :=
  match regAt a with
  | some r => writeReg s func r v
  | none => s

end Sys2Proof.Machine
end

