-- ==== Sys2Proof/Machine/Bollards.lean ====
section
/-!
DEFINITION. MSI-X messages (R440, R441), bollards and waiter slots (R415 to R434).
-/
namespace Sys2Proof.Machine

/-! MSI-X. -/

/-- Vectors of a function (R439). -/
def vectorCount (func : Nat) : Nat := if func = 0 then 1024 else 64

/-- A word of a function's MSI-X table: message address, upper address, data and vector control, which resets masked. -/
def msixWord (s : State) (func v w : Nat) : Nat :=
  KMap.get (if w = 3 then 1 else 0) s.hif.msix (func * 4096 + v * 4 + w)

def setMsixWord (func v w x : Nat) (s : State) : State :=
  { s with hif := { s.hif with
      msix := KMap.put (if w = 3 then 1 else 0) s.hif.msix (func * 4096 + v * 4 + w) (x % 2 ^ 32) } }

def setMsixPending (func v : Nat) (b : Bool) (s : State) : State :=
  { s with hif := { s.hif with msixPending := KMap.put 0 s.hif.msixPending (func * 1024 + v) (b2n b) } }

def msixMessage (func v : Nat) (s : State) : State :=
  s.emit (.msix func v (msixWord s func v 0 + msixWord s func v 1 * 2 ^ 32) (msixWord s func v 2))

/-- A notice on a vector: sent, held pending while the vector is masked, or counted when the function has no such vector
(R441). -/
def notify (func v : Nat) (s : State) : State :=
  if v ≥ vectorCount func then raiseOnceFrame 0x0017 func 0 (s.bump R.GLB_HIF_ERR_VEC_ERR)
  else if bit (msixWord s func v 3) 0 then setMsixPending func v true s
  else msixMessage func v s

/-- A write to an MSI-X table word; unmasking a vector sends the message it held. -/
def writeMsix (func v w x : Nat) (s : State) : State :=
  let s := setMsixWord func v w x s
  if w = 3 && !bit x 0 && KMap.get 0 s.hif.msixPending (func * 1024 + v) == 1 then
    msixMessage func v (setMsixPending func v false s)
  else s

/-- A function's MSI-X table and pending bits cleared (R472). -/
def clearMsix (func : Nat) (s : State) : State :=
  { s with hif := { s.hif with
      msix := s.hif.msix.dropRange (func * 4096) ((func + 1) * 4096)
      msixPending := s.hif.msixPending.dropRange (func * 1024) ((func + 1) * 1024) } }

/-! Bollards. -/

def bollard (s : State) (b : Nat) : Nat := s.get (R.BOL_VALUE_VALUE.at [b])

def setBollard (b v : Nat) (s : State) : State := s.set (R.BOL_VALUE_VALUE.at [b]) v

/-- ADD (R416 to R418). -/
def bolAdd (b : Nat) (delta : Int) (s : State) : State :=
  if delta = 0 then s
  else
    let exact : Int := (bollard s b : Int) + delta
    let held := clampInt 0 ((2 ^ 32 - 1 : Nat) : Int) exact
    let s := setBollard b held.toNat s
    if held = exact then s
    else raiseOnce 0x0301 b 0 ((s.bump R.BOL_STATUS_SAT_COUNT).set R.BOL_STATUS_SAT_LAST b)

/-! Waiter slots. -/

/-- A slot's message to its owner. -/
def waiterNotice (w : Nat) (s : State) : State :=
  let o := slotOwner w
  if o = pilots then s.emit (.pilotNotice w) else notify o (s.get (R.BOL_WAIT_CTRL_VECTOR.at [w])) s

/-- A slot disarmed: it sends nothing (R433). -/
def disarm (w : Nat) (s : State) : State := s.set (R.BOL_WAIT_CTRL_ARM.at [w]) 0

/-- A slot that fires (R430). -/
def fireWaiter (w : Nat) (s : State) : State :=
  let b := s.get (R.BOL_WAIT_CTRL_BOLLARD.at [w])
  let v := bollard s b
  let s := if s.flag (R.BOL_WAIT_CTRL_CONSUME.at [w]) then
    setBollard b (v - s.get (R.BOL_WAIT_THRESH_THRESHOLD.at [w])) s else s
  let s := (s.set (R.BOL_WAIT_RESULT_VALUE.at [w]) v).set (R.BOL_WAIT_RESULT_FN.at [w]) (s.get R.LHT_FN_FN)
  waiterNotice w ((disarm w s).set (R.BOL_WAIT_CTRL_FIRED.at [w]) 1)

/-- The evaluation at the end of a cycle of one slot, if it was armed in the cycle or watches one of the bollards raised in it
(R430). -/
def evalWaiter (raised arms : List Nat) (s : State) (w : Nat) : State :=
  let b := s.get (R.BOL_WAIT_CTRL_BOLLARD.at [w])
  if s.flag (R.BOL_WAIT_CTRL_ARM.at [w]) && (raised.contains b || arms.contains w)
      && decide (s.get (R.BOL_WAIT_THRESH_THRESHOLD.at [w]) ≤ bollard s b) then fireWaiter w s
  else s

/-- The slots that the cycle concerns, in ascending order (R431). -/
def evalWaiters (raised arms : List Nat) (s : State) : State :=
  if raised.isEmpty && arms.isEmpty then s else (List.range 256).foldl (evalWaiter raised arms) s

/-! One isle cycle of the bollard engine (R423). -/

/-- An operation applied (R416): the bollards raised so far in the cycle, and the state; a TAS answers the value before it. -/
def applyOp (acc : List Nat × State) (o : BolOp) : List Nat × State :=
  let (raised, s) := acc
  let v := bollard s o.bollard
  match o.delta with
  | some d =>
    let t := bolAdd o.bollard d s
    (if v < bollard t o.bollard then o.bollard :: raised else raised, t)
  | none =>
    (if v = 0 then o.bollard :: raised else raised, (if v = 0 then setBollard o.bollard 1 s else s).emit (.value v))

/-- An operation put in its place: by its group, a quay's by its number, and behind those that came before it. -/
def insertOp (o : BolOp) : List BolOp → List BolOp
  | [] => [o]
  | x :: xs => if o.rank < x.rank then o :: x :: xs else x :: insertOp o xs

/-- The ranks of the groups 3 to 5 of R423. -/
def quayRank (q : Nat) : Nat := q
def hostRank : Nat := 64
def pilotRank : Nat := 65

/-- The cycle closes: what groups 1 and 2 do, then the operations of groups 3 to 5, then the waiter slots, once (R423, R430). -/
def closeCycle (ops : List BolOp) (first : State → List Nat × State) (s : State) : State :=
  let (raised, t) := ops.foldl applyOp (first s)
  evalWaiters raised s.cycleArms { t with cycleOps := [], cycleArms := [] }

/-- An operation of the cycle; `more` when others of the same cycle follow it. -/
def cycleOp (o : BolOp) (more : Bool) (s : State) : State :=
  let ops := insertOp o s.cycleOps
  if more then { s with cycleOps := ops } else closeCycle ops (fun t => ([], t)) s

/-! Commands. -/

/-- The tags of BAR2 writes received and not yet readable in a slice (R424). -/
def pendingBar2Writes (s : State) : List Nat :=
  (s.slices.map (fun e => e.2.hostq.filterMap (fun a =>
    match a.src with
    | .bar2 t _ => if a.write then some t else none
    | _ => none))).flatten

/-- The BAR2 writes a bollard operation of a function waits for: only the physical function has any. -/
def writesBefore (who : Nat) (s : State) : List Nat := if who = 0 then pendingBar2Writes s else []

/-- Whether an access to a bollard's registers reaches it (R421, R422, R475, R855). -/
def bollardReached (s : State) (who b : Nat) : Bool :=
  domainOn s 0 && decide (b < 4096) && decodes s who && (who == pilots || reachesBollard s who b)

/-- The place in its cycle of an operation of a function or a pilot. -/
def issuerRank (who : Nat) : Nat := if who = pilots then pilotRank else hostRank

/-- A signed 32-bit delta written to BOL_ADD (R417). -/
def bollardAdd (who b delta : Nat) (more : Bool) (s : State) : State :=
  if bollardReached s who b then cycleOp ⟨issuerRank who, b, some (toSigned 32 delta)⟩ more s else s

/-- BOLLARD_ADD: by a function or a pilot; `more` operations of the same cycle may follow. -/
def execBollardAdd (r : InCycle) (b delta : Nat) (s : State) : Result :=
  .next (ordered r.who (writesBefore r.who s) (.bollardAdd r b delta) (bollardAdd r.who b delta r.more) s)

/-- Whether a slot's owner may watch a bollard (R429). -/
def mayWatch (s : State) (w b : Nat) : Bool := slotOwner w == pilots || reachesBollard s (slotOwner w) b

/-- Whether a writer reaches a waiter slot: its owner, through a function that decodes its BAR0. -/
def slotReached (s : State) (who w : Nat) : Bool :=
  domainOn s 0 && slotOwner w == who && decide (w < 256) && decodes s who

/-- The configuration fields of BOL_WAIT_CTRL, from the word written. -/
def waiterConfig (w ctrl : Nat) (s : State) : State :=
  ((s.set (R.BOL_WAIT_CTRL_BOLLARD.at [w]) (bits ctrl 0 12)).set (R.BOL_WAIT_CTRL_CONSUME.at [w]) (bits ctrl 12 1)).set
    (R.BOL_WAIT_CTRL_VECTOR.at [w]) (bits ctrl 21 11)

/-- The write-1-to-clear bits of BOL_WAIT_CTRL. -/
def waiterFlags (w ctrl : Nat) (s : State) : State :=
  let clear := fun (f : Field) (k : Nat) (t : State) => if bit ctrl k then t.set (f.at [w]) 0 else t
  clear R.BOL_WAIT_CTRL_ARM_ERR 16 (clear R.BOL_WAIT_CTRL_TIMED_OUT 15 (clear R.BOL_WAIT_CTRL_FIRED 14 s))

/-- BOL_WAIT_CTRL written with ARM = 1. -/
def waiterArm (who w ctrl : Nat) (s : State) : State :=
  if !slotReached s who w then s
  else
    let s := waiterFlags w ctrl s
    if s.flag (R.BOL_WAIT_CTRL_ARM.at [w]) then s
    else
      let s := waiterConfig w ctrl s
      if s.get (R.BOL_WAIT_THRESH_THRESHOLD.at [w]) = 0 || !mayWatch s w (bits ctrl 0 12) then
        s.set (R.BOL_WAIT_CTRL_ARM_ERR.at [w]) 1
      else
        let s := s.set (R.BOL_WAIT_CTRL_ARM.at [w]) 1
        if s.cycleOps.isEmpty then evalWaiter [] [w] s w else { s with cycleArms := w :: s.cycleArms }

/-- WAITER_ARM (R429): the slot is evaluated at the end of the cycle, which is at once where no operation of the cycle waits. -/
def execWaiterArm (who w ctrl : Nat) (s : State) : Result :=
  .next (ordered who [] (.waiterArm who w ctrl) (waiterArm who w ctrl) s)

/-- BOL_WAIT_CTRL written with ARM = 0: an armed slot is disarmed and keeps its configuration. -/
def waiterDisarm (who w ctrl : Nat) (s : State) : State :=
  if !slotReached s who w then s
  else
    let s := waiterFlags w ctrl s
    if s.flag (R.BOL_WAIT_CTRL_ARM.at [w]) then disarm w s else waiterConfig w ctrl s

/-- WAITER_DISARM (R429, R433). -/
def execWaiterDisarm (who w ctrl : Nat) (s : State) : Result :=
  .next (ordered who [] (.waiterDisarm who w ctrl) (waiterDisarm who w ctrl) s)

/-- WAITER_TIMEOUT: TIMEOUT_US have passed since the slot was armed (R432). -/
def execWaiterTimeout (w : Nat) (s : State) : Result :=
  .next (
    if s.flag (R.BOL_WAIT_CTRL_ARM.at [w]) && s.get (R.BOL_WAIT_TIMEOUT_TIMEOUT_US.at [w]) != 0 then
      raise 0x0302 w 0 (waiterNotice w ((disarm w s).set (R.BOL_WAIT_CTRL_TIMED_OUT.at [w]) 1))
    else s)

end Sys2Proof.Machine
end

