-- ==== Sys2Proof/Machine/Code.lean ====
section
/-!
DEFINITION. The address-folded symbol code of stored words (R302 to R306, R340).
Symbols are bytes of GF(2⁸) on x⁸ + x⁴ + x³ + x² + 1, held as natural numbers below 256.
-/
namespace Sys2Proof.Machine

/-- Multiplication by α = 0x02. -/
def gfDouble (a : Nat) : Nat := let d := 2 * a; if d ≥ 256 then d.xor 0x11D else d

def gfMulFrom : Nat → Nat → Nat → Nat
  | 0, _, _ => 0
  | k + 1, a, b => (if b % 2 = 1 then a else 0).xor (gfMulFrom k (gfDouble a) (b / 2))

def gfMul (a b : Nat) : Nat := gfMulFrom 8 a b

/-- α to a power. -/
def gfAlpha : Nat → Nat
  | 0 => 1
  | n + 1 => gfDouble (gfAlpha n)

def gfPow (a : Nat) : Nat → Nat
  | 0 => 1
  | n + 1 => gfMul a (gfPow a n)

/-- The inverse, a^254. -/
def gfInv (a : Nat) : Nat :=
  let a2 := gfMul a a
  let a4 := gfMul a2 a2
  let a8 := gfMul a4 a4
  let a16 := gfMul a8 a8
  let a32 := gfMul a16 a16
  let a64 := gfMul a32 a32
  let a128 := gfMul a64 a64
  gfMul a128 (gfMul a64 (gfMul a32 (gfMul a16 (gfMul a8 (gfMul a4 a2)))))

/-- Σ v_i × x_i over symbols and locators, Horner-free: one syndrome. -/
def gfDot : List Nat → List Nat → Nat
  | v :: vs, x :: xs => (gfMul v x).xor (gfDot vs xs)
  | _, _ => 0

/-- The four folded address symbols of a slice offset (R303). -/
def foldedAddress (o : Nat) : List Nat := [bits o 0 8, bits o 8 8, bits o 16 8, bits o 24 5]

def symbolPositions : List Nat := List.range 40

/-- S_j of R304 for 40 symbols. -/
def syndrome (v : List Nat) (j : Nat) : Nat := gfDot v (symbolPositions.map (fun i => gfAlpha (i * j % 255)))

/-- The four syndromes. -/
def syndromes (v : List Nat) : List Nat := [syndrome v 0, syndrome v 1, syndrome v 2, syndrome v 3]

/-- The coefficients, lowest first, of the product of (x − X) over the locators given. -/
def locatorPoly : List Nat → List Nat
  | [] => [1]
  | x :: xs =>
    let p := locatorPoly xs
    let shifted := 0 :: p
    let scaled := p.map (gfMul x) ++ [0]
    List.zipWith (fun a b => Nat.xor a b) shifted scaled

/-- The symbol values at the named positions that give the syndromes listed (as many as there are positions). -/
def solvePositions (ps : List Nat) (s : List Nat) : List Nat :=
  ps.map (fun p =>
    let others := (ps.filter (fun q => q != p)).map gfAlpha
    let poly := locatorPoly others
    let x := gfAlpha p
    let at_x := gfDot poly ((List.range poly.length).map (gfPow x))
    gfMul (gfDot poly s) (gfInv at_x))

/-- C0 to C3 for 32 data bytes at a slice offset (R304). -/
def checkBytes (data : List Nat) (o : Nat) : List Nat :=
  solvePositions [32, 33, 34, 35] (syndromes (data ++ [0, 0, 0, 0] ++ foldedAddress o))

/-- The 36 stored bytes of a word. -/
def encodeWord (data : List Nat) (o : Nat) : List Nat := data ++ checkBytes data o

/-- Check bytes inverted (R340). -/
def invertChecks (w : List Nat) : List Nat := w.take 32 ++ (w.drop 32).map (Nat.xor 0xFF)

/-- A word stored poisoned at an offset. -/
def poisonWord (data : List Nat) (o : Nat) : List Nat := invertChecks (encodeWord data o)

/-- The outcomes of a read (R305). -/
inductive ReadClass where
  | clean
  | poisoned
  | corrected (pos : Nat)
  | address
  | data
  | noKey
  deriving DecidableEq, Repr

/-- The syndromes of a word whose check bytes are inverted. -/
def poisonSyndromes : List Nat :=
  syndromes (List.replicate 32 0 ++ [0xFF, 0xFF, 0xFF, 0xFF] ++ [0, 0, 0, 0])

/-- Whether the syndromes are those of errors at positions 36 to 38 alone (R305, step 4). -/
def addressError (s : List Nat) : Bool :=
  let ps := [36, 37, 38]
  let e := solvePositions ps (s.take 3)
  gfDot e (ps.map (fun p => gfPow (gfAlpha p) 3)) == nth s 3 0

/-- The first position up to `n − 1` whose locator is `x`. -/
def findLocator (x : Nat) (n : Nat) : Option Nat := (List.range n).find? (fun p => gfAlpha p == x)

/-- The outcome for 36 stored bytes read at an offset, and the 32 data bytes delivered (R305). -/
def decodeWord (stored : List Nat) (o : Nat) : ReadClass × List Nat :=
  let s := syndromes (stored ++ foldedAddress o)
  let s0 := nth s 0 0
  let s1 := nth s 1 0
  let s2 := nth s 2 0
  let s3 := nth s 3 0
  if s == [0, 0, 0, 0] then (.clean, stored.take 32)
  else if s == poisonSyndromes then (.poisoned, stored.take 32)
  else
    let single :=
      if s0 != 0 && gfMul s1 s1 == gfMul s0 s2 && gfMul s2 s2 == gfMul s1 s3 then
        findLocator (gfMul s1 (gfInv s0)) 36
      else none
    match single with
    | some p => (.corrected p, (setNth stored p ((nth stored p 0).xor s0)).take 32)
    | none => (if addressError s then .address else .data, stored.take 32)

/-- Whether an outcome is uncorrectable for a reader, in ECC mode STRICT or CORRECT (R316, R341). -/
def ReadClass.bad (strict : Bool) : ReadClass → Bool
  | .clean => false
  | .corrected _ => strict
  | _ => true

/-- What SEC-DED finds in a 72-bit lagoon word (R308). -/
inductive SecDed where
  | clean
  | corrected
  | uncorrectable
  deriving DecidableEq, Repr

end Sys2Proof.Machine
end

