-- ==== Sys2Proof/Machine/Crypto.lean ====
section
/-!
DEFINITION. The published algorithms the spec names: SHA-256 (FIPS 180-4), AES-256 and XTS (FIPS 197,
IEEE Std 1619; R319, R320), and ECDSA verification on P-256 (FIPS 186-5).
-/
namespace Sys2Proof.Machine

/-! SHA-256, from its recurrences: two running words A and E, each of which looks back four rounds, over message words that look
back sixteen. Its constants are the first 32 fraction bits of roots of the primes below 312. -/

def m32 (n : Nat) : Nat := n % 2 ^ 32
def rotr32 (n k : Nat) : Nat := m32 (n / 2 ^ k + n * 2 ^ (32 - k))

/-- The largest x below y + 2 ^ n, at or above y, with x ^ e at most z. -/
def rootFrom (e z : Nat) : Nat → Nat → Nat
  | 0, y => y
  | n + 1, y => rootFrom e z n (if (y + 2 ^ n) ^ e ≤ z then y + 2 ^ n else y)

/-- The first 32 fraction bits of the `e`-th root of a number below 2 ^ 10. -/
def rootFraction (e p : Nat) : Nat := m32 (rootFrom e (p * 2 ^ (32 * e)) 37 0)

def isPrime (p : Nat) : Bool := decide (2 ≤ p) && (List.range 18).all (fun d => decide (d < 2) || d == p || p % d != 0)

def shaPrimes : List Nat := (List.range 312).filter isPrime

/-- The exclusive or of a word's rotations, and of its shift right by `s` places. -/
def rotations (ks : List Nat) (x : Nat) : Nat := ks.foldl (fun v k => v.xor (rotr32 x k)) 0
def rotationsAndShift (ks : List Nat) (s x : Nat) : Nat := (rotations ks x).xor (x / 2 ^ s)

/-- A hash under way: the last four values of A and of E, newest first, and the next sixteen message words. -/
structure Hash where
  a : List Nat
  e : List Nat
  w : List Nat
  deriving DecidableEq, Repr

/-- A round, with its constant. -/
def Hash.round (h : Hash) (k : Nat) : Hash :=
  let (a, e, w) := (fun n => nth h.a n 0, fun n => nth h.e n 0, fun n => nth h.w n 0)
  let pick := (e 2).xor ((e 0).land ((e 1).xor (e 2)))
  let most := ((a 0).land (a 1)).xor ((a 2).land ((a 0).xor (a 1)))
  let t := e 3 + rotations [6, 11, 25] (e 0) + pick + k + w 0
  let next := w 0 + rotationsAndShift [7, 18] 3 (w 1) + w 9 + rotationsAndShift [17, 19] 10 (w 14)
  { a := m32 (t + rotations [2, 13, 22] (a 0) + most) :: h.a.take 3
    e := m32 (a 3 + t) :: h.e.take 3
    w := h.w.drop 1 ++ [m32 next] }

/-- The bytes of a message in blocks of 64, as 16 big-endian words each: the message, a one bit, zeros, and its length in bits. -/
def hashBlocks (msg : List Byte) : List (List Nat) :=
  let n := (msg.length + 72) / 64
  let tail := (leBytes (64 * n - msg.length) (8 * msg.length + 2 ^ (8 * (64 * n - msg.length) - 1))).reverse
  let bytes := (msg ++ tail).map (fun b => b.toNat)
  (List.range n).map (fun b => (List.range 16).map (fun k =>
    ((bytes.drop (64 * b + 4 * k)).take 4).foldl (fun v x => 256 * v + x) 0))

/-- The eight words of the hash after one more block. -/
def hashBlock (v : List Nat) (block : List Nat) : List Nat :=
  let h := (shaPrimes.map (rootFraction 3)).foldl Hash.round ⟨v.take 4, v.drop 4, block⟩
  List.zipWith (fun x y => m32 (x + y)) v (h.a ++ h.e)

/-- SHA-256 of a byte string, as a 256-bit big-endian number. -/
def sha256 (msg : List Byte) : Nat :=
  ((hashBlocks msg).foldl hashBlock ((shaPrimes.take 8).map (rootFraction 2))).foldl (fun v w => v * 2 ^ 32 + w) 0

/-- The 32 bytes of a digest, in the order a message carries them. -/
def digestBytes (d : Nat) : List Byte := (leBytes 32 d).reverse

/-! AES-256 in the byte field on x⁸ + x⁴ + x³ + x + 1. -/

def aesDouble (a : Nat) : Nat := let d := 2 * a; if d ≥ 256 then d.xor 0x11B else d

def aesMulFrom : Nat → Nat → Nat → Nat
  | 0, _, _ => 0
  | k + 1, a, b => (if b % 2 = 1 then a else 0).xor (aesMulFrom k (aesDouble a) (b / 2))

def aesMul (a b : Nat) : Nat := aesMulFrom 8 a b

def aesPow (a : Nat) : Nat → Nat
  | 0 => 1
  | n + 1 => aesMul a (aesPow a n)

def rotl8 (a k : Nat) : Nat := (a * 2 ^ k + a / 2 ^ (8 - k)) % 256

def aesSub (a : Nat) : Nat :=
  let b := aesPow a 254
  ((((b.xor (rotl8 b 1)).xor (rotl8 b 2)).xor (rotl8 b 3)).xor (rotl8 b 4)).xor 0x63

def aesSubInv (a : Nat) : Nat :=
  let b := ((rotl8 a 1).xor (rotl8 a 3)).xor (rotl8 a 6)
  aesPow (b.xor 0x05) 254

def xorBytes (a b : List Nat) : List Nat := List.zipWith (fun x y => Nat.xor x y) a b

/-- The expanded key, newest four-byte word first, extended by `n` words from word index `i`. -/
def aesExpand : Nat → Nat → Nat → List (List Nat) → List (List Nat)
  | 0, _, _, w => w
  | n + 1, i, rcon, w =>
    let prev := nth w 0 []
    let t :=
      if i % 8 = 0 then
        match prev with
        | [a, b, c, d] => [(aesSub b).xor rcon, aesSub c, aesSub d, aesSub a]
        | x => x
      else if i % 8 = 4 then prev.map aesSub
      else prev
    aesExpand n (i + 1) (if i % 8 = 0 then aesDouble rcon else rcon) (xorBytes (nth w 7 []) t :: w)

def chunk : Nat → Nat → List Nat → List (List Nat)
  | 0, _, _ => []
  | k + 1, n, l => l.take n :: chunk k n (l.drop n)

/-- The fifteen round keys of a 32-byte key. -/
def aesRoundKeys (key : List Nat) : List (List Nat) :=
  let ws := (aesExpand 52 8 1 (chunk 8 4 key).reverse).reverse
  (List.range 15).map (fun r => ((ws.drop (4 * r)).take 4).flatten)

def aesShift (s : List Nat) : List Nat :=
  (List.range 16).map (fun k => nth s ((4 * (k / 4 + k % 4) + k % 4) % 16) 0)

def aesShiftInv (s : List Nat) : List Nat :=
  (List.range 16).map (fun k => nth s ((4 * (k / 4 + 4 - k % 4) + k % 4) % 16) 0)

def aesMixWith (a b c d : Nat) (s : List Nat) : List Nat :=
  (List.range 16).map (fun k =>
    let col := k / 4 * 4
    let r := k % 4
    let g := fun j => nth s (col + (r + j) % 4) 0
    (((aesMul a (g 0)).xor (aesMul b (g 1))).xor (aesMul c (g 2))).xor (aesMul d (g 3)))

def aesEncRounds : List (List Nat) → List Nat → List Nat
  | [], s => s
  | [k], s => xorBytes (aesShift (s.map aesSub)) k
  | k :: ks, s => aesEncRounds ks (xorBytes (aesMixWith 2 3 1 1 (aesShift (s.map aesSub))) k)

def aesEncrypt (key block : List Nat) : List Nat :=
  match aesRoundKeys key with
  | [] => block
  | k :: ks => aesEncRounds ks (xorBytes block k)

def aesDecRounds : List (List Nat) → List Nat → List Nat
  | [], s => s
  | [k], s => xorBytes ((aesShiftInv s).map aesSubInv) k
  | k :: ks, s => aesDecRounds ks (aesMixWith 14 11 13 9 (xorBytes ((aesShiftInv s).map aesSubInv) k))

def aesDecrypt (key block : List Nat) : List Nat :=
  match (aesRoundKeys key).reverse with
  | [] => block
  | k :: ks => aesDecRounds ks (xorBytes block k)

/-- Multiplication of the XTS tweak by α, bytes least significant first. -/
def xtsDouble (t : List Nat) : List Nat :=
  let n := t.foldr (fun b a => b + 256 * a) 0
  let d := 2 * n
  let r := if d ≥ 2 ^ 128 then (d % 2 ^ 128).xor 0x87 else d
  (leBytes 16 r).map (fun b => b.toNat)

/-- One data unit of 32 bytes under XTS-AES-256: Key1, Key2 and the data unit sequence number (R319, R320). -/
def xtsUnit (decrypt : Bool) (key1 key2 : List Nat) (unit : Nat) (d : List Nat) : List Nat :=
  let t0 := aesEncrypt key2 ((leBytes 16 unit).map (fun b => b.toNat))
  let t1 := xtsDouble t0
  let one := fun t x =>
    xorBytes (if decrypt then aesDecrypt key1 (xorBytes x t) else aesEncrypt key1 (xorBytes x t)) t
  one t0 (d.take 16) ++ one t1 (d.drop 16)

/-! ECDSA on P-256, points in Jacobian coordinates. -/

def p256p : Nat := 0xffffffff00000001000000000000000000000000ffffffffffffffffffffffff
def p256n : Nat := 0xffffffff00000000ffffffffffffffffbce6faada7179e84f3b9cac2fc632551
def p256b : Nat := 0x5ac635d8aa3a93e7b3ebbd55769886bc651d06b0cc53b0f63bce3c3e27d2604b
def p256gx : Nat := 0x6b17d1f2e12c4247f8bce6e563a440f277037d812deb33a0f4a13945d898c296
def p256gy : Nat := 0x4fe342e2fe1a7f9b8ee7eb4a7c0f9e162bce33576b315ececbb6406837bf51f5

/-- b^e modulo m, over the lowest `k` bits of e. -/
def modPow : Nat → Nat → Nat → Nat → Nat
  | 0, _, _, _ => 1
  | k + 1, b, e, m => (if e % 2 = 1 then b else 1) * modPow k (b * b % m) (e / 2) m % m

def modInv (a m : Nat) : Nat := modPow 256 a (m - 2) m

/-- A point of the curve as X, Y, Z; Z = 0 is the point at infinity. -/
structure JacPoint where
  x : Nat
  y : Nat
  z : Nat
  deriving DecidableEq, Repr

def subP (a b : Nat) : Nat := (a + p256p - b % p256p) % p256p

def jacDouble (q : JacPoint) : JacPoint :=
  if q.z = 0 ∨ q.y = 0 then ⟨1, 1, 0⟩
  else
    let yy := q.y * q.y % p256p
    let s := 4 * q.x * yy % p256p
    let z2 := q.z * q.z % p256p
    let m := 3 * (subP q.x z2) * (q.x + z2) % p256p
    let x3 := subP (m * m) (2 * s)
    ⟨x3, subP (m * subP s x3) (8 * yy * yy), 2 * q.y * q.z % p256p⟩

def jacAdd (a b : JacPoint) : JacPoint :=
  if a.z = 0 then b
  else if b.z = 0 then a
  else
    let za := a.z * a.z % p256p
    let zb := b.z * b.z % p256p
    let u1 := a.x * zb % p256p
    let u2 := b.x * za % p256p
    let s1 := a.y * zb * b.z % p256p
    let s2 := b.y * za * a.z % p256p
    if u1 = u2 then (if s1 = s2 then jacDouble a else ⟨1, 1, 0⟩)
    else
      let h := subP u2 u1
      let r := subP s2 s1
      let hh := h * h % p256p
      let v := u1 * hh % p256p
      let x3 := subP (subP (r * r) (hh * h)) (2 * v)
      ⟨x3, subP (r * subP v x3) (s1 * hh * h), a.z * b.z * h % p256p⟩

def jacMul : Nat → Nat → JacPoint → JacPoint
  | 0, _, _ => ⟨1, 1, 0⟩
  | k + 1, e, q => jacAdd (if e % 2 = 1 then q else ⟨1, 1, 0⟩) (jacMul k (e / 2) (jacDouble q))

/-- The affine x of a point. -/
def jacX (q : JacPoint) : Nat :=
  let zi := modInv q.z p256p
  q.x * (zi * zi % p256p) % p256p

/-- Whether (x, y) lies on the curve. -/
def onCurve (x y : Nat) : Bool :=
  x < p256p && y < p256p && y * y % p256p == (subP (x * x % p256p * x + p256b) (3 * x)) % p256p

/-- ECDSA verification of a 256-bit digest. -/
def ecdsaVerify (qx qy digest r s : Nat) : Bool :=
  if r = 0 ∨ p256n ≤ r ∨ s = 0 ∨ p256n ≤ s ∨ !onCurve qx qy then false
  else
    let w := modInv s p256n
    let u1 := digest * w % p256n
    let u2 := r * w % p256n
    let pt := jacAdd (jacMul 256 u1 ⟨p256gx, p256gy, 1⟩) (jacMul 256 u2 ⟨qx, qy, 1⟩)
    pt.z != 0 && jacX pt % p256n == r

end Sys2Proof.Machine
end

