-- ==== Sys2Proof/Machine/Memory.lean ====
section
/-!
DEFINITION. Slice memory: stored words, regions, encipherment, the flip mask, error reporting, dirty maps and the
merge buffer (R68 to R77, R302 to R350, R742). Slice offsets are 29 bits; code words are 32 bytes.
-/
namespace Sys2Proof.Machine

/-- Who reads or writes a slice: the AGENT codes of SLC_ERR_FIRST. -/
inductive Agent where
  | lift | rmw | merge | host | nbu | scrubber | loader
  deriving DecidableEq, Repr

def Agent.code : Agent → Nat
  | .lift => 0 | .rmw => 1 | .merge => 2 | .host => 3 | .nbu => 4 | .scrubber => 5 | .loader => 6

/-- The TARGET code of SLC_FLIP_CTRL that selects a writer; the loader writes as host traffic does (R94). -/
def Agent.target : Agent → Nat
  | .lift => 1 | .rmw => 1 | .merge => 1 | .host => 2 | .nbu => 3 | .scrubber => 4 | .loader => 2

/-! Stored bytes. -/

def wordBase (o : Nat) : Nat := o / 32 * 32

def storedKey (i o j : Nat) : Nat := (i * 2 ^ 24 + o % 2 ^ 29 / 32) * 64 + j

/-- What an unlisted stored byte reads as: the fill of R333, zero data with the check bytes of its own offset. -/
def storedUnlisted (o j : Nat) : Byte :=
  if j < 32 then 0#8 else BitVec.ofNat 8 (nth (checkBytes (List.replicate 32 0) (wordBase o % 2 ^ 29)) (j - 32) 0)

def storedWord (s : State) (i o : Nat) : List Nat :=
  (List.range 36).map (fun j => (KMap.get (storedUnlisted o j) s.stored (storedKey i o j)).toNat)

/-- The 36 bytes of a word stored, from byte `j` on. -/
def putStored (i o : Nat) : Nat → List Nat → State → State
  | _, [], s => s
  | j, b :: bs, s =>
    putStored i o (j + 1) bs
      { s with stored := KMap.put (storedUnlisted o j) s.stored (storedKey i o j) (BitVec.ofNat 8 b) }

/-- A slice whose every word holds the fill (R333). -/
def sliceFill (i : Nat) (s : State) : State :=
  { s with stored := s.stored.dropRange (storedKey i 0 0) (storedKey (i + 1) 0 0) }

/-! Regions (R311 to R318). -/

structure Region where
  isOpen : Bool
  enc : Bool
  strict : Bool
  hostRd : Bool
  hostWr : Bool
  keySlot : Nat
  deriving DecidableEq, Repr

/-- The region of a word that no entry covers (R313). -/
def Region.plain : Region := ⟨false, false, false, true, true, 0⟩

/-- Whether entry e of a slice's region table covers an offset. -/
def regionCovers (s : State) (i e o : Nat) : Bool :=
  let g := fun f : Field => s.get (f.at [i, e])
  let unit := bits o 0 23 / 2 ^ 16
  g R.SLC_REGION_VALID == 1 && bit (g R.SLC_REGION_LAYER_MASK) (bits o 26 3)
    && bit (g R.SLC_REGION_BANK_MASK) (bits o 23 3)
    && decide (g R.SLC_REGION_FIRST_64K ≤ unit) && decide (unit ≤ g R.SLC_REGION_LAST_64K)

def regionOf (s : State) (i o : Nat) : Region :=
  match (List.range 8).find? (fun e => regionCovers s i e o) with
  | none => .plain
  | some e =>
    let g := fun f : Field => s.get (f.at [i, e])
    ⟨g R.SLC_REGION_KIND == 1, g R.SLC_REGION_ENC == 1, g R.SLC_REGION_ECC_MODE == 1, g R.SLC_REGION_HOST_RD == 1,
      g R.SLC_REGION_HOST_WR == 1, g R.SLC_REGION_KEY_SLOT⟩

/-- The key in a slot: none while EMPTY (R325). -/
def keyOf (s : State) (i k : Nat) : Option (List Nat) :=
  match KMap.get [] (s.slice i).keys k with
  | [] => none
  | b => some b

/-- Encipherment or decipherment of one code word (R319, R320). -/
def cipher (decrypt : Bool) (key : List Nat) (i o : Nat) (d : List Nat) : List Nat :=
  xtsUnit decrypt (key.take 32) (key.drop 32) ((i * 2 ^ 29 + o) / 32) d

/-! Error reporting (R347 to R349). -/

def errRecord (i o cls agent : Nat) (s : State) : State :=
  let fn := s.get R.LHT_FN_FN
  let put := fun (off c a f v : Field) (t : State) =>
    ((((t.set (off.at [i]) o).set (c.at [i]) cls).set (a.at [i]) agent).set (f.at [i]) fn).set (v.at [i]) 1
  let s :=
    if s.get (R.SLC_ERR_FIRST_VALID.at [i]) == 1 then s
    else put R.SLC_ERR_FIRST_OFFSET R.SLC_ERR_FIRST_CLASS R.SLC_ERR_FIRST_AGENT R.SLC_ERR_FIRST_FN R.SLC_ERR_FIRST_VALID s
  put R.SLC_ERR_LAST_OFFSET R.SLC_ERR_LAST_CLASS R.SLC_ERR_LAST_AGENT R.SLC_ERR_LAST_FN R.SLC_ERR_LAST_VALID s

/-- One decode outcome counted, recorded and raised. A CORRECTED word of a STRICT region counts as DATA to every reader
but the scrubber (R316). -/
def noteOutcome (i o : Nat) (agent : Agent) (strict : Bool) (c : ReadClass) (s : State) : State :=
  let bad := fun (cls code : Nat) (t : State) =>
    raiseOnce code i o (errRecord i o cls agent.code (t.bump (R.SLC_UE_COUNT_COUNT.at [i])))
  match c with
  | .clean => s
  | .corrected p =>
    if strict && agent != .scrubber then bad 1 0x0E11 s
    else
      let s := s.bump (R.SLC_CE_COUNT_COUNT.at [i])
      let s := s.modSlice i (fun v => { v with winCount := v.winCount + 1 })
      (((s.set (R.SLC_CE_LAST_OFFSET.at [i]) o).set (R.SLC_CE_LAST_SYMBOL.at [i]) p).set
        (R.SLC_CE_LAST_AGENT.at [i]) agent.code).set (R.SLC_CE_LAST_FN.at [i]) (s.get R.LHT_FN_FN)
  | .poisoned =>
    raiseOnce 0x0E13 i o (errRecord i o 3 agent.code (s.bump (R.SLC_POISON_COUNT_COUNT.at [i])))
  | .address => bad 2 0x0E12 s
  | .data => bad 1 0x0E11 s
  | .noKey => bad 4 0x0E15 s

/-! Reads and writes of one code word. -/

/-- A word as one read of it finds it: whether it is uncorrectable for this reader, and the data delivered. -/
structure WordRead where
  bad : Bool
  data : List Nat
  deriving DecidableEq, Repr

/-- A code word as a read through its region finds it: its outcome, and the data delivered, deciphered where it is good and as
read where it is not (R305, R316, R321 to R323). -/
def lookWord (s : State) (i o : Nat) : ReadClass × WordRead :=
  let o := wordBase o
  let r := regionOf s i o
  let w := storedWord s i o
  let (c, d) := decodeWord w o
  match (if r.enc then keyOf s i r.keySlot else some []) with
  | none => (.noKey, ⟨true, w.take 32⟩)
  | some k =>
    if c.bad r.strict then (c, ⟨true, w.take 32⟩) else (c, ⟨false, if r.enc then cipher true k i o d else d⟩)

/-- A code word read through its region, and its outcome counted (R347). -/
def readWord (agent : Agent) (i o : Nat) (s : State) : WordRead × State :=
  let (c, r) := lookWord s i o
  (r, noteOutcome i (wordBase o) agent (regionOf s i o).strict c s)

/-- A code word read as stored, without deciphering, for a read-modify-write or the scrubber (R321, R330). -/
def readRaw (agent : Agent) (i o : Nat) (s : State) : ReadClass × List Nat × State :=
  let o := wordBase o
  let (c, d) := decodeWord (storedWord s i o) o
  (c, d, noteOutcome i o agent (regionOf s i o).strict c s)

/-- The bit of a dirty map set for the page of a written word (R742). -/
def markDirty (i o : Nat) (s : State) : State :=
  let g := o / 65536
  let f := R.CKP_MAP_BITS.at [i, g / 32]
  let w := s.get f
  if bit w (g % 32) then s
  else (s.set f (w + 2 ^ (g % 32))).count (R.CKP_DIRTY_PAGES.at [i])

/-- Whether the flip mask takes a write by an agent (R344); TARGET 5–7 act as 0. -/
def flipTakes (s : State) (i : Nat) (agent : Agent) : Bool :=
  let t := s.get (R.SLC_FLIP_CTRL_TARGET.at [i])
  s.flag (R.SLC_FLIP_CTRL_ARM.at [i]) && (t == 0 || t ≥ 5 || t == agent.target)

/-- The flip mask as 36 bytes (R343). -/
def flipMask (s : State) (i : Nat) : List Nat :=
  ((List.range 9).map (fun j => (leBytes 4 (s.get (R.SLC_FLIP_MASK.at [i, j]))).map (fun b => b.toNat))).flatten

/-- The mask consumed (R345). -/
def flipConsume (i : Nat) (s : State) : State :=
  let s := (s.set (R.SLC_FLIP_CTRL_ARM.at [i]) 0).set (R.SLC_FLIP_CTRL_FIRED.at [i]) 1
  let s := (List.range 9).foldl (fun t j => t.set (R.SLC_FLIP_MASK.at [i, j]) 0) s
  raise 0x0E17 i 0 (s.set (R.SLC_FLIP_ADDR_ADDR_XOR.at [i]) 0)

/-- A whole word stored: encoded, poisoned if asked, and corrupted by an armed mask (R304, R340, R344). -/
def storeBare (agent : Agent) (i o : Nat) (data : List Nat) (poison : Bool) (s : State) : State :=
  let o := wordBase o
  if flipTakes s i agent then
    let folded := o.xor (s.get (R.SLC_FLIP_ADDR_ADDR_XOR.at [i]))
    let w := if poison then poisonWord data folded else encodeWord data folded
    flipConsume i (putStored i o 0 ((xorBytes w (flipMask s i)).take 36) s)
  else putStored i o 0 ((if poison then poisonWord data o else encodeWord data o).take 36) s

/-- A whole word stored, and its page dirty unless the scrubber rewrites it (R742). -/
def storeWord (agent : Agent) (i o : Nat) (data : List Nat) (poison : Bool) (s : State) : State :=
  storeBare agent i o data poison (if agent == .scrubber then s else markDirty i (wordBase o) s)

/-- A whole word written through its region: enciphered where the region asks for it. Into an enciphered region whose slot
is EMPTY the word is written poisoned with zero data (R322, R323). -/
def writeWord (agent : Agent) (i o : Nat) (data : List Nat) (poison : Bool) (s : State) : State :=
  let r := regionOf s i o
  if r.enc then
    match keyOf s i r.keySlot with
    | none => storeWord agent i o (List.replicate 32 0) true (noteOutcome i (wordBase o) agent r.strict .noKey s)
    | some k => storeWord agent i o (cipher false k i (wordBase o) data) poison s
  else storeWord agent i o data poison s

/-- The bytes of `new` where the mask has a bit, else those of `old`. -/
def maskMerge (mask : Nat) (old new : List Nat) : List Nat :=
  (List.range 32).map (fun k => if bit mask k then nth new k 0 else nth old k 0)

/-- A read-modify-write, and whether its old word was uncorrectable: then the data bytes as they were read are merged (R330). -/
def rmwWord (agent : Agent) (i o mask : Nat) (new : List Nat) (poison : Bool) (s : State) : Bool × State :=
  let old := storedWord s i (wordBase o)
  let (c, d, s) := readRaw agent i o s
  let bad := c.bad (regionOf s i o).strict
  (bad, storeWord agent i o (maskMerge mask (if bad then old.take 32 else d) new) (bad || poison) s)

/-! The merge buffer (R73 to R76). -/

def fullMask : Nat := 2 ^ 32 - 1

/-- An entry triggered in cycle `t`, if nothing has triggered it earlier. -/
def MergeEntry.trigger (t : Nat) (e : MergeEntry) : MergeEntry :=
  { e with trig := some (match e.trig with
      | some u => Nat.min u t
      | none => t) }

/-- A narrow write that arrives in cycle `t`: merged into the entry of its word, or a new entry; a seventeenth entry triggers
the oldest, and a full mask triggers its own in the next cycle (R73, R74). -/
def mergePut (i t o mask : Nat) (bytes : List Nat) (poison : Bool) (s : State) : State :=
  let o := wordBase o
  let full := fun (e : MergeEntry) => if e.mask == fullMask then e.trigger (t + 1) else e
  s.modSlice i (fun v =>
    if v.merge.any (fun e => e.word == o) then
      { v with merge := v.merge.map (fun e =>
          if e.word == o then
            full { e with mask := e.mask.lor mask, bytes := maskMerge mask e.bytes bytes, poison := e.poison || poison }
          else e) }
    else
      let es := match v.merge with
        | e :: r => if r.length ≥ 15 then e.trigger t :: r else v.merge
        | [] => []
      { v with merge := es ++ [full ⟨o, mask, bytes, t, none, poison⟩] })

/-- Of two triggered entries the one that commits first: the lower trigger, then the earlier in the buffer (R75). -/
def firstTriggered : List MergeEntry → Option MergeEntry
  | [] => none
  | e :: es =>
    match e.trig, firstTriggered es with
    | none, r => r
    | some _, none => some e
    | some t, some f => if f.trig.getD 0 < t then some f else some e

/-- The entry whose commit is next, in a cycle at or after its trigger (R75). -/
def nextMerge (i c : Nat) (s : State) : Option MergeEntry :=
  match firstTriggered (s.slice i).merge with
  | some e => if e.trig.getD 0 ≤ c then some e else none
  | none => none

/-- The cycles for which a commit holds the slice port (R75). -/
def MergeEntry.len (e : MergeEntry) : Nat := if e.mask == fullMask then 1 else 18

/-- An entry commits: a full mask writes the word, a partial one is a read-modify-write (R75, R331); whether the old word was
uncorrectable. -/
def mergeCommit (i : Nat) (e : MergeEntry) (s : State) : Bool × State :=
  let s := s.modSlice i (fun v => { v with merge := v.merge.erase e })
  if e.mask == fullMask then (false, storeWord .merge i e.word e.bytes e.poison s)
  else rmwWord .merge i e.word e.mask e.bytes e.poison s

end Sys2Proof.Machine
end

