-- ==== Sys2Proof/Machine/HostMem.lean ====
section
/-!
DEFINITION. Host access to device memory: views (R283 to R288), what refuses an access (R317, R322, R323, R452), and the
queues of accesses at the slices (R94, R448 to R450).
-/
namespace Sys2Proof.Machine

/-! Views. -/

/-- The DPA of a host memory address: the flat view, or the de-interleaved view. -/
def viewDpa (direct : Bool) (h : Nat) : Nat :=
  if direct then h % 2 ^ 37 else bits h 12 8 * 2 ^ 29 + bits h 20 17 * 2 ^ 12 + bits h 0 12

def dpaIsle (dpa : Nat) : Nat := bits dpa 29 8
def dpaOffset (dpa : Nat) : Nat := bits dpa 0 29

/-- The stack of a logical isle, and whether its DRAM array domain is ON (R282). -/
def stackOf (i : Nat) : Nat := i / 64
def dramOn (s : State) (i : Nat) : Bool := domainOn s (6 + stackOf i)

/-! Refusals. -/

/-- The code words a run of slice bytes touches. -/
def touchedWords (off len : Nat) : List Nat :=
  if len = 0 then [] else (List.range ((off + len - 1) / 32 - off / 32 + 1)).map (fun k => (off / 32 + k) * 32)

/-- Whether a run covers a code word whole. -/
def coversWord (off len o : Nat) : Bool := decide (off ≤ o) && decide (o + 32 ≤ off + len)

/-- Whether a word's region refuses a host access (R452). -/
def regionRefuses (s : State) (i off len o : Nat) (write : Bool) : Bool :=
  let r := regionOf s i o
  if write then !r.hostWr || (r.enc && ((keyOf s i r.keySlot).isNone || !coversWord off len o))
  else !r.hostRd || (r.enc && (keyOf s i r.keySlot).isNone)

/-- Whether a host access is refused: its stack is off, or a word's region refuses it. -/
def hostRefused (s : State) (i off len : Nat) (write : Bool) : Bool :=
  !dramOn s i || (touchedWords off len).any (fun o => regionRefuses s i off len o write)

/-- Whether an access meets an enciphered region whose key slot is EMPTY (R323). -/
def meetsNoKey (s : State) (i off len : Nat) : Bool :=
  dramOn s i && (touchedWords off len).any (fun o =>
    let r := regionOf s i o
    r.enc && (keyOf s i r.keySlot).isNone)

/-- The count and event of R323 for a refused access that meets an EMPTY key slot. -/
def noteNoKey (i off len : Nat) (s : State) : State :=
  match (touchedWords off len).find? (fun o =>
      let r := regionOf s i o
      r.enc && (keyOf s i r.keySlot).isNone) with
  | some o => if dramOn s i then noteOutcome i o .host false .noKey s else s
  | none => s

/-! Queues. -/

/-- An access put at the end of an isle's queue. -/
def pushAccess (i : Nat) (a : HostAcc) (s : State) : State := s.modSlice i (fun v => { v with hostq := v.hostq ++ [a] })

/-- A run of slice bytes that an access reads, or bytes that it writes, put in the queue of its isle by DPA. -/
def pushRead (src : HostSrc) (dpa n : Nat) (s : State) : State :=
  pushAccess (dpaIsle dpa) { src := src, off := dpaOffset dpa, len := n, write := false } s

def pushWrite (src : HostSrc) (dpa : Nat) (bytes : List Nat) (s : State) : State :=
  pushAccess (dpaIsle dpa) { src := src, off := dpaOffset dpa, len := bytes.length, write := true, data := bytes } s

/-- The accesses of an isle that `keep` keeps; those before a waiting host NBU command are counted again. -/
def filterAccesses (keep : HostAcc → Bool) (s : State) : State :=
  (s.slices.map (fun e => e.1)).foldl (fun t i => t.modSlice i (fun v =>
    { v with hostq := v.hostq.filter keep, cmdBehind := ((v.hostq.take v.cmdBehind).filter keep).length })) s

/-- Whether an access reads, from a ring in device memory, payload bound for device memory. -/
def stagesRead (a : HostAcc) : Bool :=
  match a.src with
  | .ringRead _ => true
  | _ => false

/-- Whether an access is a BAR2 read. -/
def isBar2Read (a : HostAcc) : Bool :=
  match a.src with
  | .bar2 _ _ => !a.write
  | _ => false

/-- Bytes of the staging buffer that are taken: data that waits for device memory, and room held for host reads that are to bring
more (R448, R449). -/
def stagedBytes (s : State) : Nat :=
  (s.slices.map (fun e => (e.2.hostq.map (fun a => if a.write || stagesRead a then a.len - a.pos else 0)).sum)).sum
    + (s.hif.reads.map (fun e => e.2)).sum

/-- BAR2 reads held (R448). -/
def heldReads (s : State) : Nat := (s.slices.map (fun e => (e.2.hostq.filter isBar2Read).length)).sum

/-- The module issues host reads and writes: PD1 is ON, and the physical function is not in D3hot (R475). -/
def hostLinkReady (s : State) : Bool := domainOn s 1 && !s.hif.d3hot.contains 0

def State.setReads (s : State) (m : KMap Nat) : State := { s with hif := { s.hif with reads := m } }

/-! Service, one code word after another (R94, R287). -/

/-- The parts of an access that code words cut: slice offset and length of each. -/
def wordParts (off len : Nat) : List (Nat × Nat) :=
  (touchedWords off len).map (fun o =>
    let lo := Nat.max off o
    (lo, Nat.min (off + len) (o + 32) - lo))

/-- What a run of parts costs its slice port (R287): whole code words at one layer's rate, and 18 cycles for each other that is
written; a read of part of a code word is charged as the code word. -/
def servedCost (write : Bool) (ps : List (Nat × Nat)) : Nat :=
  let partial_ := if write then ps.countP (fun p => p.2 != 32) else 0
  cdiv (5 * 32 * (ps.length - partial_)) 256 + 18 * partial_

/-- The longest run of parts, from the first on, that costs at most `room` cycles; no limit where `room` is none. -/
def partsThatFit (write : Bool) (room : Option Nat) (ps : List (Nat × Nat)) : List (Nat × Nat) :=
  match room with
  | none => ps
  | some n => ps.take (((List.range ps.length).filter (fun k => decide (servedCost write (ps.take (k + 1)) ≤ n))).length)

/-- One part read (R454): its bytes, deciphered where its region is enciphered, and whether its word is bad. -/
def readPart (i : Nat) (p : Nat × Nat) (s : State) : List Nat × Bool × State :=
  let o := wordBase p.1
  let r := regionOf s i o
  let (c, d, s) := readRaw .host i o s
  let d := match (if r.enc then keyOf s i r.keySlot else none) with
    | some k => cipher true k i o d
    | none => d
  ((d.drop (p.1 - o)).take p.2, c.bad r.strict, s)

/-- One part read for the checkpoint engine: corrected, and not deciphered (R761). -/
def readStored (i : Nat) (p : Nat × Nat) (s : State) : List Nat × Bool × State :=
  let (c, d, s) := readRaw .host i p.1 s
  (d, c.bad (regionOf s i p.1).strict, s)

/-- One part written: a code word directly, less of one by a read-modify-write (R287). -/
def writePart (i : Nat) (p : Nat × Nat) (bytes : List Nat) (s : State) : State :=
  let o := wordBase p.1
  if p.2 = 32 then writeWord .host i o bytes false s
  else
    let lo := p.1 - o
    let mask := ((List.range p.2).map (fun k => 2 ^ (lo + k))).sum
    (rmwWord .host i o mask (List.replicate lo 0 ++ bytes) false s).2

/-- Parts read in order: bytes, bad code words, and the state. -/
def readParts (one : Nat → Nat × Nat → State → List Nat × Bool × State) (i : Nat) :
    List (Nat × Nat) → State → List Nat × List Nat × State
  | [], s => ([], [], s)
  | p :: ps, s =>
    let (d, bad, s) := one i p s
    let (ds, bads, s) := readParts one i ps s
    (d ++ ds, (if bad then [wordBase p.1] else []) ++ bads, s)

/-- Parts of an access written in order, from its bytes. -/
def writeParts (i off : Nat) (data : List Nat) (ps : List (Nat × Nat)) (s : State) : State :=
  ps.foldl (fun t p => writePart i p ((data.drop (p.1 - off)).take p.2) t) s

/-- The host traffic of a slice counted (SLC_HOST), and its port taken from a cycle on (R287). -/
def noteService (i cycle : Nat) (write : Bool) (ps : List (Nat × Nat)) (s : State) : State :=
  s.modSlice i (fun v => { v with
    hostWords := v.hostWords + ps.length
    hostRmw := v.hostRmw + (if write then ps.countP (fun p => p.2 != 32) else 0)
    portFree := cycle + servedCost write ps })

end Sys2Proof.Machine
end

