-- ==== Sys2Proof/Machine/Quays.lean ====
section
/-!
DEFINITION. Quays: rings, packets, delivery, emission, notices (R382 to R414).
-/
namespace Sys2Proof.Machine

def State.quay (s : State) (q : Nat) : Quay := KMap.get {} s.quays q
def State.setQuay (s : State) (q : Nat) (v : Quay) : State := { s with quays := KMap.put {} s.quays q v }
def State.modQuay (s : State) (q : Nat) (f : Quay → Quay) : State := s.setQuay q (f (s.quay q))

/-! Rings (R385, R386). -/

def ringWords (s : State) (q : Nat) : Nat := 2 ^ s.get (R.QUA_CTRL_SIZE_LOG2.at [q])
def ringBase (s : State) (q : Nat) : Nat := s.get (R.QUA_RING_BASE_ADDR.at [q]) * 2 ^ 12
def quayPi (s : State) (q : Nat) : Nat := s.get (R.QUA_PROD_PI.at [q])
def quayCi (s : State) (q : Nat) : Nat := s.get (R.QUA_CONS_CI.at [q])
def quaySeq (s : State) (q : Nat) : Nat := s.get (R.QUA_SEQ_SEQ.at [q])
def inDevice (s : State) (q : Nat) : Bool := s.flag (R.QUA_CTRL_LOC.at [q])
def quayEnabled (s : State) (q : Nat) : Bool := s.flag (R.QUA_CTRL_ENABLE.at [q])

/-- a − b of 32-bit indices. -/
def idxSub (a b : Nat) : Nat := (a + 2 ^ 32 - b % 2 ^ 32) % 2 ^ 32

/-- Words between CI and PI. -/
def occupancy (s : State) (q : Nat) : Nat := idxSub (quayPi s q) (quayCi s q)

/-- Where byte k from a word index lies in the ring, which wraps (R387). -/
def ringByte (s : State) (q index k : Nat) : Nat := ringBase s q + (index * 64 + k) % (ringWords s q * 64)

/-- The runs of addresses that `n` ring bytes from byte `k` of a word index on occupy: one, or two where they wrap to slot 0
(R387), as (address, bytes from the start, bytes). -/
def ringRuns (s : State) (q index k n : Nat) : List (Nat × Nat × Nat) :=
  let a := ringByte s q index k
  let first := Nat.min n (ringBase s q + ringWords s q * 64 - a)
  if first = n then [(a, 0, n)] else [(a, 0, first), (ringBase s q, first, n - first)]

/-- Bytes for the ring of a quay: host writes with its owner's identity (R384), or accesses to device memory that wait in a
slice's queue as host traffic does (R91). -/
def ringWrite (src : HostSrc) (q func index k : Nat) (bytes : List Nat) (s : State) : State :=
  (ringRuns s q index k bytes.length).foldl (fun t r =>
    let part := (bytes.drop r.2.1).take r.2.2
    if inDevice s q then pushWrite src r.1 part t else t.emit (.hostWrite func r.1 part false)) s

/-! Notices (R408 to R410). -/

/-- A notice of one cause: its pending bit, and a message if the bit was 0 and the cause is enabled. -/
def quayNotice (pending : Field) (enabled : Bool) (q : Nat) (s : State) : State :=
  if s.flag (pending.at [q]) then s
  else
    let s := s.set (pending.at [q]) 1
    match bindOf s q with
    | some b => if enabled then notify b.func (s.get (R.QUA_NOTICE_VECTOR.at [q])) s else s
    | none => s

def packetNotice (q : Nat) (s : State) : State := quayNotice R.QUA_STATUS_PKT (s.flag (R.QUA_NOTICE_PKT_EN.at [q])) q s
def errorNotice (q : Nat) (s : State) : State := quayNotice R.QUA_STATUS_ERR (s.flag (R.QUA_NOTICE_ERR_EN.at [q])) q s

/-- The idle timer restarts (R410). -/
def restartIdle (q : Nat) (s : State) : State := s.modQuay q (fun v => { v with idleDone := false })

/-- CI advances: the idle timer restarts. -/
def advanceCi (q n : Nat) (s : State) : State := restartIdle q (s.count (R.QUA_CONS_CI.at [q]) n)

/-! The end of a packet. -/

/-- BUSY: a delivery or an emission is in progress. -/
def noteBusy (q : Nat) (s : State) : State :=
  let v := s.quay q
  s.setFlag (R.QUA_STATUS_BUSY.at [q]) (v.packet.isSome || v.emission.isSome || !v.closing.isEmpty)

/-- A packet leaves the ring once its header reads zero: CI and SEQ advance past it (R388, R398, R399). `fate` is 0 for one
delivered, else the reason it was bad. -/
def packetGone (q : Nat) (p : Packet) (fate : Nat) (s : State) : State :=
  let s := (advanceCi q p.words s).count (R.QUA_SEQ_SEQ.at [q])
  let s := noteBusy q (s.modQuay q (fun v => { v with packet := none }))
  if fate = 0 then
    let s := s.count (R.QUA_COUNT_PACKETS.at [q])
    if p.notify then packetNotice q s else s
  else errorNotice q s

/-- The header of a packet is set to zero: at once in host memory, by an access to device memory otherwise (R388). -/
def consumePacket (q func : Nat) (p : Packet) (fate : Nat) (s : State) : State :=
  let s := ringWrite (.ringZero q) q func (quayCi s q) 0 (List.replicate 8 0) s
  if inDevice s q then s.modQuay q (fun v => { v with packet := some { p with fate := some fate } }) else packetGone q p fate s

/-- A bad packet vanishes (R399). -/
def packetBad (q reason : Nat) (p : Packet) (s : State) : State :=
  match bindOf s q with
  | none => s
  | some b =>
    let s := s.bump (R.QUA_COUNT_DROPPED.at [q])
    let s := raiseOnce 0x0201 q reason s
    let s := (s.set (R.QUA_ERR_REASON.at [q]) reason).set (R.QUA_ERR_SEQ.at [q]) (quaySeq s q)
    consumePacket q b.func p reason s

/-- A quay halts (R413). -/
def quayHalt (q cause : Nat) (s : State) : State :=
  let s := (s.set (R.QUA_STATUS_HALTED.at [q]) 1).set (R.QUA_STATUS_HALT_CAUSE.at [q]) cause
  errorNotice q (raise 0x0202 q cause s)

/-- Whether an access belongs to a quay. -/
def ofQuay (q : Nat) (a : HostAcc) : Bool :=
  match a.src with
  | .delivery k => k == q
  | .emission k => k == q
  | .ringRead k => k == q
  | .ringHead k => k == q
  | .ringZero k => k == q
  | .ringPut k _ => k == q
  | _ => false

/-- The requester number of a quay in the arbiters (R468). -/
def quayRequester (q : Nat) : Nat := 8 + q

/-- An arbiter's burst of a requester ends. -/
def Arbiter.release (a : Arbiter) (r : Nat) : Arbiter := if a.busy == some r then { a with busy := none } else a

def releaseArbiters (r : Nat) (s : State) : State :=
  { s with hif := { s.hif with toDevice := s.hif.toDevice.release r, toHost := s.hif.toHost.release r } }

/-- A quay's work in progress is dropped: its accesses not yet served, its reads, its packet, and its emissions, which are
rewound (R404, R412). -/
def quayDrop (q : Nat) (s : State) : State :=
  let s := filterAccesses (fun a => !ofQuay q a) s
  let s := releaseArbiters (quayRequester q) (s.setReads (KMap.erase s.hif.reads (quayRequester q)))
  (s.modQuay q (fun v => { v with packet := none, heading := false, emission := none, closing := [] })).set
    (R.QUA_STATUS_BUSY.at [q]) 0

/-- ENABLE goes to 0 (R412, R413). -/
def quayOff (q : Nat) (s : State) : State :=
  let s := quayDrop q s
  (s.set (R.QUA_CTRL_ENABLE.at [q]) 0).set (R.QUA_STATUS_HALTED.at [q]) 0

/-! Index writes (R386, R392). -/

/-- A function reaches a quay it owns, through its BAR0 (R383). -/
def quayReached (s : State) (func q : Nat) (toHost : Bool) : Bool :=
  decodes s func && (match bindOf s q with
    | some b => b.func == func && b.toHost == toHost
    | none => false)

/-- A refused index write (R392). -/
def indexRefused (q : Nat) (s : State) : State :=
  errorNotice q (raise 0x0205 q 0 (s.bump (R.QUA_ERR_DB_REFUSED.at [q])))

/-- QUA_PROD written. -/
def quayDoorbell (func q pi : Nat) (s : State) : State :=
  if !quayReached s func q false then s
  else if idxSub pi (quayPi s q) ≥ 2 ^ 31 || idxSub pi (quayCi s q) > ringWords s q then indexRefused q s
  else s.set (R.QUA_PROD_PI.at [q]) pi

/-- QUAY_DOORBELL (R392). -/
def execQuayDoorbell (func q pi : Nat) (s : State) : Result :=
  .next (ordered func [] (.quayDoorbell func q pi) (quayDoorbell func q pi) s)

/-- QUA_CONS written on a TO_HOST quay: the idle timer restarts where CI advances (R410). -/
def quayConsumerWrite (func q ci : Nat) (s : State) : State :=
  if !quayReached s func q true then s
  else if idxSub ci (quayCi s q) > occupancy s q then indexRefused q s
  else if idxSub ci (quayCi s q) = 0 then s
  else restartIdle q (s.set (R.QUA_CONS_CI.at [q]) ci)

/-- QUAY_CONSUMER_WRITE (R386, R392). -/
def execQuayConsumerWrite (func q ci : Nat) (s : State) : Result :=
  .next (ordered func [] (.quayConsumerWrite func q ci) (quayConsumerWrite func q ci) s)

/-! Delivery. -/

/-- A short frame number resolved against the full one (R34). -/
def resolveFn (fn short : Nat) : Option Nat :=
  let d := (short + 65536 - fn % 65536) % 65536
  if d = 0x8000 then none
  else if d > 0x8000 then (if fn + d < 65536 then none else some (fn + d - 65536))
  else some (fn + d)

/-- Whether the reserved parts of a header hold 0 and its lengths and addition agree (R389, R390). -/
def headerFormatOk (h : List Nat) : Bool :=
  let w0 := leAt h 0 8
  let w1 := leAt h 8 8
  let size := leAt h 16 4
  let bol := leAt h 20 2
  let add := leAt h 22 2
  bits w0 58 5 == 0 && bits w1 37 27 == 0 && bits size 14 18 == 0 && bits bol 12 3 == 0
    && (h.drop 24).all (fun b => b == 0)
    && bits w0 48 8 == cdiv size 64 && decide (size ≤ 16320)
    && (bit bol 15 == decide (add ≠ 0))

/-- The reason a packet is bad before any byte is written, or 0 (R395, R396). -/
def packetReason (s : State) (b : QuayBind) (h : List Nat) : Nat :=
  let w0 := leAt h 0 8
  let target := leAt h 8 8
  let n := leAt h 16 4
  let bol := leAt h 20 2
  let inWindow := decide (b.winBase * 65536 ≤ target) && decide (target + n ≤ (b.winLimit + 1) * 65536)
    && decide (dpaOffset target + n ≤ 2 ^ 29)
  let number := bits bol 0 12
  if !headerFormatOk h then 1
  else if bit w0 57 && (resolveFn (s.get R.LHT_FN_FN) (bits w0 32 16)).isNone then 2
  else if n ≠ 0 && !inWindow then 3
  else if bit bol 15 && (number < b.bolBase || number ≥ b.bolBase + b.bolCount) then 4
  else if n ≠ 0 && (hostRefused s (dpaIsle target) (dpaOffset target) n true || (s.slice (dpaIsle target)).filling) then 5
  else 0

/-- A header accepted and good becomes the packet in progress. -/
def packetOf (s : State) (h : List Nat) : Packet :=
  let w0 := leAt h 0 8
  let bol := leAt h 20 2
  { words := bits w0 48 8 + 1, bytes := leAt h 16 4, target := leAt h 8 8,
    addition := if bit bol 15 then some (bits bol 0 12, leAt h 22 2) else none,
    notify := bit w0 56,
    notBefore := if bit w0 57 then resolveFn (s.get R.LHT_FN_FN) (bits w0 32 16) else none }

/-- A header read judged (R394), then checked. -/
def judgeHeader (q : Nat) (b : QuayBind) (h : List Nat) (bad : Bool) (s : State) : State :=
  let w0 := leAt h 0 8
  let words := bits w0 48 8 + 1
  if bad then quayHalt q 4 s
  else if !bit w0 63 then quayHalt q 1 s
  else if bits w0 0 32 ≠ quaySeq s q then quayHalt q 2 s
  else if words > occupancy s q then quayHalt q 3 s
  else
    let p := packetOf s h
    match packetReason s b h with
    | 0 => noteBusy q (s.modQuay q (fun v => { v with packet := some p }))
    | reason => packetBad q reason p s

/-- QUAY_HEADER_READ: the engine reads the header at CI (R393 to R396). For a ring in host memory the 64 bytes that come back and
whether they came with an error or poisoned are the command's; a ring in device memory is read as host traffic is, and the header
judged when the read is served. -/
def execQuayHeaderRead (q : Nat) (header : List Nat) (bad : Bool) (s : State) : Result :=
  .next (
    match bindOf s q with
    | none => s
    | some b =>
      if b.toHost || !quayEnabled s q || s.flag (R.QUA_STATUS_HALTED.at [q]) || (s.quay q).packet.isSome || (s.quay q).heading
          || occupancy s q = 0 || !hostLinkReady s then s
      else
        let a := ringByte s q (quayCi s q) 0
        if inDevice s q then pushRead (.ringHead q) a 64 (s.modQuay q (fun v => { v with heading := true }))
        else judgeHeader q b header bad (s.emit (.hostRead b.func a 64)))

/-- QUAY_DELIVERY_START: the packet's payload begins to be written once its not-before frame is reached (R397). -/
def execQuayDeliveryStart (q : Nat) (s : State) : Result :=
  .next (
    match (s.quay q).packet with
    | none => s
    | some p =>
      if (p.notBefore.getD 0) ≤ s.get R.LHT_FN_FN then
        s.modQuay q (fun v => { v with packet := some { p with started := true } })
      else s)

/-- QUAY_DELIVERY_COMPLETE: every payload word is readable (R398): the bollard is added, among the operations of the cycle, and
the packet consumed. -/
def execQuayDeliveryComplete (r : InCycle) (s : State) : Result :=
  .next (
    match (s.quay r.who).packet, bindOf s r.who with
    | some p, some b =>
      if !p.started || p.written < p.bytes || p.fate.isSome then s
      else
        let s := match p.addition with
          | some (bol, n) => cycleOp ⟨quayRank r.who, bol, some n⟩ r.more s
          | none => s
        consumePacket r.who b.func p 0 s
    | _, _ => s)

/-! Emission. -/

/-- The ring words held for emissions whose commit is not over. -/
def closingWords (s : State) (q : Nat) (b : QuayBind) : Nat := (s.quay q).closing.length * (b.outWords + 1)

/-- QUAY_EMIT_OFFSET: the quay reserves ring space and its outlet read is queued, or the packet is skipped (R400 to R402). -/
def execQuayEmitOffset (q : Nat) (s : State) : Result :=
  .next (
    match bindOf s q with
    | none => s
    | some b =>
      let r := s.arch b.arch
      let runs := (r.frame == .wet || r.frame == .replay) && r.voidAt.isNone && s.frame.running && !s.frame.window
      if !b.toHost || !quayEnabled s q || !runs || (s.quay q).emission.isSome || !hostLinkReady s then s
      else if ringWords s q - (occupancy s q + closingWords s q b) < b.outWords + 1 then
        raise 0x0203 q 0 (s.bump (R.QUA_COUNT_DROPPED_FULL.at [q]))
      else
        let start := (quayPi s q + closingWords s q b) % 2 ^ 32
        let s := noteBusy q (s.modQuay q (fun v => { v with emission := some { start := start } }))
        pushAccess b.isle { src := .emission q, off := b.outlet, len := 64 * b.outWords, write := false } s)

/-- The header of an emitted packet with a sequence number (R389, R391, R400). -/
def emitHeader (s : State) (seq : Nat) (b : QuayBind) : List Nat :=
  let fn := s.get R.LHT_LOCAL_FN_FN_S % 65536
  let w0 := seq % 2 ^ 32 + fn * 2 ^ 32 + b.outWords * 2 ^ 48 + 2 ^ 63
  let w1 := b.isle * 2 ^ 29 + b.outlet
  ((leBytes 8 w0 ++ leBytes 8 w1 ++ leBytes 4 (64 * b.outWords)).map (fun x => x.toNat)) ++ List.replicate 44 0

/-- An emission whose words are all in the ring is committed: PI and SEQ advance, and the notice is raised (R403, R409). -/
def emissionGone (q : Nat) (b : QuayBind) (s : State) : State :=
  let s := (s.count (R.QUA_PROD_PI.at [q]) (b.outWords + 1)).count (R.QUA_SEQ_SEQ.at [q])
  let s := s.count (R.QUA_COUNT_PACKETS.at [q])
  let s := noteBusy q (s.modQuay q (fun v => { v with closing := v.closing.drop 1 }))
  if s.flag (R.QUA_NOTICE_PKT_EN.at [q]) then packetNotice q s else s

/-- The oldest emissions committed whose payload has all gone out on the link: their headers follow, with the same requester
(R403). -/
def drainClosing (q : Nat) (b : QuayBind) : Nat → State → State
  | 0, s => s
  | n + 1, s =>
    match (s.quay q).closing with
    | [] => s
    | e :: _ =>
      if inDevice s q || e.sent < e.data.length then s
      else drainClosing q b n (emissionGone q b (ringWrite (.ringPut q true) q b.func e.start 0 e.header s))

/-- A packet late, or one that its ring refused, is rewound (R404). -/
def emissionLate (q : Nat) (s : State) : State := raise 0x0204 q 0 (s.bump (R.QUA_COUNT_EMIT_LATE.at [q]))

/-- The emission in progress is rewound: its accesses not yet served leave the queues; those of earlier packets stay. -/
def emissionDrop (q : Nat) (s : State) : State :=
  let s := filterAccesses (fun a => a.src != .emission q) s
  noteBusy q (s.modQuay q (fun v => { v with emission := none }))

/-- The frame end of a TO_HOST quay: committed when its reads have ended, its header behind the payload; rewound as late otherwise
(R403, R404). -/
def emissionEnd (q : Nat) (b : QuayBind) (s : State) : State :=
  let v := s.quay q
  match v.emission with
  | none => s
  | some e =>
    if e.ended then
      let e := { e with header := emitHeader s (quaySeq s q + v.closing.length) b }
      let s := s.modQuay q (fun v => { v with emission := none, closing := v.closing ++ [e] })
      if inDevice s q then ringWrite (.ringPut q true) q b.func e.start 0 e.header s
      else drainClosing q b (v.closing.length + 1) s
    else emissionLate q (emissionDrop q s)

/-- The TO_HOST quays of an archipelago, in ascending order. -/
def emittersOf (s : State) (a : Nat) : List QuayBind :=
  match s.image with
  | some im => im.quays.filter (fun b => b.toHost && b.arch == a)
  | none => []

/-- The emissions of an archipelago committed or rewound at cycle F. -/
def emissionsEnd (a : Nat) (s : State) : State := (emittersOf s a).foldl (fun t b => emissionEnd b.quay b t) s

/-- The emissions of an archipelago whose frame becomes void are rewound (R404). -/
def emissionsVoid (a : Nat) (s : State) : State :=
  (emittersOf s a).foldl (fun t b => if (t.quay b.quay).emission.isSome then emissionDrop b.quay t else t) s

/-! Peek, idle, enable and disable. -/

/-- The first eight bytes of the header at CI of a ring in device memory (R405), and the state after the reads: what stands there,
or what an access of the quay that waits for it is to put there; 0 from a stack that is off (DESIGN CHOICE). -/
def ringHeader (q : Nat) (s : State) : Nat × State :=
  let dpa := ringByte s q (quayCi s q) 0
  let i := dpaIsle dpa
  let o := dpaOffset dpa
  match (s.slice i).hostq.reverse.find? (fun a => ofQuay q a && a.write && decide (a.off ≤ o) && decide (o + 8 ≤ a.off + a.len)) with
  | some a => (leAt a.data (o - a.off) 8, s)
  | none =>
    if !dramOn s i then (0, s)
    else
      let (_, d, s) := readRaw .host i o s
      (leAt d (o % 32) 8, s)

/-- QUA_PEEK as a function reads it (R405): its own quays, and the physical function every quay (R383). `held` is what a ring in
host memory holds at CI. -/
def readPeek (func q held : Nat) (s : State) : Nat × State :=
  match bindOf s q with
  | none => (0, s)
  | some b =>
    if !decodes s func || (func != 0 && b.func != func) then (0, s)
    else
      let s := if b.toHost then restartIdle q s else s
      if occupancy s q = 0 then (0, s)
      else
        let (h, s) := if inDevice s q then ringHeader q s else (held, s)
        (if b.toHost && !bit h 63 then 0 else h, s)

/-- A read of QUA_PEEK answered. -/
def peekRead (func q held : Nat) (s : State) : State :=
  let (h, s) := readPeek func q held s
  s.emit (.value h)

/-- QUAY_PEEK_READ: a full-width read (R405). -/
def execQuayPeekRead (func q held : Nat) (s : State) : Result :=
  .next (ordered func [] (.quayPeekRead func q held) (peekRead func q held) s)

/-- QUAY_IDLE_TIMEOUT: the idle timer, which runs while the quay holds words, reaches IDLE_US (R410). -/
def execQuayIdleTimeout (q : Nat) (s : State) : Result :=
  .next (
    if (bindOf s q).isSome && occupancy s q != 0 && s.get (R.QUA_NOTICE_IDLE_US.at [q]) != 0 && !(s.quay q).idleDone then
      quayNotice R.QUA_STATUS_IDLE true q (s.modQuay q (fun v => { v with idleDone := true }))
    else s)

/-- Whether a ring may be enabled (R385, R411): its size, and for device memory one slice, not enciphered, open to the host
both ways. -/
def ringOk (s : State) (q : Nat) : Bool :=
  let n := s.get (R.QUA_CTRL_SIZE_LOG2.at [q])
  let base := ringBase s q
  let bytes := 64 * 2 ^ n
  decide (8 ≤ n) && decide (n ≤ 20) && (!inDevice s q ||
    (decide (base < 2 ^ 37) && decide (dpaOffset base + bytes ≤ 2 ^ 29)
      && (List.range (cdiv bytes 65536 + 1)).all (fun u =>
        let r := regionOf s (dpaIsle base) (Nat.min (dpaOffset base + u * 65536) (dpaOffset base + bytes - 1))
        !r.enc && r.hostRd && r.hostWr)))

/-- QUA_CTRL written with ENABLE = 1 by the owner: PI and CI are 0 and SEQ is SEQ_START (R411). A quay already enabled drops what
it was doing, as its indices start again. -/
def quayEnable (func q ctrl : Nat) (s : State) : State :=
  match bindOf s q with
  | none => s
  | some b =>
    if !decodes s func || b.func != func then s
    else
      let s := writeRest func (R.QUA_CTRL_ENABLE.at [q]).addr ctrl s
      if !ringOk s q then s.set (R.QUA_CTRL_ENABLE_ERR.at [q]) 1
      else
        let s := if quayEnabled s q then quayDrop q s else s
        let s := ((s.set (R.QUA_PROD_PI.at [q]) 0).set (R.QUA_CONS_CI.at [q]) 0).set (R.QUA_SEQ_SEQ.at [q])
          (s.get (R.QUA_SEQ_START_START.at [q]))
        restartIdle q (s.set (R.QUA_CTRL_ENABLE.at [q]) 1)

/-- QUAY_ENABLE (R411). -/
def execQuayEnable (func q ctrl : Nat) (s : State) : Result :=
  .next (ordered func [] (.quayEnable func q ctrl) (quayEnable func q ctrl) s)

/-- QUA_CTRL written with ENABLE = 0, by the owner or by the physical function (R383, R412). -/
def quayDisable (func q ctrl : Nat) (s : State) : State :=
  match bindOf s q with
  | none => s
  | some b =>
    if !decodes s func || (func != 0 && b.func != func) then s
    else
      let s := if b.func == func then writeRest func (R.QUA_CTRL_ENABLE.at [q]).addr ctrl s else s
      if quayEnabled s q then quayOff q s else s

/-- QUAY_DISABLE (R412). -/
def execQuayDisable (func q ctrl : Nat) (s : State) : Result :=
  .next (ordered func [] (.quayDisable func q ctrl) (quayDisable func q ctrl) s)

/-- Every quay that a test picks, disabled. -/
def quaysOff (which : QuayBind → Bool) (s : State) : State :=
  match s.image with
  | none => s
  | some im => (im.quays.filter which).foldl (fun t b => if quayEnabled t b.quay then quayOff b.quay t else t) s

end Sys2Proof.Machine
end

