-- ==== Sys2Proof/Machine/Harbour.lean ====
section
/-!
DEFINITION. Harbour ports: lock (R480 to R482), flits (R486 to R491), slots (R492 to R503), control flits (R509, R510),
violations and quarantine (R511 to R514), and retraining (R515 to R518).
-/
namespace Sys2Proof.Machine

def State.port (s : State) (p : Nat) : Port := KMap.get {} s.ports p
def State.setPort (s : State) (p : Nat) (v : Port) : State := { s with ports := KMap.put {} s.ports p v }
def State.modPort (s : State) (p : Nat) (f : Port → Port) : State := s.setPort p (f (s.port p))

/-- Port states. -/
def portOff : Nat := 0
def portTraining : Nat := 1
def portLocking : Nat := 2
def portUp : Nat := 3

def portState (s : State) (p : Nat) : Nat := s.get (R.HAR_STATUS_STATE.at [p])
def quarantined (s : State) (p : Nat) : Bool := s.flag (R.HAR_STATUS_QUARANTINED.at [p])

/-- The domain of a port's harbour die: PD14 or PD15 (R520). -/
def portDomain (p : Nat) : Nat := 14 + p / 4

/-- A port that joins its transmitter to its own receiver, and takes no part in time transfer (R566). -/
def loopback (s : State) (p : Nat) : Bool := s.get (R.HAR_STATUS_ROLE.at [p]) == 2

/-- A port that is UP and not quarantined. -/
def portUsable (s : State) (p : Nat) : Bool := portState s p == portUp && !quarantined s p

/-- The module's number (R527). -/
def moduleNumber (s : State) : Nat := s.get R.GLB_RACK_MOD_STRAP

/-! Slot tables (R492). -/

structure SlotEntry where
  kind : Nat
  peer : Nat
  stat : Bool
  isle : Nat
  start : Nat
  lines : Nat
  cycle : Nat
  deriving DecidableEq, Repr

def slotEntryOf (e : Nat) : SlotEntry :=
  ⟨bits e 0 8, bits e 8 6, bit e 14, bits e 16 8, bits e 32 32, bits e 64 16, bits e 96 28⟩

/-- A slot of a port in the image in force. -/
def slotOf (s : State) (p slot : Nat) : Option SlotEntry :=
  match s.image with
  | none => none
  | some im => (im.slots.find? (fun r => r.port == p && r.slot == slot)).map (fun r => slotEntryOf r.entry)

def SlotEntry.bytes (e : SlotEntry) : Nat := 64 * e.lines
/-- LEN of R493. -/
def SlotEntry.len (e : SlotEntry) : Nat := cdiv e.bytes 240

/-- The slots of a port, with their numbers. -/
def slotsOf (s : State) (p : Nat) : List (Nat × SlotEntry) :=
  match s.image with
  | none => []
  | some im => (im.slots.filter (fun r => r.port == p)).map (fun r => (r.slot, slotEntryOf r.entry))

/-- The most recent rendezvous FN. -/
def lastRendezvous (s : State) : Option Nat :=
  let r := s.get R.LHT_RDV_CFG_RDV_PERIOD
  let fn := s.get R.LHT_FN_FN
  if r = 0 then none else some (fn - fn % r)

/-! Flits. -/

/-- CRC-32C (Castagnoli) of bytes (R486). -/
def crcStep (c : Nat) : Nat := if bit c 0 then (c / 2).xor 0x82F63B78 else c / 2
def crcByte (c b : Nat) : Nat := (List.range 8).foldl (fun c _ => crcStep c) (c.xor b)
def crc32c (bs : List Nat) : Nat := ((bs.foldl crcByte 0xFFFFFFFF)).xor 0xFFFFFFFF

structure Flit where
  kind : Nat
  cause : Nat
  src : Nat
  dst : Nat
  bcast : Bool
  lsn : Nat
  slot : Nat
  idx : Nat
  fn : Nat
  payload : List Nat
  reservedOk : Bool
  deriving DecidableEq, Repr

/-- The fields of a flit's bytes. -/
def flitOf (b : List Nat) : Flit :=
  let b0 := leAt b 0 1
  let b1 := leAt b 1 1
  let b2 := leAt b 2 1
  let kind := bits b0 0 4
  { kind := kind, cause := bits b0 4 2, src := bits b1 0 6, dst := bits b2 0 6, bcast := bit b2 6, lsn := leAt b 3 3,
    slot := bits (leAt b 6 2) 0 12, idx := leAt b 8 2, fn := leAt b 10 2, payload := (b.drop 12).take 240,
    reservedOk := bits b0 6 2 == 0 && bits b1 6 2 == 0 && !bit b2 7 && bits (leAt b 6 2) 12 4 == 0
      && (kind == 1 || (bits b0 4 2 == 0 && leAt b 6 2 == 0 && leAt b 8 2 == 0)) }

/-- Whether a flit's CRC holds. -/
def flitCrcOk (b : List Nat) : Bool := b.length == 256 && crc32c (b.take 252) == leAt b 252 4

def le (n v : Nat) : List Nat := (leBytes n v).map (fun x => x.toNat)

/-- A payload filled with zeros to 240 bytes. -/
def padPayload (bs : List Nat) : List Nat := bs.take 240 ++ List.replicate (240 - bs.length) 0

/-- A flit sent on a port with its next LSN, which an IDLE flit does not use up (R489). -/
def sendFlit (p kind cause dst : Nat) (bcast : Bool) (slot idx fn : Nat) (payload : List Nat) (s : State) : State :=
  let lsn := s.get (R.HAR_LSN_TX_NEXT.at [p])
  let head := [kind + cause * 16, moduleNumber s, dst + b2n bcast * 64] ++ le 3 lsn ++ le 2 slot ++ le 2 idx ++ le 2 (fn % 65536)
  let body := head ++ padPayload payload
  let s := s.emit (.flit p (body ++ le 4 (crc32c body)))
  if kind = 0 then s else s.count (R.HAR_LSN_TX_NEXT.at [p])

/-! Changes of state. -/

/-- A port gains lock or ends training: it is UP, and its link sequence numbers restart (R491, R515, R517). -/
def portEnterUp (p cycle : Nat) (s : State) : State :=
  let s := s.set (R.HAR_STATUS_STATE.at [p]) portUp
  let s := (s.set (R.HAR_LSN_TX_NEXT.at [p]) 0).set (R.HAR_LSN_RX_EXPECT.at [p]) 0
  let s := s.modPort p (fun v => { v with backAt := some cycle, invalid := 0, recent := [] })
  raise 0x0401 p 0 s

/-- A port enters a state other than UP; leaving UP is reported, and its slots' transmit data is discarded (R515, R518). -/
def portLeave (p state : Nat) (s : State) : State :=
  let wasUp := portState s p == portUp
  let s := (s.set (R.HAR_STATUS_STATE.at [p]) state).set (R.LHT_PORT_OFFSET_VALID.at [p]) 0
  let s := s.modPort p (fun v => { v with tx := [], header := none, valid := 0, invalid := 0, recent := [] })
  if wasUp then raise 0x0402 p 0 s else s

/-- Quarantine ends (R514). -/
def quarantineEnd (p : Nat) (s : State) : State :=
  if quarantined s p then raise 0x0406 p 0 (s.set (R.HAR_STATUS_QUARANTINED.at [p]) 0) else s

/-- A port in OFF with a role that trains, enabled and powered, enters TRAINING (R566, R582). -/
def portTrain (p : Nat) (s : State) : State :=
  if s.flag (R.HAR_CTRL_ENABLE.at [p]) && s.get (R.HAR_STATUS_ROLE.at [p]) != 0 && portState s p == portOff
      && domainOn s (portDomain p) then s.set (R.HAR_STATUS_STATE.at [p]) portTraining
  else s

/-- PORT_ENABLE: 1 written to ENABLE. -/
def execPortEnable (p : Nat) (s : State) : Result :=
  .next (
    if !decodes s 0 || !domainOn s (portDomain p) then s
    else portTrain p (s.set (R.HAR_CTRL_ENABLE.at [p]) 1))

/-- PORT_DISABLE: 0 written to ENABLE (R514). -/
def execPortDisable (p : Nat) (s : State) : Result :=
  .next (
    if !decodes s 0 || !domainOn s (portDomain p) then s
    else inOneCycle (fun s =>
      let s := portLeave p portOff (s.set (R.HAR_CTRL_ENABLE.at [p]) 0)
      let s := (s.modPort p (fun v => { v with retrainAt := none, retrainOwn := false })).set
        (R.HAR_STATUS_RETRAIN_PENDING.at [p]) 0
      quarantineEnd p s) s)

/-- QUARANTINE_CLEAR: 1 written to QUARANTINED (R514), at a cycle of the local frame. -/
def execQuarantineClear (p cycle : Nat) (s : State) : Result :=
  .next (
    if !decodes s 0 || !domainOn s (portDomain p) || !quarantined s p then s
    else quarantineEnd p (s.modPort p (fun v => { v with backAt := some cycle })))

/-! Lock. -/

/-- Whether a codeword header is valid after the one expected (R481, R482). -/
def headerValid (expect : Option (Nat × Nat)) (h : Nat) : Bool :=
  bits h 11 9 == 0x169 && (match expect with
    | some (first, pair) => bits h 0 1 == first && bits h 1 10 == pair
    | none => true)

/-- The header that follows a header: FIRST alternates, and PAIR_NO goes up with each pair. -/
def headerAfter (h : Nat) : Nat × Nat :=
  if bits h 0 1 = 1 then (0, bits h 1 10) else (1, (bits h 1 10 + 1) % 1024)

/-- CODEWORD_RECEIVE: a codeword's header as received, and what the decoder of Clause 91 found: corrected, uncorrectable, or
neither; `cycle` is the cycle of the local frame (R479 to R482, R491, R515). -/
def execCodewordReceive (p header : Nat) (corrected uncorrectable : Bool) (cycle : Nat) (s : State) : Result :=
  let st := portState s p
  if st = portOff || st = portTraining then .next s
  else
    let s := if corrected then
      (s.count (R.HAR_FEC_CORR_CODEWORDS.at [p])).modPort p (fun v => { v with fecWindow := v.fecWindow + 1 }) else s
    let s := if uncorrectable then s.bump (R.HAR_FEC_UNCORR_CODEWORDS.at [p]) else s
    let v := s.port p
    let ok := headerValid v.header header
    let next := if ok then some (headerAfter header)
      else v.header.map (fun e => headerAfter (e.1 + e.2 * 2))
    let v : Port :=
      { v with
        header := next
        valid := if ok then v.valid + 1 else 0
        invalid := if ok then 0 else v.invalid + 1
        recent := (uncorrectable :: v.recent).take 64 }
    let s := s.setPort p v
    if st = portUp then
      if v.invalid ≥ 3 || (v.recent.filter (fun b => b)).length ≥ 8 then .next (portLeave p portLocking s) else .next s
    else if v.valid ≥ 4 then .next (portEnterUp p cycle s)
    else .next s

/-- LOCKING_TIMEOUT: lock was not regained within 1 ms (R515). -/
def execLockingTimeout (p : Nat) (s : State) : Result :=
  .next (if portState s p == portLocking then portLeave p portTraining s else s)

/-- PMD_TRAINING_COMPLETE (R517). -/
def execPmdTrainingComplete (p cycle : Nat) (s : State) : Result :=
  .next (if portState s p == portTraining then portEnterUp p cycle s else s)

/-! Violations (R511, R512). -/

/-- A violation counted, and its PROTEST queued if the rack frame allows one more. -/
def violation (p reason : Nat) (f : Flit) (s : State) : State :=
  let s := s.bump (R.HAR_VIOL_COUNT.at [p, reason - 1])
  let s := s.bump (R.HAR_QUAR_STAT_WINDOW_COUNT.at [p])
  let s := s.modPort p (fun v => { v with reasons := KMap.put 0 v.reasons reason (satAdd 16 (KMap.get 0 v.reasons reason) 1) })
  let s := s.modPort p (fun v =>
    if v.protested < 4 then { v with protested := v.protested + 1, protests := v.protests ++ [⟨reason, f.lsn, f.slot, f.fn⟩] }
    else v)
  let s := raiseOnce 0x0404 p reason s
  let thresh := s.get (R.HAR_QUAR_CFG_QUAR_THRESH.at [p])
  if thresh != 0 && decide (thresh ≤ s.get (R.HAR_QUAR_STAT_WINDOW_COUNT.at [p])) && !quarantined s p then
    raise 0x0405 p 0 ((s.set (R.HAR_STATUS_QUARANTINED.at [p]) 1).set (R.LHT_PORT_OFFSET_VALID.at [p]) 0)
  else s

/-- QUARANTINE_WINDOW_END: a window of QUAR_WINDOW rack frames ends, at an FN that is a multiple of QUAR_WINDOW and once at
that FN; a QUAR_WINDOW of 0 is applied as 1 (R512). -/
def execQuarantineWindowEnd (p : Nat) (s : State) : Result :=
  let fn := s.get R.LHT_FN_FN
  .next (
    if fn % Nat.max 1 (s.get (R.HAR_QUAR_CFG_QUAR_WINDOW.at [p])) != 0 || (s.port p).windowFn == some fn then s
    else (s.modPort p (fun v => { v with reasons := [], windowFn := some fn })).set (R.HAR_QUAR_STAT_WINDOW_COUNT.at [p]) 0)

/-! Reception. -/

/-- What a received flit comes to before its type is looked at: dropped, a violation, or accepted. -/
inductive Verdict where
  | drop (s : State)
  | violates (reason : Nat) (s : State)
  | accept (s : State)

/-- How far a flit's LSN is ahead of the one expected (R490). -/
def lsnAhead (p : Nat) (f : Flit) (s : State) : Nat := (f.lsn + 2 ^ 24 - s.get (R.HAR_LSN_RX_EXPECT.at [p])) % 2 ^ 24

/-- Whether a flit is stale (R490). -/
def stale (p : Nat) (f : Flit) (s : State) : Bool := decide (2 ^ 23 ≤ lsnAhead p f s)

/-- The flits lost before a flit counted, and the expected LSN moved on unless the flit is stale (R490). -/
def followLsn (p : Nat) (f : Flit) (s : State) : State :=
  if stale p f s then s
  else
    let d := lsnAhead p f s
    (if d = 0 then s else s.bump (R.HAR_FLIT_ERR_LOST.at [p]) d).set (R.HAR_LSN_RX_EXPECT.at [p]) (if f.kind = 0 then f.lsn else f.lsn + 1)

/-- A CONTROL flit counted in its rack frame (reason 9 of R509). -/
def countControl (p : Nat) (f : Flit) (s : State) : State :=
  if f.kind = 3 then s.modPort p (fun v => { v with controls := v.controls + 1 }) else s

/-- The checks every flit passes through: form, destination, sequence and frame number (R486, R490, R513, reasons 1, 2, 3, 6
and 9). The expected LSN follows every flit in sequence or ahead of it. -/
def judgeFlit (p : Nat) (f : Flit) (s : State) : Verdict :=
  if (f.kind = 1 || f.kind = 2) && quarantined s p then .drop ((followLsn p f s).bump (R.HAR_QUAR_STAT_QUAR_DROPPED.at [p]))
  else if f.kind > 3 || !f.reservedOk then .violates 1 (countControl p f (followLsn p f s))
  else if (f.bcast && (f.kind != 2 || f.dst != 0)) || (!f.bcast && f.dst != moduleNumber s) then
    .violates 2 (countControl p f (followLsn p f s))
  else if stale p f s then .violates 3 (countControl p f (followLsn p f s))
  else if f.kind != 1 && (resolveFn (s.get R.LHT_FN_FN) f.fn).isNone then .violates 6 (countControl p f (followLsn p f s))
  else if f.kind = 3 && ((countControl p f (followLsn p f s)).port p).controls > 16 then
    .violates 9 (countControl p f (followLsn p f s))
  else .accept (countControl p f (followLsn p f s))

/-- A flit received on a port: nothing unless the port is UP; a damaged one is dropped and counted (R488). -/
def receive (p : Nat) (bytes : List Nat) (damaged : Bool) (act : Flit → State → State) (s : State) : State :=
  if portState s p != portUp then s
  else if damaged || !flitCrcOk bytes then s.bump (R.HAR_FLIT_ERR_DAMAGED.at [p])
  else
    let f := flitOf bytes
    match judgeFlit p f s with
    | .drop t => t
    | .violates r t => violation p r f t
    | .accept t => act f t

/-- The TYPE of a flit's bytes, and its OPCODE. -/
def typeOf (bytes : List Nat) : Nat := bits (leAt bytes 0 1) 0 4
def opcodeOf (bytes : List Nat) : Nat := leAt bytes 12 1

/-- FLIT_RECEIVE: an IDLE flit, a damaged flit, or one of no defined type or opcode (R487 to R490). -/
def execFlitReceive (p : Nat) (bytes : List Nat) (damaged : Bool) (s : State) : Result :=
  let t := typeOf bytes
  if !damaged && flitCrcOk bytes && (t = 1 || t = 2 || (t = 3 && 1 ≤ opcodeOf bytes && opcodeOf bytes ≤ 3)) then .next s
  else .next (receive p bytes damaged (fun f s => if f.kind = 3 then violation p 8 f s else s) s)

def rxKey (slot idx : Nat) : Nat := slot * 512 + idx

/-- A DATA flit judged against its slot (R499). -/
def takeData (p cycle : Nat) (f : Flit) (s : State) : State :=
  match slotOf s p f.slot with
  | none => violation p 4 f s
  | some e =>
    if e.kind != 2 then violation p 4 f s
    else if f.src != e.peer || f.idx ≥ e.len || (s.port p).rx.any (fun x => x.1 == rxKey f.slot f.idx) || cycle ≥ e.cycle then
      violation p 5 f s
    else if (resolveFn (s.get R.LHT_FN_FN) f.fn).isNone || resolveFn (s.get R.LHT_FN_FN) f.fn != lastRendezvous s then
      violation p 6 f s
    else s.modPort p (fun v => { v with rx := v.rx ++ [(rxKey f.slot f.idx, ⟨f.cause, f.payload⟩)] })

/-- DATA_FLIT_RECEIVE: `cycle` is the cycle of the local frame at its arrival (R499). -/
def execDataFlitReceive (p : Nat) (bytes : List Nat) (damaged : Bool) (cycle : Nat) (s : State) : Result :=
  if typeOf bytes != 1 then .next s else .next (receive p bytes damaged (takeData p cycle) s)

/-! Control flits. -/

/-- Whether a control payload holds only its fields (R509): HEARTBEAT, PROTEST and RETRAIN. -/
def controlFormOk (f : Flit) : Bool :=
  let z := fun lo n => ((f.payload.drop lo).take n).all (fun b => b == 0)
  match f.payload.headD 0 with
  | 1 => z 3 5 && z 19 1 && z 22 218
  | 2 => z 5 1 && z 12 228 && leAt f.payload 6 2 < 4096
  | 3 => z 1 7 && z 16 224
  | _ => false

/-- A control flit: its SRC is the link partner, which carries this module's number (R529), and its form. -/
def takeControl (p : Nat) (act : Flit → State → State) (f : Flit) (s : State) : State :=
  if !controlFormOk f then violation p 8 f s else act f s

/-- HEARTBEAT_RECEIVE: the partner's port, state, FN, expected LSN and violations are taken (R509). -/
def execHeartbeatReceive (p : Nat) (bytes : List Nat) (damaged : Bool) (s : State) : Result :=
  if typeOf bytes != 3 || opcodeOf bytes != 1 then .next s
  else .next (receive p bytes damaged (takeControl p (fun f s => s.modPort p (fun v =>
    { v with partner := some (leAt f.payload 1 1, leAt f.payload 2 1, leAt f.payload 8 8, leAt f.payload 16 3,
        leAt f.payload 20 2) }))) s)

/-- PROTEST_RECEIVE: recorded, and raised as 0x0403 (R509). -/
def execProtestReceive (p : Nat) (bytes : List Nat) (damaged : Bool) (s : State) : Result :=
  if typeOf bytes != 3 || opcodeOf bytes != 2 then .next s
  else .next (receive p bytes damaged (takeControl p (fun f s =>
    let reason := leAt f.payload 1 1
    let s := ((s.set (R.HAR_PROTEST_RX_REASON.at [p]) reason).set (R.HAR_PROTEST_RX_LSN.at [p]) (leAt f.payload 2 3))
    let s := (s.set (R.HAR_PROTEST_RX_SLOT.at [p]) (leAt f.payload 6 2)).set (R.HAR_PROTEST_RX_FN.at [p]) (leAt f.payload 8 2)
    raise 0x0403 p reason (s.bump (R.HAR_PROTEST_RX_COUNT.at [p])))) s)

/-- RETRAIN_RECEIVE: honoured when its tick lies 1 to 65,535 rack frames ahead, a violation otherwise (R510). -/
def execRetrainReceive (p : Nat) (bytes : List Nat) (damaged : Bool) (s : State) : Result :=
  if typeOf bytes != 3 || opcodeOf bytes != 3 then .next s
  else .next (receive p bytes damaged (takeControl p (fun f s =>
    let fn := leAt f.payload 8 8
    let now := s.get R.LHT_FN_FN
    if now < fn && fn ≤ now + 65535 then
      (s.modPort p (fun v => { v with retrainAt := some fn, retrainOwn := false })).set (R.HAR_STATUS_RETRAIN_PENDING.at [p]) 1
    else violation p 8 f s)) s)

/-! Sending. -/

/-- A position of the time region filled in this rack frame. -/
def post (p pos : Nat) (s : State) : State := s.modPort p (fun v => { v with posted := pos :: v.posted })

/-- HEARTBEAT_SEND: at position 88 of every rack frame, once, on a port that is UP (R509). -/
def execHeartbeatSend (p : Nat) (s : State) : Result :=
  .next (
    if portState s p != portUp || (s.port p).posted.contains 88 then s
    else
      let s := post p 88 s
      let fn := s.get R.LHT_FN_FN
      let body := [1, p, if quarantined s p then 4 else 3, 0, 0, 0, 0, 0] ++ le 8 fn ++
        le 3 (s.get (R.HAR_LSN_RX_EXPECT.at [p])) ++ [0] ++ le 2 (s.get (R.HAR_QUAR_STAT_WINDOW_COUNT.at [p]))
      sendFlit p 3 0 (moduleNumber s) false 0 0 fn body s)

/-- PROTEST_SEND: the first PROTEST waiting goes out in a free position (R511). -/
def execProtestSend (p : Nat) (s : State) : Result :=
  .next (
    match (s.port p).protests with
    | [] => s
    | x :: rest =>
      if portState s p != portUp then s
      else
        let s := s.modPort p (fun v => { v with protests := rest })
        let count := KMap.get 0 (s.port p).reasons x.reason
        let body := [2, x.reason] ++ le 3 x.lsn ++ [0] ++ le 2 x.slot ++ le 2 x.fn ++ le 2 count
        let s := sendFlit p 3 0 (moduleNumber s) false 0 0 (s.get R.LHT_FN_FN) body s
        let s := ((s.set (R.HAR_PROTEST_TX_REASON.at [p]) x.reason).set (R.HAR_PROTEST_TX_LSN.at [p]) x.lsn).set
          (R.HAR_PROTEST_TX_SLOT.at [p]) x.slot
        (s.set (R.HAR_PROTEST_TX_FN.at [p]) x.fn).bump (R.HAR_PROTEST_TX_COUNT.at [p]))

/-- The CAUSE of a DATA flit sent now (R498). The ISLE of a refuge slot has no use here (R748). -/
def sendCause (s : State) (p slot fn : Nat) (e : SlotEntry) : Nat :=
  let voided := decide (slot < 3072) && (match archOf s e.isle with
    | some a => (s.arch a).rdvVoid
    | none => false)
  if s.frame.met != some fn then 3 else if voided then 2 else if KMap.get [] (s.port p).tx slot = [] then 1 else 0

/-- The DATA flits a port has sent at a rendezvous FN (R498). -/
def sentAt (s : State) (p fn : Nat) : List Nat := if (s.port p).sentFn = some fn then (s.port p).sent else []

/-- DATA_SLOT_TRANSMIT: flit `idx` of a DATA_TX slot is sent at its position of the rendezvous, once (R498, R518); none is
sent in FREE or ACQUIRE. -/
def execDataSlotTransmit (p slot idx : Nat) (s : State) : Result :=
  .next (
    match slotOf s p slot, lastRendezvous s with
    | some e, some fn =>
      if e.kind != 1 || idx ≥ e.len || portState s p != portUp || s.get R.LHT_STATUS_STATE ≤ 1
          || (sentAt s p fn).contains (rxKey slot idx) then s
      else
        let s := s.modPort p (fun v => { v with sentFn := some fn, sent := rxKey slot idx :: sentAt s p fn })
        let cause := sendCause s p slot fn e
        let data := if cause = 0 then ((KMap.get [] (s.port p).tx slot).drop (240 * idx)).take 240 else []
        sendFlit p 1 cause e.peer false slot idx fn data s
    | _, _ => s)

/-! Slots received (R500 to R503). -/

/-- Cycles from the start of the frame to flit position x: T of R495. -/
def flitCycles (s : State) (x : Nat) : Nat := x * 512 * s.get R.PWR_CLK_FREQ_ISLE_MHZ / 100000

/-- Whether a port was not UP, or was quarantined, at any time from a slot's START. -/
def portCause (s : State) (p : Nat) (e : SlotEntry) : Bool :=
  !portUsable s p || (match (s.port p).backAt with
    | some c => decide (flitCycles s e.start ≤ c)
    | none => false)

/-- The accepted flits of a slot, by index. -/
def rxOf (s : State) (p slot : Nat) : List (Nat × RxFlit) :=
  ((s.port p).rx.filter (fun x => x.1 / 512 == slot)).map (fun x => (x.1 % 512, x.2))

/-- The indices of a slot's intact flits (R500). -/
def intactOf (s : State) (p slot : Nat) (e : SlotEntry) : List Nat :=
  if portCause s p e then [] else ((rxOf s p slot).filter (fun x => x.2.cause == 0)).map (fun x => x.1)

/-- The CAUSE of a slot (R502). -/
def slotCause (s : State) (p slot : Nat) (e : SlotEntry) : Nat :=
  let fs := rxOf s p slot
  let carried := fun c => fs.any (fun x => x.2.cause == c)
  if portCause s p e then 1
  else if fs.isEmpty then 2
  else if carried 3 then 3
  else if carried 2 then 4
  else if carried 1 then 5
  else if fs.length < e.len then 6
  else 0

/-- The payload an HRECV writes, and its status line (R500, R501). -/
def slotPayload (s : State) (p slot : Nat) (e : SlotEntry) : List Nat :=
  let ok := intactOf s p slot e
  let fs := rxOf s p slot
  let flit := fun k => if ok.contains k then
      match fs.find? (fun x => x.1 == k) with
      | some x => padPayload x.2.payload
      | none => List.replicate 240 0
    else List.replicate 240 0
  let data := (((List.range e.len).map flit).flatten).take e.bytes
  let map := (ok.map (fun k => 2 ^ k)).sum
  let status := le 8 ((lastRendezvous s).getD 0) ++ [slotCause s p slot e, 0] ++ le 2 ok.length ++ le 4 0 ++ le 32 map ++
    List.replicate 16 0
  data ++ (if e.stat then status else [])

/-- A slot judged at its CYCLE: it counts in HAR_SLOT_STAT, and the first one of a rendezvous that is not intact raises
0x0407 (R502). -/
def judgeSlot (p slot : Nat) (e : SlotEntry) (s : State) : State :=
  let fn := (lastRendezvous s).getD 0
  let s :=
    if (s.port p).judged == some fn then s
    else
      let s := s.modPort p (fun v => { v with judged := some fn })
      let zero := fun (t : State) (f : Field) => t.set (f.at [p]) 0
      ([R.HAR_SLOT_STAT_INTACT, R.HAR_SLOT_STAT_NOT_INTACT, R.HAR_SLOT_STAT_FIRST_BAD, R.HAR_SLOT_STAT_CAUSE].foldl zero s).set
        (R.HAR_SLOT_STAT_FN.at [p]) fn
  let cause := slotCause s p slot e
  if cause = 0 then s.count (R.HAR_SLOT_STAT_INTACT.at [p])
  else
    let first := s.get (R.HAR_SLOT_STAT_NOT_INTACT.at [p]) = 0
    let lower := first || decide (slot < s.get (R.HAR_SLOT_STAT_FIRST_BAD.at [p]))
    let s := s.count (R.HAR_SLOT_STAT_NOT_INTACT.at [p])
    let s := if lower then (s.set (R.HAR_SLOT_STAT_FIRST_BAD.at [p]) slot).set (R.HAR_SLOT_STAT_CAUSE.at [p]) cause else s
    if first then raise 0x0407 p slot s else s

/-- A slot's receive buffer released. -/
def releaseSlot (p slot : Nat) (s : State) : State :=
  s.modPort p (fun v => { v with rx := v.rx.filter (fun x => x.1 / 512 != slot) })

/-- RECEIVE_BUFFER_DISCARD: the buffer of a slot whose HRECV does not run, judged and discarded (R503). -/
def execReceiveBufferDiscard (p slot : Nat) (s : State) : Result :=
  .next (
    match slotOf s p slot with
    | some e => if e.kind = 2 then releaseSlot p slot (judgeSlot p slot e s) else s
    | none => s)

/-! Voluntary retrain (R516). -/

/-- The first rack tick at or after the end of every data slot of the most recent rendezvous, and at least two ahead. -/
def retrainTick (s : State) (p : Nat) : Nat :=
  let fn := s.get R.LHT_FN_FN
  let period := s.get R.LHT_FRAME_CFG_PERIOD_US * 1000
  let origin := s.get R.LHT_TICK_ORIGIN_ORIGIN
  match lastRendezvous s with
  | none => fn + 2
  | some r =>
    let anchor := cdiv ((origin + r * period) * 100) 512
    let last := ((slotsOf s p).map (fun x => x.2.start + x.2.len)).foldl Nat.max 0
    let after := if last = 0 then r else cdiv ((anchor + last) * 512 - origin * 100) (Nat.max (period * 100) 1)
    Nat.max (fn + 2) after

/-- A retrain asked for: RETRAIN names the tick (R516). -/
def requestRetrain (p : Nat) (s : State) : State :=
  if portState s p != portUp then s
  else
    let tick := retrainTick s p
    let s := s.modPort p (fun v => { v with retrainAt := some tick, retrainOwn := true })
    let s := s.set (R.HAR_STATUS_RETRAIN_PENDING.at [p]) 1
    sendFlit p 3 0 (moduleNumber s) false 0 0 (s.get R.LHT_FN_FN) ([3, 0, 0, 0, 0, 0, 0, 0] ++ le 8 tick) s

/-- RETRAIN_REQUEST: 1 written to RETRAIN. -/
def execRetrainRequest (p : Nat) (s : State) : Result :=
  .next (if decodes s 0 && domainOn s (portDomain p) then requestRetrain p s else s)

/-- RETRAIN_TICK: at the tick named, the port enters full training; a retrain of this module's own is reported. -/
def execRetrainTick (p : Nat) (s : State) : Result :=
  .next (
    match (s.port p).retrainAt with
    | none => s
    | some tick =>
      if s.get R.LHT_FN_FN < tick then s
      else
        let own := (s.port p).retrainOwn
        let s := s.modPort p (fun v => { v with retrainAt := none, retrainOwn := false })
        let s := s.set (R.HAR_STATUS_RETRAIN_PENDING.at [p]) 0
        inOneCycle (fun s =>
          let s := portLeave p portTraining s
          if own then raise 0x0409 p 0 s else s) s)

end Sys2Proof.Machine
end

