-- ==== Sys2Proof/Machine/Float.lean ====
section
/-!
DEFINITION. Number formats and exact arithmetic (R149 to R162, R189, R235 to R241, R358, R361).
A finite value is kept exactly as sign, magnitude and power of two; each format has one rounding, to nearest
with ties to even. A zero result is +0 unless every addend is −0, as IEEE 754 has it (PRESUMED, log entry 19).
-/
namespace Sys2Proof.Machine

/-- An exact floating-point value: a NaN, an infinity, or (−1)^neg × mag × 2^exp. -/
inductive Fl where
  | nan
  | inf (neg : Bool)
  | num (neg : Bool) (mag : Nat) (exp : Int)
  deriving DecidableEq, Repr

/-- A binary format: exponent bits, fraction bits, and whether it is E4M3 (no infinity, one NaN per sign). -/
structure FlFormat where
  expBits : Nat
  fracBits : Nat
  e4m3 : Bool
  deriving DecidableEq, Repr

def fmtE4M3 : FlFormat := ⟨4, 3, true⟩
def fmtE5M2 : FlFormat := ⟨5, 2, false⟩
def fmtBf16 : FlFormat := ⟨8, 7, false⟩
def fmtBinary16 : FlFormat := ⟨5, 10, false⟩
def fmtBinary32 : FlFormat := ⟨8, 23, false⟩

/-- The format code of R189 as a floating-point format, or none for an integer format. -/
def flFormatOf : Nat → Option FlFormat
  | 2 => some fmtE4M3
  | 3 => some fmtE5M2
  | 4 => some fmtBf16
  | 5 => some fmtBinary16
  | 7 => some fmtBinary32
  | _ => none

/-- The width in bits of a format code's element (R189). -/
def fmtBits : Nat → Nat
  | 0 => 8 | 1 => 4 | 2 => 8 | 3 => 8 | 4 => 16 | 5 => 16 | _ => 32

/-- The exponent of the lowest bit of a format's subnormals. -/
def FlFormat.lowExp (f : FlFormat) : Int := 2 - (2 ^ (f.expBits - 1) : Nat) - (f.fracBits : Nat)

/-- The value that a bit pattern stands for. -/
def flDecode (f : FlFormat) (w : Nat) : Fl :=
  let neg := bit w (f.expBits + f.fracBits)
  let e := bits w f.fracBits f.expBits
  let m := bits w 0 f.fracBits
  let top := 2 ^ f.expBits - 1
  if f.e4m3 && e == top && m == 2 ^ f.fracBits - 1 then .nan
  else if !f.e4m3 && e == top then (if m == 0 then .inf neg else .nan)
  else if e == 0 then .num neg m f.lowExp
  else .num neg (2 ^ f.fracBits + m) (f.lowExp + ((e : Int) - 1))

/-- The number of significant bits. -/
def bitLen (m : Nat) : Nat := if m = 0 then 0 else Nat.log2 m + 1

/-- m ÷ 2^d to the nearest integer, ties to even. -/
def roundShift (m d : Nat) : Nat :=
  if d = 0 then m
  else
    let q := m / 2 ^ d
    let r := m % 2 ^ d
    let half := 2 ^ (d - 1)
    if r > half ∨ (r = half ∧ q % 2 = 1) then q + 1 else q

/-- An exact integer times 2^(−r), to the nearest integer, ties to even. -/
def roundShiftInt (i : Int) (r : Nat) : Int :=
  if i < 0 then -((roundShift i.natAbs r : Nat) : Int) else (roundShift i.natAbs r : Nat)

/-- A magnitude rounded to a format's precision at its own exponent: the new magnitude and exponent. -/
def roundMag (f : FlFormat) (m : Nat) (e : Int) : Nat × Int :=
  let want : Int := e + ((bitLen m : Nat) : Int) - ((f.fracBits + 1 : Nat) : Int)
  let q := if want < f.lowExp then f.lowExp else want
  if q ≤ e then (m * 2 ^ (e - q).toNat, q)
  else (roundShift m (q - e).toNat, q)

/-- The largest finite magnitude of a format, at its own lowest exponent step. -/
def FlFormat.maxMag (f : FlFormat) : Nat :=
  if f.e4m3 then 14 * 2 ^ 14 else (2 ^ (f.fracBits + 1) - 1) * 2 ^ (2 ^ f.expBits - 3)

/-- The value rounded once to a format, and whether it overflowed the largest finite value. -/
def flRound (f : FlFormat) : Fl → Fl × Bool
  | .nan => (.nan, false)
  | .inf s => (if f.e4m3 then .num s f.maxMag f.lowExp else .inf s, f.e4m3)
  | .num s m e =>
    if m = 0 then (.num s 0 f.lowExp, false)
    else
      let (m', q) := roundMag f m e
      if m' * 2 ^ (q - f.lowExp).toNat > f.maxMag then
        (if f.e4m3 then .num s f.maxMag f.lowExp else .inf s, true)
      else (.num s m' q, false)

/-- The bit pattern of a value already rounded to a format; NaN is the quiet NaN of R162. -/
def flEncode (f : FlFormat) : Fl → Nat
  | .nan => if f.e4m3 then 0x7F else (2 ^ f.expBits - 1) * 2 ^ f.fracBits + 2 ^ (f.fracBits - 1)
  | .inf s => b2n s * 2 ^ (f.expBits + f.fracBits) + (2 ^ f.expBits - 1) * 2 ^ f.fracBits
  | .num s m e =>
    let a := m * 2 ^ (e - f.lowExp).toNat
    let sgn := b2n s * 2 ^ (f.expBits + f.fracBits)
    if a < 2 ^ f.fracBits then sgn + a
    else
      let sh := bitLen a - (f.fracBits + 1)
      sgn + (sh + 1) * 2 ^ f.fracBits + (a / 2 ^ sh - 2 ^ f.fracBits)

/-- Rounded and encoded, with the overflow flag. -/
def flPack (f : FlFormat) (v : Fl) : Nat × Bool :=
  let (r, o) := flRound f v
  (flEncode f r, o)

def flNeg : Fl → Fl
  | .nan => .nan
  | .inf s => .inf (!s)
  | .num s m e => .num (!s) m e

def flAbs : Fl → Fl
  | .nan => .nan
  | .inf _ => .inf false
  | .num _ m e => .num false m e

def flIsNan : Fl → Bool
  | .nan => true
  | _ => false

/-- The signed magnitude at a lower exponent. -/
def flScaled (s : Bool) (m : Nat) (e low : Int) : Int :=
  let a : Int := ((m * 2 ^ (e - low).toNat : Nat) : Int)
  if s then -a else a

/-- The exact sum. -/
def flAdd : Fl → Fl → Fl
  | .nan, _ => .nan
  | _, .nan => .nan
  | .inf a, .inf b => if a == b then .inf a else .nan
  | .inf a, .num _ _ _ => .inf a
  | .num _ _ _, .inf b => .inf b
  | .num a m e, .num b n g =>
    let low := if e < g then e else g
    let t := flScaled a m e low + flScaled b n g low
    if t = 0 then .num (a && b && m == 0 && n == 0) 0 low
    else .num (t < 0) t.natAbs low

/-- The exact product; infinity × 0 is NaN. -/
def flMul : Fl → Fl → Fl
  | .nan, _ => .nan
  | _, .nan => .nan
  | .inf a, .inf b => .inf (a != b)
  | .inf a, .num b n _ => if n = 0 then .nan else .inf (a != b)
  | .num a m _, .inf b => if m = 0 then .nan else .inf (a != b)
  | .num a m e, .num b n g => .num (a != b) (m * n) (e + g)

def flSub (a b : Fl) : Fl := flAdd a (flNeg b)

/-- The quotient, exact up to a sticky bit far below any format's precision, so that one rounding is correct. -/
def flDiv : Fl → Fl → Fl
  | .nan, _ => .nan
  | _, .nan => .nan
  | .inf _, .inf _ => .nan
  | .inf a, .num b _ _ => .inf (a != b)
  | .num a _ _, .inf b => .num (a != b) 0 0
  | .num a m e, .num b n g =>
    if n = 0 then (if m = 0 then .nan else .inf (a != b))
    else
      let k := 64 + bitLen n
      let q := m * 2 ^ k / n
      let sticky := if m * 2 ^ k % n = 0 then 0 else 1
      .num (a != b) (2 * q + sticky) (e - g - (k : Nat) - 1)

/-- The integer square root, one result bit at a time from bit `k - 1` down. -/
def isqrtFrom : Nat → Nat → Nat → Nat
  | 0, _, r => r
  | k + 1, n, r =>
    let c := r + 2 ^ k
    if c * c ≤ n then isqrtFrom k n c else isqrtFrom k n r

def isqrt (n : Nat) : Nat := isqrtFrom (bitLen n / 2 + 1) n 0

/-- The square root, exact up to a sticky bit. -/
def flSqrt : Fl → Fl
  | .nan => .nan
  | .inf s => if s then .nan else .inf false
  | .num s m e =>
    if m = 0 then .num s 0 e
    else if s then .nan
    else
      let odd := e % 2 ≠ 0
      let m1 := if odd then 2 * m else m
      let e1 := if odd then e - 1 else e
      let n := m1 * 2 ^ 128
      let r := isqrt n
      let sticky := if r * r = n then 0 else 1
      .num false (2 * r + sticky) (e1 / 2 - 64 - 1)

/-- Whether a is less than b, with −0 below +0 (R238); false when either is NaN. -/
def flLess : Fl → Fl → Bool
  | .nan, _ => false
  | _, .nan => false
  | .inf a, .inf b => a && !b
  | .inf a, .num _ _ _ => a
  | .num _ _ _, .inf b => !b
  | .num a m e, .num b n g =>
    let low := if e < g then e else g
    let x := flScaled a m e low
    let y := flScaled b n g low
    x < y || (x == y && a && !b && m == 0 && n == 0)

/-- Equality under the order of R238: −0 and +0 differ, NaN equals nothing. -/
def flEqual (a b : Fl) : Bool := !flIsNan a && !flIsNan b && !flLess a b && !flLess b a

/-- The nearest integer, ties to even, of a finite value. -/
def flToInt : Fl → Int
  | .num s m e =>
    let a : Nat := if e ≥ 0 then m * 2 ^ e.toNat else roundShift m (-e).toNat
    if s then -(a : Int) else (a : Int)
  | _ => 0

def flOfInt (i : Int) : Fl := .num (i < 0) i.natAbs 0

/-- Binary32 bits to a value and back, with one rounding. -/
def f32 (w : Nat) : Fl := flDecode fmtBinary32 w
def r32 (v : Fl) : Nat := (flPack fmtBinary32 v).1

/-- A rounding to binary32 that stays a value, for chains of rounded operations. -/
def rnd32 (v : Fl) : Fl := (flRound fmtBinary32 v).1

/-- The special operands of VFN's bounded functions (R240): the exact result where IEEE 754 or R240 gives it. -/
def vfnSpecial (func : Nat) (x : Fl) : Option Fl :=
  match func, x with
  | _, .nan => some .nan
  | 0, .inf s => some (if s then .num false 0 0 else .inf false)
  | 0, .num _ 0 _ => some (.num false 1 0)
  | 2, .inf s => some (if s then .nan else .num false 0 0)
  | 2, .num s 0 _ => some (.inf s)
  | 2, .num true _ _ => some .nan
  | 3, .inf s => some (if s then .num false 0 0 else .num false 1 0)
  | 4, .inf s => some (.num s 1 0)
  | 5, .inf s => some (if s then .num true 0 0 else .inf false)
  | 9, .inf s => some (if s then .nan else .inf false)
  | 9, .num _ 0 _ => some (.inf true)
  | 9, .num true _ _ => some .nan
  | 9, v => if flEqual v (.num false 1 0) then some (.num false 0 0) else none
  | _, _ => none

/-! The functions of R240 that have an error bound: their true values, as quotients with a relative error below 2⁻²⁰⁰, and what the
bound leaves of the results. -/

/-- A quotient of naturals with a sign. -/
structure Ratio where
  neg : Bool := false
  num : Nat
  den : Nat
  deriving DecidableEq, Repr

/-- A quotient times a power of two. -/
def Ratio.scale (r : Ratio) (e : Int) : Ratio := { r with num := r.num * 2 ^ e.toNat, den := r.den * 2 ^ (-e).toNat }

/-- The first `n` terms from the `k`-th on of the series of e^y, where `t` is that term; all times 2⁵¹². -/
def expTerms : Nat → Nat → Nat → Nat → Nat
  | 0, _, _, _ => 0
  | n + 1, k, y, t => t + expTerms n (k + 1) y (t * y / (2 ^ 512 * (k + 1)))

/-- A number times 2⁵¹², squared `n` times. -/
def squared : Nat → Nat → Nat
  | 0, a => a
  | n + 1, a => squared n (a * a / 2 ^ 512)

/-- e^x, where a magnitude of x above 256, which no result of binary32 tells from 256, counts as 256. -/
def expRatio (neg : Bool) (m : Nat) (e : Int) : Ratio :=
  let y := Nat.min (m * 2 ^ (e + 512).toNat) (2 ^ 520)
  let a := squared 9 (expTerms 100 0 (y / 2 ^ 9) (2 ^ 512))
  if neg then ⟨false, 2 ^ 512, a⟩ else ⟨false, a, 2 ^ 512⟩

/-- The first `n` terms of z + z³/3 + z⁵/5 + … from the one in z^k, where `p` is z^k; all times 2⁵¹². -/
def atanhTerms : Nat → Nat → Nat → Nat → Nat
  | 0, _, _, _ => 0
  | n + 1, k, z, p => p / k + atanhTerms n (k + 2) z (p * z / 2 ^ 512 * z / 2 ^ 512)

/-- ln (p / q) times 2⁵¹², for p / q from 1 to 2. -/
def logBetween (p q : Nat) : Nat :=
  let z := (p - q) * 2 ^ 512 / (p + q)
  2 * atanhTerms 170 1 z z

/-- ln (m × 2^e). -/
def logRatio (m : Nat) (e : Int) : Ratio :=
  let top := bitLen m - 1
  let v := (e + (top : Nat)) * (logBetween 2 1 : Nat) + (logBetween m (2 ^ top) : Nat)
  ⟨decide (v < 0), v.natAbs, 2 ^ 512⟩

/-- The reciprocal square root of m × 2^e. -/
def rsqrtRatio (m : Nat) (e : Int) : Ratio :=
  let (m, e) := if e % 2 = 0 then (m, e) else (2 * m, e - 1)
  (⟨false, isqrt (2 ^ 1024 / m), 2 ^ 512⟩ : Ratio).scale (-(e / 2))

/-- The true value of FUNC 0, 2, 3, 4, 5 or 9 of a finite operand. -/
def vfnTrue (func : Nat) (neg : Bool) (m : Nat) (e : Int) : Ratio :=
  match func with
  | 2 => rsqrtRatio m e
  | 3 => let r := expRatio neg m e; { r with den := r.num + r.den }
  | 4 => let r := expRatio false m (e + 1); ⟨neg, r.num - r.den, r.num + r.den⟩
  | 5 => let r := expRatio neg m e; (⟨neg, m * r.num, r.num + r.den⟩ : Ratio).scale e
  | 9 => logRatio m e
  | _ => expRatio neg m e

/-- The exponent of a binary32 ulp at a value: of its binade, of the subnormals, or of the largest finite numbers. -/
def Ratio.ulp (r : Ratio) : Int :=
  if r.num = 0 then -149
  else
    let l : Int := (bitLen r.num : Nat) - (bitLen r.den : Nat)
    let t := r.scale (-l)
    let q := (if t.den ≤ t.num then l else l - 1) - 23
    if q < -149 then -149 else if 104 < q then 104 else q

/-- The results of binary32 within `bound` ulp of a value, in order. They are looked for in half ulps, since just below a power of two
they lie that close. A result that misses the bound by less than 2⁻⁶⁴ ulp is let through, so that none within it is left out. -/
def withinUlp (bound : Nat) (r : Ratio) : List Fl :=
  let (q, steps) := if r.ulp = -149 then (-149, 1) else (r.ulp - 1, 2)
  let t := (r.scale (-q)).scale 128
  let a : Int := ((t.num / t.den : Nat) : Int)
  let one : Int := ((2 ^ 128 : Nat) : Int)
  let slack : Int := ((bound * steps * 2 ^ 128 + 2 ^ 64 : Nat) : Int)
  let lo := -((slack - a) / one)
  let near := (List.range ((a + slack) / one - lo + 1).toNat).map (fun (k : Nat) =>
    let n := lo + (k : Int)
    Fl.num (r.neg != decide (n < 0)) n.natAbs q)
  (near.filter (fun v => (flRound fmtBinary32 v).2 || flEqual (rnd32 v) v)).map rnd32

/-- FUNC of VFN applied to a binary32 value (R240): correctly rounded where the table says so; elsewhere a result within 1 ulp (FUNC 2)
or 2 ulp of the true value, and which of those is the open value of `Config.vfn` (free value, log entry 14). -/
def vfnFloat (func : Nat) (x : Fl) : Fl :=
  match func with
  | 1 => rnd32 (flDiv (.num false 1 0) x)
  | 6 => flAbs x
  | 7 => flNeg x
  | 8 => rnd32 (flSqrt x)
  | f =>
    match vfnSpecial f x, x with
    | some v, _ => v
    | none, .num s m e =>
      let rs := withinUlp (if f == 2 then 1 else 2) (vfnTrue f s m e)
      nth rs (Config.vfn f (r32 x) % rs.length) .nan
    | none, x => x

end Sys2Proof.Machine
end

