-- ==== Sys2Proof/Machine/Operands.lean ====
section
/-!
DEFINITION. Operand forms of schedule instructions: the fields of a word (R180, R190, R194, R198 to R209), tensor
descriptors (R211 to R218), elements in the lagoon, and the row moves between tensors.
-/
namespace Sys2Proof.Machine

/-! Word fields. -/

def wOffset (w : Nat) : Nat := bits w 100 28
def wOpcode (w : Nat) : Nat := bits w 92 8
def wUnit (w : Nat) : Nat := bits w 88 4
def wRdv (w : Nat) : Bool := bit w 87
/-- One of the four descriptor fields, at bits 0, 8, 16 or 24. -/
def wDesc (w k : Nat) : Nat := bits w (8 * k) 8

/-! Descriptors. -/

/-- A tensor descriptor (R211). -/
structure Desc where
  kind : Nat
  parity : Bool
  esize : Nat
  rows : Nat
  cols : Nat
  base0 : Nat
  base1 : Nat
  pitch : Nat
  step : List Int
  deriving DecidableEq, Repr

/-- The fields of 32 descriptor bytes held as a 256-bit number. -/
def descOf (d : Nat) : Desc :=
  { kind := bits d 0 2, parity := bit d 2, esize := bits d 3 2, rows := bits d 16 16 + 1,
    base0 := bits d 32 32, base1 := bits d 64 32, cols := bits d 96 16 + 1, pitch := bits d 128 32,
    step := [toSigned 32 (bits d 160 32), toSigned 32 (bits d 192 32), toSigned 32 (bits d 224 32)] }

/-- Bits per element of an ESIZE (R213). -/
def esizeBits (e : Nat) : Nat := 4 * 2 ^ e

/-- The row length in bytes (R213), the distance between rows, and the bytes a transfer moves (R253). -/
def Desc.rowLen (d : Desc) : Nat := cdiv (d.cols * esizeBits d.esize) 8
def Desc.stride (d : Desc) : Nat := if d.pitch = 0 then d.rowLen else d.pitch
def Desc.bytes (d : Desc) : Nat := d.rows * d.rowLen

/-- i₀ × STEP0 + i₁ × STEP1 + i₂ × STEP2 (R214); iterations innermost first. -/
def stepSum : List Nat → List Int → Int
  | i :: is, p :: ps => (i : Int) * p + stepSum is ps
  | _, _ => 0

/-- The effective base (R88, R214). -/
def Desc.base (d : Desc) (gen : Bool) (iters : List Nat) : Nat :=
  (((if d.parity && gen then d.base1 else d.base0) : Nat) + stepSum iters d.step : Int).toNat

/-- A descriptor as one expansion of an instruction sees it: its fields and its effective base. -/
structure Tensor where
  desc : Desc
  base : Nat
  deriving DecidableEq, Repr

/-- The address of row r of a tensor. -/
def Tensor.row (t : Tensor) (r : Nat) : Nat := t.base + r * t.desc.stride

/-! Lagoon lines. -/

/-- A list with the place of each element. -/
def enum {α : Type} (l : List α) : List (Nat × α) := (List.range l.length).zip l

/-- The lines of a run of lagoon bytes (R223). -/
def linesOf (base n : Nat) : List Nat :=
  if n = 0 then [] else (List.range ((base + n - 1) / 64 - base / 64 + 1)).map (fun k => base / 64 + k)

/-- The cycle in which an access of `d` cycles from cycle `s` touches line `k` of `n` (R120). -/
def touchCycle (n s d k : Nat) : Nat := s + cdiv ((k + 1) * d) n - 1

/-- The cycles in which an access touches its lines (R120). -/
def touched (s d : Nat) (lines : List Nat) : List (Nat × Nat) :=
  (enum lines).map (fun (k, line) => (touchCycle lines.length s d k, line))

/-- The cycle in which an access to `n` bytes from a base touches an address among them. -/
def byteCycle (base n s d a : Nat) : Nat := touchCycle ((base + n - 1) / 64 - base / 64 + 1) s d (a / 64 - base / 64)

/-- The bytes from a descriptor's effective base to the end of its extent (R215). -/
def Desc.span (d : Desc) : Nat := (d.rows - 1) * d.stride + d.rowLen

def Tensor.lines (t : Tensor) : List Nat := linesOf t.base t.desc.span

/-! Elements. -/

/-- The value of the `n`-bit element number k of a dense run that starts at an address. -/
def rawAt (s : State) (i base n k : Nat) : Nat :=
  let b := k * n
  bits (leNat ((List.range (cdiv n 8)).map (fun j => lagoonGet s i (base + b / 8 + j)))) (b % 8) n

/-- The value of the `n`-bit element number k of bytes taken as one little-endian number. -/
def rawIn (v n k : Nat) : Nat := bits v (k * n) n

/-- The element at row r, column c of a tensor. -/
def Tensor.elem (t : Tensor) (s : State) (i r c : Nat) : Nat := rawAt s i (t.row r) (esizeBits t.desc.esize) c

/-- An element taken as an integer, signed or unsigned (R149, R235). -/
def intOf (n : Nat) (signed : Bool) (v : Nat) : Int := if signed then toSigned n v else (v : Int)

/-- Whether a format code is an integer format. -/
def fmtIsInt (c : Nat) : Bool := c == 0 || c == 1 || c == 6

/-- The value of a floating-point element. -/
def flOf (c v : Nat) : Fl :=
  match flFormatOf c with
  | some f => flDecode f v
  | none => .nan

/-! Row moves. -/

/-- The bytes of a lagoon tensor, row after row. -/
def Tensor.lagoonBytes (t : Tensor) (s : State) (i : Nat) : List Nat :=
  ((List.range t.desc.rows).map (fun r => lagoonRead s i (t.row r) t.desc.rowLen)).flatten

/-- The bytes of a lagoon tensor cut into its rows, each with its address; bytes between rows are no part of them (R118). -/
def rowRuns (t : Tensor) : Nat → List Nat → List (Nat × List Nat)
  | 0, _ => []
  | n + 1, bs => (t.row (t.desc.rows - (n + 1)), bs.take t.desc.rowLen) :: rowRuns t n (bs.drop t.desc.rowLen)

def Tensor.runs (t : Tensor) (bs : List Nat) : List (Nat × List Nat) := rowRuns t t.desc.rows bs

/-- Elements of `n` bits packed into bytes: pairs of nibbles for 4-bit elements (R150), little-endian bytes otherwise. -/
def packElems (n : Nat) : List Nat → List Nat
  | [] => []
  | [a] => if n = 4 then [a % 16] else (leBytes (n / 8) a).map (fun b => b.toNat)
  | a :: b :: r =>
    if n = 4 then (a % 16 + 16 * (b % 16)) :: packElems n r
    else ((leBytes (n / 8) a).map (fun x => x.toNat) ++ (leBytes (n / 8) b).map (fun x => x.toNat)) ++ packElems n r

end Sys2Proof.Machine
end

