-- ==== Sys2Proof/Machine/Pass.lean ====
section
/-!
DEFINITION. What a pass of the matrix array computes (R139 to R166): block shapes, the walk, accumulation, output conversion.
-/
namespace Sys2Proof.Machine

/-- The parameters of a pass (R190). -/
structure PassWord where
  op : Nat
  shape : Nat
  statB : Bool
  fmtA : Nat
  fmtB : Nat
  sgnA : Bool
  sgnB : Bool
  sub : Bool
  ash : Nat
  keep : Bool
  commit : Bool
  out : Nat
  shift : Nat
  deriving DecidableEq, Repr

def passWord (op w : Nat) : PassWord :=
  { op := op, shape := bits w 81 3, statB := bit w 80, fmtA := bits w 77 3, fmtB := bits w 74 3, sgnA := bit w 73,
    sgnB := bit w 72, sub := bit w 71, ash := bits w 66 5, keep := bit w 65, commit := bit w 64, out := bits w 61 3,
    shift := bits w 56 5 }

/-- The block m × kb × nb of a shape for 8-bit operands (R145). -/
def blockDims : Nat → Nat × Nat × Nat
  | 0 => (1, 32, 32)
  | 1 => (2, 32, 16)
  | 2 => (4, 16, 16)
  | 3 => (8, 16, 8)
  | 4 => (16, 8, 8)
  | _ => (32, 8, 4)

/-- The block of a shape and a pair of formats: int4 doubles kb; the 16-bit formats halve kb and nb (R145). -/
def passBlock (p : PassWord) : Nat × Nat × Nat :=
  let (m, k, n) := blockDims p.shape
  if p.fmtB == 1 then (m, 2 * k, n)
  else if p.fmtA == 4 || p.fmtA == 5 then (m, k / 2, n / 2)
  else (m, k, n)

/-- A pass's dimensions: blocks, padded sizes in blocks (R139, R146), and the bases of its operands. -/
structure PassShape where
  m : Nat
  kb : Nat
  nb : Nat
  gm : Nat
  gk : Nat
  gn : Nat
  baseA : Nat
  baseB : Nat
  deriving DecidableEq, Repr

def PassShape.mp (d : PassShape) : Nat := d.m * d.gm
def PassShape.kp (d : PassShape) : Nat := d.kb * d.gk
def PassShape.np (d : PassShape) : Nat := d.nb * d.gn

/-- c, the compute cycles (R146). -/
def PassShape.cycles (d : PassShape) : Nat := d.gm * d.gk * d.gn

def passShape (p : PassWord) (a b : Tensor) : PassShape :=
  let (m, kb, nb) := passBlock p
  ⟨m, kb, nb, cdiv a.desc.rows m, cdiv a.desc.cols kb, cdiv b.desc.cols nb, a.base, b.base⟩

/-- The stored place of A's element (r, k) of block (g, j, t): row-major padded when stationary, else block by block in walk
order (R141, R147, R148). -/
def placeA (p : PassWord) (d : PassShape) (g j t r k : Nat) : Nat :=
  if p.statB then ((g * d.gn + j) * d.gk + t) * (d.m * d.kb) + r * d.kb + k
  else (g * d.m + r) * d.kp + t * d.kb + k

/-- The stored place of B's element (k, c) of block (g, j, t). -/
def placeB (p : PassWord) (d : PassShape) (g j t k c : Nat) : Nat :=
  if p.statB then (t * d.kb + k) * d.np + j * d.nb + c
  else ((g * d.gn + j) * d.gk + t) * (d.kb * d.nb) + k * d.nb + c

/-- The operand pairs (A, B) that one block brings to output (row r, column c) of its group, from the stored bytes of A and B as
little-endian numbers. -/
def blockPairs (as bs : Nat) (p : PassWord) (d : PassShape) (g j t r c : Nat) : List (Nat × Nat) :=
  (List.range d.kb).map (fun k =>
    (rawIn as (fmtBits p.fmtA) (placeA p d g j t r k), rawIn bs (fmtBits p.fmtB) (placeB p d g j t k c)))

/-! Integer accumulation (R152, R153, R164). -/

def intMin32 : Int := -2147483648
def intMax32 : Int := 2147483647

/-- An integer clamped to int32, and whether it was clamped. -/
def clamp32 (v : Int) : Int × Bool :=
  if v < intMin32 then (intMin32, true) else if v > intMax32 then (intMax32, true) else (v, false)

def intTerm (op : Nat) (a b : Int) : Int :=
  match op with
  | 0x11 => ((a - b).natAbs : Int)
  | 0x12 => (a - b) * (a - b)
  | 0x13 => a + b
  | 0x14 => a + b
  | _ => a * b

/-- The largest, or smallest, term of a block and the accumulator. -/
def intPick (big : Bool) (acc : Int) (ts : List Int) : Int :=
  ts.foldl (fun m t => if (if big then m < t else t < m) then t else m) acc

/-- One block combined into an integer accumulator, and whether the result was clamped. -/
def intBlock (p : PassWord) (acc : Int) (pairs : List (Nat × Nat)) : Int × Bool :=
  let ts := pairs.map (fun q =>
    intTerm p.op (intOf (fmtBits p.fmtA) p.sgnA q.1) (intOf (fmtBits p.fmtB) p.sgnB q.2))
  if p.op == 0x13 then (intPick true acc ts, false)
  else if p.op == 0x14 then (intPick false acc ts, false)
  else
    let r := ts.foldl (· + ·) 0 * 2 ^ p.ash
    clamp32 (if p.sub then acc - r else acc + r)

/-! Floating-point accumulation (R154, R157, R164, R166). -/

def flTerm (op : Nat) (a b : Fl) : Fl :=
  match op with
  | 0x11 => flAbs (flSub a b)
  | 0x12 => flMul (flSub a b) (flSub a b)
  | 0x13 => rnd32 (flAdd a b)
  | 0x14 => rnd32 (flAdd a b)
  | _ => flMul a b

def flPick (big : Bool) (acc : Fl) (ts : List Fl) : Fl :=
  ts.foldl (fun m t =>
    if flIsNan m || flIsNan t then .nan else if (if big then flLess m t else flLess t m) then t else m) acc

/-- One block combined into a binary32 accumulator: the exact sum of its terms, then one rounding; a NaN stays. -/
def flBlock (p : PassWord) (acc : Fl) (pairs : List (Nat × Nat)) : Fl :=
  let ts := pairs.map (fun q => flTerm p.op (flOf p.fmtA q.1) (flOf p.fmtB q.2))
  if p.op == 0x13 then flPick true acc ts
  else if p.op == 0x14 then flPick false acc ts
  else
    let t := match ts with
      | [] => .num false 0 0
      | x :: xs => xs.foldl flAdd x
    rnd32 (if p.sub then flSub acc t else flAdd acc t)

/-! A whole pass. -/

/-- The starting accumulator of INIT = ZERO (R164). -/
def initAcc (p : PassWord) : Nat :=
  let int := fmtIsInt p.fmtA
  match p.op with
  | 0x13 => if int then ofSigned 32 intMin32 else flEncode fmtBinary32 (.inf true)
  | 0x14 => if int then ofSigned 32 intMax32 else flEncode fmtBinary32 (.inf false)
  | _ => 0

/-- The blocks of an output in walk order combined into an integer accumulator, and the blocks whose result was clamped. -/
def intBlocks (p : PassWord) : Nat → Int → List (List (Nat × Nat)) → Int × List Nat
  | _, acc, [] => (acc, [])
  | t, acc, b :: bs =>
    let (v, c) := intBlock p acc b
    let (w, l) := intBlocks p (t + 1) v bs
    (w, if c then t :: l else l)

/-- The new accumulator at (row, col) of C, from the one that the pass starts with, and the blocks of its walk that clamped. -/
def passAcc (as bs : Nat) (p : PassWord) (d : PassShape) (start row col : Nat) : Nat × List Nat :=
  let pairs := (List.range d.gk).map (fun t =>
    blockPairs as bs p d (row / d.m) (col / d.nb) t (row % d.m) (col % d.nb))
  if fmtIsInt p.fmtA then
    let (v, n) := intBlocks p 0 (toSigned 32 start) pairs
    (ofSigned 32 v, n)
  else (r32 (pairs.foldl (flBlock p) (f32 start)), [])

/-- The accumulators of a pass in order, each with the blocks that clamped it; `buf` is the output buffer as it stands. -/
def passCells (as bs : List Nat) (buf : Nat → Nat) (p : PassWord) (d : PassShape) : List (Nat × List Nat) :=
  let a := leAt as 0 as.length
  let b := leAt bs 0 bs.length
  (List.range (d.mp * d.np)).map (fun k =>
    passAcc a b p d (if p.keep then buf k else initAcc p) (k / d.np) (k % d.np))

/-- What one accumulator commits as, with the OUT_SAT and NAN counts it makes (R158 to R162). -/
def commitElem (p : PassWord) (acc : Nat) : Nat × Nat × Nat :=
  if p.out == 6 || p.out == 7 then (acc, 0, if p.out == 7 && flIsNan (f32 acc) then 1 else 0)
  else if p.out == 0 then
    let r := roundShiftInt (toSigned 32 acc) p.shift
    let c := clampInt (-128) 127 r
    (ofSigned 8 c, b2n (decide (c ≠ r)), 0)
  else
    match flFormatOf p.out with
    | none => (acc, 0, 0)
    | some f =>
      let (v, o) := flPack f (f32 acc)
      (v, b2n (o && f.e4m3), b2n (flIsNan (f32 acc)))

/-- The bytes of the output that accumulators commit as (R143). -/
def passBytes (p : PassWord) (accs : List Nat) : List Nat :=
  packElems (fmtBits p.out) (accs.map (fun a => (commitElem p a).1))

/-- The stored bytes of an operand: the padded matrix, or its blocks in walk order (R141, R148). -/
def operandBytes (p : PassWord) (d : PassShape) (isA : Bool) : Nat :=
  let stationary := if isA then !p.statB else p.statB
  let elems :=
    if stationary then (if isA then d.mp * d.kp else d.kp * d.np)
    else d.cycles * (if isA then d.m * d.kb else d.kb * d.nb)
  cdiv (elems * fmtBits (if isA then p.fmtA else p.fmtB)) 8

end Sys2Proof.Machine
end

