-- ==== Sys2Proof/Machine/Sequencer.lean ====
section
/-!
DEFINITION. The sequencer of an isle: its place in the program, loop expansion (R184, R209, R210, R230), which launches
run in which frame (R89, R113, R114, R188), and the control words.
-/
namespace Sys2Proof.Machine

/-- The effective launch offset (R184). -/
def effOffset (w : Nat) (loops : List LoopFrame) : Nat := wOffset w + (loops.map (fun l => l.iter * l.stride)).sum

/-- The place after the word at `pc`: past the end of a body the next iteration begins, or the loop is left (R209). -/
def stepLoops : Nat → List LoopFrame → Nat × List LoopFrame
  | pc, [] => (pc, [])
  | pc, l :: ls =>
    if pc < l.stop then (pc, l :: ls)
    else if l.iter + 1 < l.trips then (l.start, { l with iter := l.iter + 1 } :: ls)
    else stepLoops pc ls

/-- The sequencer moves past the word it is at. -/
def advance (v : Isle) : Isle :=
  let (pc, ls) := stepLoops (v.pc + 1) v.loops
  { v with pc := pc, loops := ls }

/-- The launch an isle's sequencer is at when its next word has the opcode asked for: the isle is in RUN or QUIESCED, its
archipelago is in a frame that is not void by the launch's cycle, and the foreground zone is not over (R84, R113, R128). -/
def nextLaunch (s : State) (i op : Nat) : Option Launch :=
  let v := s.isle i
  match archOf s i, v.program[v.pc]? with
  | some a, some w =>
    let r := s.arch a
    let t := effOffset w v.loops
    let void := match r.voidDue with
      | some (c, _) => decide (c + 24 ≤ t)
      | none => false
    let live := (v.state == .run || v.state == .quiesced) && r.frame != .none_ && r.voidAt.isNone && !void && !s.frame.window
    if live && wOpcode w == op then some ⟨i, v.pc, w, v.loops.map (fun l => l.iter), t, a, r.frame, r.gen⟩
    else none
  | _, _ => none

/-- Whether a launch runs in the present frame (R188), replays apart: HSEND and HRECV only in a rendezvous local frame that is
met, and in a dry one only with RDV = 1. -/
def launchRuns (s : State) (l : Launch) : Bool :=
  if wOpcode l.word == 0x51 || wOpcode l.word == 0x61 then s.frame.rdv && (l.kind != .dry || wRdv l.word)
  else l.kind != .dry

/-- The tensor that a descriptor field of a launch names. -/
def Launch.tensor (l : Launch) (s : State) (k : Nat) : Tensor :=
  let d := descOf (nth (s.isle l.isle).descs (wDesc l.word k) 0)
  ⟨d, d.base l.gen l.iters⟩

/-- The isle's sequencer meets a control word: it launches nothing (R183). -/
def control (op : Nat) (effect : Nat → Isle → Isle) (i : Nat) (s : State) : State :=
  match nextLaunch s i op with
  | none => s
  | some l => s.modIsle i (effect l.word)

/-- NOP: nothing launches (R208). -/
def execNop (i : Nat) (s : State) : Result := .next (control 0x00 (fun _ v => advance v) i s)

/-- The loop a LOOP word opens around the words that follow it (R209). -/
def enterLoop (w : Nat) (v : Isle) : Isle :=
  let start := v.pc + 1
  { v with pc := start, loops := ⟨start, start + bits w 0 12, bits w 56 28, bits w 40 16 + 1, 0⟩ :: v.loops }

/-- LOOP: the next BODY words repeat (R209, R230). -/
def execLoop (i : Nat) (s : State) : Result := .next (control 0x01 enterLoop i s)

/-! Expansion. -/

/-- One launch of a word: the word's place, the loop indices innermost first, and the effective offset (R184). -/
structure Exp where
  index : Nat
  word : Nat
  iters : List Nat
  off : Nat
  deriving DecidableEq, Repr

/-- The launches of words, each with its number, in execution order. The first argument bounds the words. -/
def expand : Nat → List (Nat × Nat) → List Nat → Nat → List Exp
  | 0, _, _, _ => []
  | _, [], _, _ => []
  | n + 1, (k, w) :: rest, iters, base =>
    if wOpcode w == 0x01 then
      let body := rest.take (bits w 0 12)
      ((List.range (bits w 40 16 + 1)).map (fun t => expand n body (t :: iters) (base + t * bits w 56 28))).flatten
        ++ expand n (rest.drop (bits w 0 12)) iters base
    else if wOpcode w == 0x00 then expand n rest iters base
    else ⟨k, w, iters, base + wOffset w⟩ :: expand n rest iters base

/-- The launches of a program. -/
def launchesOf (words : List Nat) : List Exp := expand words.length (enum words) [] 0

/-- The descriptor that a field of a word names, in a table. -/
def fieldDesc (descs : List Nat) (w k : Nat) : Desc := descOf (nth descs (wDesc w k) 0)

end Sys2Proof.Machine
end

