-- ==== Sys2Proof/Machine/Flight.lean ====
section
/-!
DEFINITION. Launches in time: what an instruction in progress has still to do, each act done by its published cycle (R61, R63,
R170, R244 to R251), the counts and detections on the way (R226, R227), and what a void point cuts off (R85, R229).
-/
namespace Sys2Proof.Machine

/-! Counts. -/

def Ctr.add (c : Ctr) (n : Nat) (v : IsleCounts) : IsleCounts :=
  match c with
  | .accSat => { v with accSat := v.accSat + n }
  | .outSat => { v with outSat := v.outSat + n }
  | .nan => { v with nan := v.nan + n }
  | .vecSat => { v with vecSat := v.vecSat + n }
  | .vecNan => { v with vecNan := v.vecNan + n }
  | .trunc => { v with trunc := v.trunc + n }
  | .boxSat => { v with boxSat := v.boxSat + n }
  | .nmsKept => { v with nmsKept := n }
  | .nmsEligible => { v with nmsEligible := n }
  | .lagCe => { v with lagCe := satAdd 16 v.lagCe n }
  | .lagUe => { v with lagUe := satAdd 16 v.lagUe n }

/-- A count that an instruction of the isle makes in a cycle. -/
abbrev Mark := Nat × Ctr × Nat

def countAll (ms : List Mark) (v : IsleCounts) : IsleCounts := ms.foldl (fun c m => m.2.1.add m.2.2 c) v

def noteMarks (i : Nat) (ms : List Mark) (s : State) : State := s.modIsle i (fun v => { v with counts := countAll ms v.counts })

/-- The counts every launch makes (ISL_FRAME). -/
def noteLaunch (l : Launch) (s : State) : State :=
  s.modIsle l.isle (fun v =>
    { v with counts := { v.counts with launched := v.counts.launched + 1, lastOffset := l.offset } })

/-! What is in progress. -/

/-- What falls due in one cycle: writes before the reads that may see them. -/
def Flight.order (f : Flight) : Nat :=
  match f.act with
  | .stream _ _ => 2 * f.due + 1
  | _ => 2 * f.due

def insertFlight (f : Flight) : List Flight → List Flight
  | [] => [f]
  | g :: gs => if f.order < g.order then f :: g :: gs else g :: insertFlight f gs

def enqueue (i : Nat) (f : Flight) (s : State) : State := s.modIsle i (fun v => { v with flight := insertFlight f v.flight })

/-! Reads of the lagoon. -/

/-- The counts that reads of lagoon lines make, each in the cycle in which it touches its line, from (cycle, line) pairs. -/
def readMarks (s : State) (i : Nat) (cells : List (Nat × Nat)) : List Mark :=
  if s.lagoonErr.isEmpty then []
  else (cells.map (fun c =>
    let e := lineErrors s i c.2
    (if e.1 = 0 then [] else [(c.1, Ctr.lagCe, e.1)]) ++ (if e.2 = 0 then [] else [(c.1, Ctr.lagUe, e.2)]))).flatten

/-- The first cycle in which reads meet an uncorrectable line (R227). -/
def firstBad (ms : List Mark) : Option Nat := ((ms.filter (fun m => m.2.1 == .lagUe)).map (fun m => m.1)).min?

/-- An instruction reads lagoon lines, each in its cycle: errors are counted, and the first uncorrectable one is detected (R226,
R227). -/
def noteReads (l : Launch) (keeps : Bool) (cells : List (Nat × Nat)) (s : State) : State :=
  match readMarks s l.isle cells with
  | [] => s
  | ms =>
    let s := enqueue l.isle { due := (ms.map (fun m => m.1)).foldl Nat.max 0 + 1, act := .rows [], marks := ms, keeps := keeps } s
    match firstBad ms with
    | some c => detect l.arch l.isle c s
    | none => s

/-- The tensors of the descriptor fields listed are read over `d` cycles from cycle `t` on. -/
def noteTensors (l : Launch) (ks : List Nat) (t d : Nat) (s : State) : State :=
  noteReads l false ((ks.map (fun k => touched t d (l.tensor s k).lines)).flatten) s

/-- Rows of the lagoon that an instruction writes over `d` cycles from cycle `t` on: they are readable at its end, and each count
is made in the cycle in which the write touches its address (R120, R233, R241). -/
def writeLater (l : Launch) (dst : Tensor) (t d : Nat) (bytes : List Nat) (counts : List (Nat × Ctr × Nat)) (s : State) : State :=
  enqueue l.isle
    { due := t + d, act := .rows (dst.runs bytes)
      marks := counts.map (fun m => (byteCycle dst.base dst.desc.span t d m.1, m.2)) } s

/-! The pass of an isle. -/

def Launch.pass (l : Launch) : PassWord := passWord (wOpcode l.word) l.word

/-- The shape of a launched pass. -/
def Launch.shape (l : Launch) (s : State) : PassShape := passShape l.pass (l.tensor s 0) (l.tensor s 1)

/-- The stored bytes of the operand that a pass holds, or streams: where they lie and how many (R141, R148). -/
def passOperand (p : PassWord) (d : PassShape) (stationary : Bool) : Nat × Nat :=
  let isA := p.statB != stationary
  (if isA then d.baseA else d.baseB, operandBytes p d isA)

/-- Accumulator k of an isle's output buffer; open where no pass of the frame has left one (R167, R174). -/
def bufAcc (i : Nat) (b : OutBuf) (k : Nat) : Nat := nth b.accs k (Config.outputAcc b.draw i k).toNat

/-- The cells of a launched pass, from its operands as stored. -/
def Launch.cells (l : Launch) (s : State) (stat strm : List Nat) : List (Nat × List Nat) :=
  passCells (if l.pass.statB then strm else stat) (if l.pass.statB then stat else strm) (bufAcc l.isle (s.isle l.isle).outBuf)
    l.pass (l.shape s)

/-- The cycles in which accumulators were clamped, one mark for each (R153, R169). -/
def clampMarks (t0 : Nat) (d : PassShape) (cells : List (Nat × List Nat)) : List Mark :=
  ((enum cells).map (fun (k, c) =>
    let g := k / d.np / d.m
    let j := k % d.np / d.nb
    c.2.map (fun t => (t0 + 32 + (g * d.gn + j) * d.gk + t, Ctr.accSat, 1)))).flatten

/-- The counts that a commit makes, each in the cycle in which it writes the element's line (R159, R161, R162). -/
def commitMarks (t0 : Nat) (p : PassWord) (d : PassShape) (base : Nat) (accs : List Nat) : List Mark :=
  let w := fmtBits p.out / 8
  ((enum accs).map (fun (k, a) =>
    let (_, sat, nan) := commitElem p a
    let c := byteCycle base (w * accs.length) (t0 + 32 + d.cycles) 16 (base + w * k)
    (if sat = 0 then [] else [(c, Ctr.outSat, sat)]) ++ (if nan = 0 then [] else [(c, Ctr.nan, nan)]))).flatten

/-- Of two cycles, where they are known, the earlier. -/
def earlier : Option Nat → Option Nat → Option Nat
  | some a, some b => some (Nat.min a b)
  | a, none => a
  | none, b => b

/-- A pass begins its streaming read, at t0 + 16: its accumulators follow from its operands, and it ends at t0 + 48 + c (R152,
R154, R164, R168 to R170). -/
def streamPass (l : Launch) (stat : List Nat) (s : State) : State :=
  let i := l.isle
  let p := l.pass
  let d := l.shape s
  let (base, n) := passOperand p d false
  let cells := l.cells s stat (lagoonRead s i base n)
  let accs := cells.map (fun c => c.1)
  let reads := touched (l.offset + 16) d.cycles (linesOf base n)
  let bad := firstBad (readMarks s i reads)
  let c := (l.tensor s 2).base
  let s := noteReads l false reads (s.modIsle i (fun v =>
    { v with pass := v.pass.map (fun x => { x with poisonAt := earlier x.poisonAt bad }) }))
  enqueue i
    { due := l.offset + 48 + d.cycles
      act := .result accs (if p.commit then [(c, passBytes p accs)] else []) (if p.commit then commitMarks l.offset p d c accs else [])
      marks := clampMarks l.offset d cells } s

/-- Whether the pass in progress has read an uncorrectable line (R175). -/
def poisonedBy (x : Option Pass) (c : Nat) : Bool :=
  match x with
  | some p => (match p.poisonAt with
    | some d => decide (d < c)
    | none => false)
  | none => false

/-! What falls due. -/

def writeRuns (i : Nat) (rs : List (Nat × List Nat)) (s : State) : State := rs.foldl (fun t r => lagoonWrite i r.1 r.2 t) s

/-- A code word of a LOWER is written: whole, or by read-modify-write, whose old word may be uncorrectable (R70, R71, R227). -/
def lowerWrite (i c o mask : Nat) (bytes : List Nat) (poison : Bool) (s : State) : State :=
  if mask == fullMask then writeWord .lift i o bytes poison s
  else
    let (bad, s) := rmwWord .rmw i o mask bytes poison s
    match archOf s i with
    | some a => detectIf bad a i c s
    | none => s

/-- One act that is due. -/
def perform (i : Nat) (f : Flight) (s : State) : State :=
  let s := noteMarks i f.marks s
  match f.act with
  | .stream l stat => streamPass l stat s
  | .result accs out counts =>
    let b := (s.isle i).outBuf
    let s := s.modIsle i (fun v => { v with outBuf := { b with accs := accs ++ b.accs.drop accs.length } })
    if poisonedBy (s.isle i).pass f.due then s else writeRuns i out (noteMarks i counts s)
  | .rows rs => writeRuns i rs s
  | .look o => (readWord .lift i o s).2
  | .word o mask bytes poison => lowerWrite i (f.due - 1) o mask bytes poison s
  | .sent _ _ => s
  | .release p slot => releaseSlot p slot s

/-- At most `n` acts that are due by cycle `c`, in order. -/
def landSome : Nat → Nat → Nat → State → State
  | 0, _, _, s => s
  | n + 1, i, c, s =>
    match (s.isle i).flight with
    | [] => s
    | f :: fs => if f.due ≤ c then landSome n i c (perform i f (s.modIsle i (fun v => { v with flight := fs }))) else s

/-- Everything that an isle has due by cycle `c`; a pass that begins its streaming read has its end still to come. -/
def land (i c : Nat) (s : State) : State := landSome (3 * (s.isle i).flight.length) i c s

/-- What an act cut off at cycle `v` leaves: the counts made before it, no transmission, and a slot's buffer released (R85, R229,
R498, R503). -/
def cutOff (i v : Nat) (f : Flight) (s : State) : State :=
  let s := noteMarks i (f.marks.filter (fun m => decide (m.1 < v))) s
  match f.act with
  | .result _ _ counts =>
    if poisonedBy (s.isle i).pass f.due then s else noteMarks i (counts.filter (fun m => decide (m.1 < v))) s
  | .sent p slot => s.modPort p (fun x => { x with tx := KMap.erase x.tx slot })
  | .release p slot => releaseSlot p slot s
  | _ => s

/-- The void point in what an isle has in progress: all but what runs to its published end is cut off (R85, R229). -/
def cutFlights (i v : Nat) (s : State) : State :=
  let fs := (s.isle i).flight
  let s := (fs.filter (fun f => !f.keeps)).foldl (fun t f => cutOff i v f t) s
  s.modIsle i (fun x => { x with flight := fs.filter (fun f => f.keeps) })

/-! Launches. -/

/-- The isle's sequencer meets a word of one opcode: what the isle has due by then is done, the word launches where it runs, and the
sequencer moves on. Where the sequencer is not at such a word, nothing happens. -/
def launch (op : Nat) (effect : Launch → State → State) (i : Nat) (s : State) : State :=
  match nextLaunch s i op with
  | none => s
  | some l =>
    let s := land i l.offset s
    match nextLaunch s i op with
    | none => s
    | some l =>
      let s := if launchRuns s l then effect l (noteLaunch l s) else s
      s.modIsle i advance

end Sys2Proof.Machine
end

