-- ==== Sys2Proof/Machine/Array.lean ====
section
/-!
DEFINITION. The five passes of the matrix array (R139, R164, R168 to R178).
-/
namespace Sys2Proof.Machine

/-- A pass launched: its stationary operand is read at once, its streaming read begins 16 cycles later, and it is counted (R169,
R170). -/
def execPass (l : Launch) (s : State) : State :=
  let i := l.isle
  let p := l.pass
  let d := l.shape s
  let (base, n) := passOperand p d true
  let reads := touched l.offset 16 (linesOf base n)
  let bad := firstBad (readMarks s i reads)
  let stat := lagoonRead s i base n
  let s := s.modIsle i (fun v =>
    { v with
      pass := some ⟨l.offset, d.cycles, p.commit, bad⟩
      counts := { v.counts with
        passes := v.counts.passes + 1
        computeCycles := v.counts.computeCycles + d.cycles
        arrayCycles := v.counts.arrayCycles + d.cycles + 48 } })
  enqueue i { due := l.offset + 16, act := .stream l stat } (noteReads l false reads s)

/-- MAC: block products accumulated (R152, R154). -/
def execMac (i : Nat) (s : State) : Result := .next (launch 0x10 execPass i s)
/-- L1: absolute differences accumulated (R164). -/
def execL1 (i : Nat) (s : State) : Result := .next (launch 0x11 execPass i s)
/-- L2SQ: squared differences accumulated (R164). -/
def execL2sq (i : Nat) (s : State) : Result := .next (launch 0x12 execPass i s)
/-- MAX: the largest sum term (R164). -/
def execMax (i : Nat) (s : State) : Result := .next (launch 0x13 execPass i s)
/-- MIN: the smallest sum term (R164). -/
def execMin (i : Nat) (s : State) : Result := .next (launch 0x14 execPass i s)

end Sys2Proof.Machine
end

