-- ==== Sys2Proof/Machine/Nbu.lean ====
section
/-!
DEFINITION. Near-bank units and the ferry bus (R351 to R381): streams, the six operations, records, FERRY, host commands and
ferry arbitration.
-/
namespace Sys2Proof.Machine

/-! Commands. -/

/-- FMT and SPACING and CLEAR of IMM (R354). -/
def NbuCmd.fmt (c : NbuCmd) : Nat := bits c.imm 11 2
def NbuCmd.spacing (c : NbuCmd) : Nat := bits c.imm 0 11
def NbuCmd.clear (c : NbuCmd) : Bool := bit c.imm 13

/-- Streams, argument bytes, accesses per index and result bytes of an operation (R355). -/
def nbuStreams : Nat → Nat
  | 1 => 1 | 2 => 2 | 3 => 2 | 4 => 2 | 5 => 4 | 6 => 1 | _ => 0
def nbuArgBytes : Nat → Nat
  | 1 => 32 | 4 => 8 | 5 => 64 | _ => 0
def NbuCmd.accesses (c : NbuCmd) : Nat :=
  match c.op with
  | 1 => 1 | 2 => 2 | 3 => if c.clear then 4 else 3 | 4 => 3 | 5 => 8 | _ => 1
def nbuResultBytes (op : Nat) : Nat := if op = 6 then 16 else 8

/-- The formats an operation allows (R355). -/
def nbuFmtOk (op fmt : Nat) : Bool :=
  match op with
  | 1 => fmt == 0 | 2 => fmt == 0 | 3 => fmt ≤ 2 | 4 => fmt ≤ 1 | 5 => fmt == 0 | 6 => fmt ≤ 2 | _ => false

/-- The addressed banks, ascending layer then ascending bank (R362). -/
def NbuCmd.bankList (c : NbuCmd) : List (Nat × Nat) :=
  ((List.range 64).map (fun k => (k / 8, k % 8))).filter (fun b => bit c.layers b.1 && bit c.banks b.2)

/-- The bank-local address of word j of stream n. -/
def NbuCmd.addr (c : NbuCmd) (n j : Nat) : Nat := c.baseWord * 32 + n * c.spacing * 4096 + 32 * j

/-- A slice offset from layer, bank and bank-local address (R277). -/
def bankOffset (b : Nat × Nat) (a : Nat) : Nat := b.1 * 2 ^ 26 + b.2 * 2 ^ 23 + a % 2 ^ 23

/-- The NBU cycles of an operation and its time in isle cycles (R363); I and R_t of R254. -/
def NbuCmd.opCycles (c : NbuCmd) : Nat :=
  let m := if c.op = 6 then c.words + 8 else c.accesses * c.words
  cdiv (15 * m) 4 + 4
def ferryIssue (argBytes : Nat) : Nat := cdiv (15 * (2 + cdiv argBytes 8)) 4 + 4
def NbuCmd.resultBytes (c : NbuCmd) : Nat := nbuResultBytes c.op * c.bankList.length
def NbuCmd.resultCycles (c : NbuCmd) : Nat := cdiv (15 * cdiv c.resultBytes 8) 4 + 4

/-! Beats (R371). -/

/-- Bytes in beats of eight. -/
def beatsOf (d : List Nat) : List Nat := (List.range (cdiv d.length 8)).map (fun k => leAt d (8 * k) 8)

/-- The beats of a command: two, and its argument. -/
def NbuCmd.beats (c : NbuCmd) : List Nat :=
  [bits c.op 0 8 + bits c.layers 0 8 * 2 ^ 8 + bits c.banks 0 8 * 2 ^ 16 + bits c.imm 0 16 * 2 ^ 24 + b2n c.resEn * 2 ^ 40 +
      b2n c.host * 2 ^ 41,
    bits c.baseWord 0 18 + bits (c.words - 1) 0 18 * 2 ^ 18] ++ beatsOf c.arg

/-- The command that NBUs take from its beats: of the argument, the bytes that its operation uses (R357). -/
def NbuCmd.ofBeats (bs : List Nat) : NbuCmd :=
  let w0 := nth bs 0 0
  let w1 := nth bs 1 0
  let op := bits w0 0 8
  { op := op, layers := bits w0 8 8, banks := bits w0 16 8, imm := bits w0 24 16, resEn := bit w0 40, host := bit w0 41,
    baseWord := bits w1 0 18, words := bits w1 18 18 + 1,
    arg := (((bs.drop 2).map (fun w => (leBytes 8 w).map (fun b => b.toNat))).flatten).take (nbuArgBytes op) }

/-- The NBU command of a FERRY word with a bank address and a number of words. -/
def ferryForm (w base words : Nat) : NbuCmd :=
  { op := bits w 72 8, layers := bits w 64 8, banks := bits w 56 8, imm := bits w 40 16, baseWord := base / 32, words := words,
    arg := [], resEn := bit w 80, host := false }

/-- The cycles in which the FERRYs of a program hold the ferry bus: issues, and results (R254, R373). -/
def ferryUses (words descs : List Nat) : List (Nat × Nat) :=
  ((launchesOf words).filter (fun x => wOpcode x.word == 0x70)).flatMap (fun x =>
    let c := ferryForm x.word 0 ((fieldDesc descs x.word 0).bytes / 32)
    let n := ferryIssue (nbuArgBytes c.op)
    let stop := x.off + n + c.opCycles
    (x.off, x.off + n) :: (if c.resEn then [(stop, stop + c.resultCycles)] else []))

/-! Arithmetic (R358 to R361). -/

/-- The width of an element of FMT. -/
def nbuWidth (fmt : Nat) : Nat := if fmt = 1 then 16 else 32

/-- The elements of a code word. -/
def nbuElems (fmt : Nat) (d : List Nat) : List Nat :=
  let n := nbuWidth fmt / 8
  (List.range (32 / n)).map (fun k => leNat (((d.drop (n * k)).take n).map (fun b => BitVec.ofNat 8 b)))

/-- The bytes of a code word of elements. -/
def nbuBytes (fmt : Nat) (es : List Nat) : List Nat := packElems (nbuWidth fmt) es

/-- An element as binary32, and a binary32 result as an element, with the NaN it makes. -/
def nbuIn (fmt v : Nat) : Fl := if fmt = 1 then flDecode fmtBf16 v else f32 v
def nbuOut (fmt : Nat) (v : Fl) : Nat × Nat :=
  (if fmt = 1 then (flPack fmtBf16 (rnd32 v)).1 else r32 v, b2n (flIsNan v))

/-- Results of one word: bytes, NaNs written, clampings. -/
structure NbuWord where
  bytes : List Nat
  nan : Nat
  sat : Nat
  deriving DecidableEq, Repr

def nbuMapF (fmt : Nat) (es : List Fl) : NbuWord :=
  let r := es.map (nbuOut fmt)
  ⟨nbuBytes fmt (r.map (fun x => x.1)), (r.map (fun x => x.2)).sum, 0⟩

def nbuKeep (bytes : List Nat) : NbuWord := ⟨bytes, 0, 0⟩

/-- ACC: G + X (R355, R358). -/
def nbuAccWord (fmt : Nat) (x g : List Nat) : NbuWord :=
  if fmt = 2 then
    let r := List.zipWith (fun a b =>
      let t := toSigned 32 a + toSigned 32 b
      (satSigned 32 t, b2n (decide (toSigned 32 (satSigned 32 t) ≠ t)))) (nbuElems 2 x) (nbuElems 2 g)
    ⟨nbuBytes 2 (r.map (fun q => q.1)), 0, (r.map (fun q => q.2)).sum⟩
  else
    nbuMapF fmt (List.zipWith (fun a b => rnd32 (flAdd (nbuIn fmt b) (nbuIn fmt a))) (nbuElems fmt x) (nbuElems fmt g))

/-- A binary32 field of an argument. -/
def argF (arg : List Nat) (o : Nat) : Fl :=
  f32 (leNat (((arg.drop o).take 4).map (fun b => BitVec.ofNat 8 b)))

/-- AXPBY: α·X + β·Y, three roundings (R358). -/
def nbuAxpbyWord (fmt : Nat) (arg x y : List Nat) : NbuWord :=
  let al := argF arg 0
  let be := argF arg 4
  nbuMapF fmt (List.zipWith (fun a b =>
    rnd32 (flAdd (rnd32 (flMul al (nbuIn fmt a))) (rnd32 (flMul be (nbuIn fmt b))))) (nbuElems fmt x) (nbuElems fmt y))

/-- One element of ADAMW: W', M', V' (R360). -/
def adamElem (arg : List Nat) (w g m v : Fl) : Fl × Fl × Fl :=
  let p := argF arg
  let mul := fun a b => rnd32 (flMul a b)
  let add := fun a b => rnd32 (flAdd a b)
  let sub := fun a b => rnd32 (flSub a b)
  let one : Fl := .num false 1 0
  let g1 := mul g (p 0x1C)
  let m1 := add (mul (p 0x04) m) (mul (sub one (p 0x04)) g1)
  let v1 := add (mul (p 0x08) v) (mul (sub one (p 0x08)) (mul g1 g1))
  let u := rnd32 (flDiv (mul m1 (p 0x14)) (add (rnd32 (flSqrt (mul v1 (p 0x18)))) (p 0x0C)))
  (sub w (mul (p 0x00) (add (mul (p 0x10) w) u)), m1, v1)

/-- ADAMW on the words of W, G, M, V (R360); G is rewritten as read, or as zero with CLEAR (R356). -/
def nbuAdamWords (clear : Bool) (arg w g m v : List Nat) : List NbuWord :=
  let f := fun d => (nbuElems 0 d).map f32
  let r := List.zipWith (fun (a : Fl × Fl) (b : Fl × Fl) => adamElem arg a.1 a.2 b.1 b.2)
    ((f w).zip (f g)) ((f m).zip (f v))
  [nbuMapF 0 (r.map (fun x => x.1)), nbuKeep (if clear then List.replicate 32 0 else g),
    nbuMapF 0 (r.map (fun x => x.2.1)), nbuMapF 0 (r.map (fun x => x.2.2))]

/-! One index of one bank. -/

/-- What a bank has counted: BAD_INDEX, NAN, SAT, blocked, an uncorrectable read, and SUMSQ's sum and maximum. -/
structure BankTally where
  bad : Nat := 0
  nan : Nat := 0
  sat : Nat := 0
  blocked : Bool := false
  blockedIdx : Nat := 0
  sum : Fl := .num false 0 0
  max : Fl := .num false 0 0
  deriving DecidableEq, Repr

/-- The streams an operation reads, and those it writes (R355, R356). -/
def NbuCmd.reads (c : NbuCmd) : List Nat :=
  match c.op with
  | 2 => [0] | 3 => [0, 1] | 4 => [0, 1] | 5 => [0, 1, 2, 3] | 6 => [0] | _ => []
def NbuCmd.writes (c : NbuCmd) : List Nat :=
  match c.op with
  | 1 => [0] | 2 => [1] | 3 => if c.clear then [0, 1] else [1] | 4 => [1] | 5 => [0, 1, 2, 3] | _ => []

/-- The words of the streams read at index j: whether any was uncorrectable, and the data by stream (R365). -/
def nbuRead (i : Nat) (c : NbuCmd) (b : Nat × Nat) (j : Nat) : List Nat → State → Bool × KMap (List Nat) × State
  | [], s => (false, [], s)
  | n :: ns, s =>
    let o := bankOffset b (c.addr n j)
    let (cls, d, s) := readRaw .nbu i o s
    let (bad, m, s) := nbuRead i c b j ns s
    (cls.bad (regionOf s i o).strict || bad, (n, d) :: m, s)

/-- The words written at one index, in stream order. -/
def nbuNew (c : NbuCmd) (d : Nat → List Nat) : List NbuWord :=
  match c.op with
  | 1 => [nbuKeep c.arg]
  | 2 => [nbuKeep (d 0)]
  | 3 =>
    let g := nbuAccWord c.fmt (d 0) (d 1)
    if c.clear then [nbuKeep (List.replicate 32 0), g] else [g]
  | 4 => [nbuAxpbyWord c.fmt c.arg (d 0) (d 1)]
  | 5 => nbuAdamWords c.clear c.arg (d 0) (d 1) (d 2) (d 3)
  | _ => []

/-- SUMSQ's element, converted to binary32 (R361). -/
def sumsqIn (fmt v : Nat) : Fl := if fmt = 2 then rnd32 (flOfInt (toSigned 32 v)) else nbuIn fmt v

def sumsqStep (t : BankTally) (x : Fl) : BankTally :=
  let a := flAbs x
  { t with
    nan := t.nan + b2n (flIsNan x)
    sum := if flIsNan x then .nan else rnd32 (flAdd t.sum (rnd32 (flMul x x)))
    max := if flIsNan x || flIsNan t.max then .nan else if flLess t.max a then a else t.max }

/-- One word put by a write stream. -/
def nbuPut (i : Nat) (c : NbuCmd) (b : Nat × Nat) (j : Nat) (poison : Bool) (s : State) (w : Nat × List Nat) : State :=
  storeWord .nbu i (bankOffset b (c.addr w.1 j)) w.2 poison s

/-- The words put at one index. -/
def nbuWrite (i : Nat) (c : NbuCmd) (b : Nat × Nat) (j : Nat) (poison : Bool) (ws : List (Nat × List Nat)) (s : State) : State :=
  ws.foldl (nbuPut i c b j poison) s

/-- One index of one bank: blocked words, an uncorrectable read, or the operation (R356, R366, R367, R369). -/
def nbuIndex (i : Nat) (c : NbuCmd) (b : Nat × Nat) (j : Nat) (ts : BankTally × State) : BankTally × State :=
  let (t, s) := ts
  let touched := (List.range (nbuStreams c.op)).filter (fun n => c.reads.contains n || c.writes.contains n)
  if touched.any (fun n => !(regionOf s i (bankOffset b (c.addr n j))).isOpen) then
    ({ t with blocked := true, blockedIdx := t.blockedIdx + 1 }, raise 0x0F01 i 0 s)
  else
    let (bad, m, s) := nbuRead i c b j c.reads s
    let d := fun n => KMap.get [] m n
    if bad then
      let old := fun n => if c.reads.contains n then d n else d 0
      ({ t with bad := t.bad + 1 },
        raiseOnce 0x0F02 i 0 (nbuWrite i c b j true (c.writes.map (fun n => (n, old n))) s))
    else
      let new := nbuNew c d
      let t := { t with nan := t.nan + (new.map NbuWord.nan).sum, sat := t.sat + (new.map NbuWord.sat).sum }
      let t := if c.op == 6 then ((nbuElems c.fmt (d 0)).map (sumsqIn c.fmt)).foldl sumsqStep t else t
      (t, nbuWrite i c b j false (c.writes.zip (new.map NbuWord.bytes)) s)

/-- The status record of a bank, and SUMSQ's second word (R362). -/
def bankRecord (op : Nat) (t : BankTally) : List Nat :=
  (satAdd 16 t.bad 0 + satAdd 16 t.nan 0 * 2 ^ 16 + satAdd 16 t.sat 0 * 2 ^ 32 + b2n t.blocked * 2 ^ 50) ::
    (if op == 6 then [r32 t.sum + r32 t.max * 2 ^ 32] else [])

/-- The first `n` indices of one bank, then its record and the counters of NBU_ERR. -/
def nbuBank (i n : Nat) (c : NbuCmd) (acc : List Nat × Bool × State) (b : Nat × Nat) : List Nat × Bool × State :=
  let (rs, bad, s) := acc
  let (t, s) := (List.range n).foldl (fun ts j => nbuIndex i c b j ts) (({} : BankTally), s)
  let u := fun (f : Field) => f.at [i / 64, i % 64]
  let s := ((s.bump (u R.NBU_ERR_BAD_INDEX) t.bad).bump (u R.NBU_ERR_NAN_SAT) (t.nan + t.sat)).bump
    (u R.NBU_ERR_BLOCKED) t.blockedIdx
  (rs ++ bankRecord c.op t, bad || t.bad != 0, s)

/-- The flags of every record of an operation: DROPPED and ABSENT. -/
def recordFlags (op flags : Nat) (records : List Nat) : List Nat :=
  if op == 6 then ((List.range records.length).zip records).map (fun x => if x.1 % 2 == 0 then x.2 + flags else x.2)
  else records.map (fun w => w + flags)

/-- The first element of a list for which a test holds, as a function of it. -/
def modFirst {α : Type} (p : α → Bool) (f : α → α) : List α → List α
  | [] => []
  | x :: xs => if p x then f x :: xs else x :: modFirst p f xs

/-- Whether NBU work may hold banks: not in the service window (R22). -/
def nbuRuns (s : State) : Bool := !(s.frame.running && s.frame.window)

/-- A command's operation carried out in every addressed bank: that of the oldest command of the operation named that has not worked.
A command that arrived damaged, or found no NBU powered, writes nothing; one whose NBUs have lost their power since, or that a
compute reset stops, ends with the `n` indices it has completed (R372, R381, R616). -/
def nbuOperate (op i n : Nat) (s : State) : State :=
  let mine := fun (r : NbuRun) => r.cmd.op == op && !r.worked
  match (s.slice i).nbu.find? mine with
  | none => s
  | some r =>
    if !nbuRuns s then s
    else
      let on := domainOn s (10 + i / 64)
      let none_ := r.dropped || r.absent
      let cut := none_ || r.stopped || !on
      let m := if none_ then 0 else if cut then Nat.min n r.cmd.words else r.cmd.words
      let (recs, bad, s) := r.cmd.bankList.foldl (nbuBank i m r.cmd) ([], false, s)
      let absent := r.absent || !on
      let recs := recordFlags op (b2n r.dropped * 2 ^ 48 + b2n absent * 2 ^ 49) recs
      let s := if absent then raiseOnce 0x0F04 i 0 s else s
      s.modSlice i (fun v => { v with nbu := modFirst mine (fun r => { r with
        absent := absent, worked := true, records := recs, badRead := bad, done := if cut then some m else none }) v.nbu })

/-- NBU_FILL (R355). -/
def execNbuFill (i n : Nat) (s : State) : Result := .next (nbuOperate 1 i n s)
/-- NBU_COPY (R355). -/
def execNbuCopy (i n : Nat) (s : State) : Result := .next (nbuOperate 2 i n s)
/-- NBU_ACC (R355). -/
def execNbuAcc (i n : Nat) (s : State) : Result := .next (nbuOperate 3 i n s)
/-- NBU_AXPBY (R358). -/
def execNbuAxpby (i n : Nat) (s : State) : Result := .next (nbuOperate 4 i n s)
/-- NBU_ADAMW (R360). -/
def execNbuAdamw (i n : Nat) (s : State) : Result := .next (nbuOperate 5 i n s)
/-- NBU_SUMSQ (R361). -/
def execNbuSumsq (i n : Nat) (s : State) : Result := .next (nbuOperate 6 i n s)

/-! FERRY and the end of an operation. -/

/-- The command a FERRY carries (R204, R371). -/
def ferryCmd (l : Launch) (s : State) : NbuCmd :=
  let w := l.word
  let bank := l.tensor s 0
  let op := bits w 72 8
  let arg := if nbuArgBytes op = 0 then [] else (l.tensor s 1).lagoonBytes s l.isle
  { op := op, layers := bits w 64 8, banks := bits w 56 8, imm := bits w 40 16, baseWord := bank.base % 2 ^ 23 / 32,
    words := bank.desc.bytes / 32, arg := arg, resEn := bit w 80, host := false }

/-- Damaged beats of one command count, each, and raise 0x0F03 (R372). -/
def beatError (i n : Nat) (s : State) : State :=
  if n = 0 then s else raise 0x0F03 i 0 (s.bump (R.NBU_ERR_BEAT_ERR.at [i / 64, i % 64]) n)

/-- A command reaches the addressed NBUs, `n` of its beats uncorrectable: they hold it until it ends (R353, R372). -/
def nbuStart (i t n : Nat) (c : NbuCmd) (result : Option (List Nat × Nat)) (s : State) : State :=
  let stop := t + cdiv (15 * c.beats.length) 4 + 4 + c.opCycles
  (beatError i n s).modSlice i (fun v =>
    { v with nbu := v.nbu ++ [{
        cmd := .ofBeats c.beats, dropped := n != 0, absent := !domainOn s (10 + i / 64), records := [], sent := 0, badRead := false,
        worked := false, bankEnd := stop, resultEnd := stop + c.resultCycles, result := result }] })

/-- A FERRY issued: the command reaches the addressed NBUs, unless it is skipped in a replay (R89). -/
def ferryEffect (damaged : Nat) (l : Launch) (s : State) : State :=
  let inPlace := bit l.word 81
  let me := (l.isle, l.index, l.iters)
  if inPlace && (s.arch l.arch).skip.contains me then s
  else
    let c := ferryCmd l s
    let res := l.tensor s 2
    let s := if nbuArgBytes c.op = 0 then s else noteTensors l [1] l.offset (ferryIssue (nbuArgBytes c.op)) s
    let s := s.count (R.NBU_COUNT_SCHED.at [l.isle / 64, l.isle % 64])
    let s := if inPlace then s.modArch l.arch (fun a => { a with inPlace := me :: a.inPlace }) else s
    nbuStart l.isle l.offset damaged c
      (if c.resEn then some ((List.range res.desc.rows).map res.row, res.desc.rowLen) else none) s

/-- FERRY: one NBU command issued to the addressed banks (R254); `damaged` of its beats arrived uncorrectable. -/
def execFerry (i damaged : Nat) (s : State) : Result := .next (launch 0x70 (ferryEffect damaged) i s)

/-- Bytes cut into rows at addresses. -/
def rowsAt (len : Nat) : List Nat → List Nat → List (Nat × List Nat)
  | [], _ => []
  | a :: as, bs => (a, bs.take len) :: rowsAt len as (bs.drop len)

/-- The records of a host command in NBU_HRES, and its end (R362, R378, R381). -/
def endHostCmd (i : Nat) (r : NbuRun) (s : State) : State :=
  let u := fun (f : Field) => f.at [i / 64, i % 64]
  let s := s.setWords (fun k => R.NBU_HRES_DATA.at [i / 64, i % 64, k]) (r.records.take 128)
  let res := if r.dropped then 5 else if r.done.isSome then 6 else 1
  let s := (s.set (u R.NBU_HSTATUS_BUSY) 0).set (u R.NBU_HSTATUS_RESULT) res
  if res = 6 then s.set (u R.NBU_HSTATUS_INDEX) (r.done.getD 0) else s.count (u R.NBU_COUNT_HOST)

/-- The records of a FERRY, in its result tensor at the end of its result beats, unless its frame is void by then (R254, R362); an
uncorrectable read of its banks is detected in the last cycle of its bank interval (R227, R367). -/
def endFerry (i : Nat) (r : NbuRun) (s : State) : State :=
  let bytes := (r.records.map (fun w => (leBytes 8 w).map (fun b => b.toNat))).flatten
  match archOf s i with
  | none => s
  | some a =>
    let s := match r.result with
      | some (rows, len) =>
        if (s.arch a).voidAt.isSome then s else enqueue i { due := r.resultEnd, act := .rows (rowsAt len rows bytes) } s
      | none => s
    detectIf r.badRead a i (r.bankEnd - 1) s

/-- NBU_OPERATION_END: each addressed bank of the oldest command that has worked has returned its record; of the beats that carry
records those listed arrive uncorrectable, and are delivered as received (R362, R372). A host command ends when the bus has
carried all its result beats (R379). -/
def execNbuOperationEnd (i : Nat) (damaged : List (Nat × Nat)) (s : State) : Result :=
  .next (
    match (s.slice i).nbu.find? (fun r => r.worked && (!r.cmd.host || decide (r.records.length ≤ r.sent))) with
    | none => s
    | some r =>
      let hit := if r.cmd.resEn then damaged.filter (fun d => decide (d.1 < r.records.length)) else []
      let got := { r with records := hit.foldl (fun l d => setNth l d.1 (d.2 % 2 ^ 64)) r.records }
      let s := beatError i hit.length (s.modSlice i (fun v => { v with nbu := v.nbu.erase r }))
      if r.cmd.host then endHostCmd i got s else endFerry i got s)

/-! Host commands. -/

/-- The command in the host's registers (R378). -/
def hostNbuCmd (s : State) (i : Nat) : NbuCmd :=
  let g := fun f : Field => s.get (f.at [i / 64, i % 64])
  { op := g R.NBU_HCMD_NBU_OP, layers := g R.NBU_HCMD_LAYER_MASK, banks := g R.NBU_HCMD_BANK_MASK, imm := g R.NBU_HCMD_IMM,
    baseWord := g R.NBU_HRANGE_BASE_WORD, words := g R.NBU_HRANGE_WORDS_M1 + 1,
    arg := ((List.range 16).map (fun w =>
      (leBytes 4 (s.get (R.NBU_HARG_BYTES.at [i / 64, i % 64, w]))).map (fun b => b.toNat))).flatten,
    resEn := true, host := true }

/-- HOST_NBU_COMMAND: START queues the command in the registers, or sets OVERRUN while one is waiting or running (R378). -/
def execHostNbuCommand (i op layers banks imm : Nat) (s0 : State) : Result :=
  let u := fun (f : Field) => f.at [i / 64, i % 64]
  let s := (((s0.set (u R.NBU_HCMD_NBU_OP) op).set (u R.NBU_HCMD_LAYER_MASK) layers).set (u R.NBU_HCMD_BANK_MASK) banks).set
    (u R.NBU_HCMD_IMM) imm
  if !decodes s 0 || !domainOn s (6 + i / 64) then .next s0
  else if s.flag (u R.NBU_HSTATUS_BUSY) then .next (s.set (u R.NBU_HSTATUS_OVERRUN) 1)
  else
    let s := ((s.set (u R.NBU_HSTATUS_BUSY) 1).set (u R.NBU_HSTATUS_RESULT) 0).set (u R.NBU_HSTATUS_INDEX) 0
    .next (s.modSlice i (fun v => { v with hostCmd := some (hostNbuCmd s i), cmdBehind := v.hostq.length, hostGrant := none }))

/-- R354 to R357 for a host command. -/
def nbuFormatOk (c : NbuCmd) : Bool :=
  let n := nbuStreams c.op
  decide (n ≠ 0) && nbuFmtOk c.op c.fmt && c.layers != 0 && c.banks != 0 && bits c.imm 14 2 == 0
    && (!c.clear || c.op == 3 || c.op == 5)
    && (if n == 1 then c.spacing == 0 else decide (32 * c.words ≤ c.spacing * 4096))
    && decide (c.addr (n - 1) 0 + 32 * c.words ≤ 2 ^ 23)

/-- Whether every word of every stream lies in an open region, in every addressed bank (R368). -/
def nbuAllOpen (s : State) (i : Nat) (c : NbuCmd) : Bool :=
  c.bankList.all (fun b => (List.range (nbuStreams c.op)).all (fun n => (List.range c.words).all (fun j =>
    (regionOf s i (bankOffset b (c.addr n j))).isOpen)))

/-- I + T_op + R_t of a host command, which always carries 64 argument bytes (R378, R379). -/
def NbuCmd.hostSpan (c : NbuCmd) : Nat := ferryIssue 64 + c.opCycles + c.resultCycles

/-- Whether the waiting command of an isle may start in cycle `c` of the frame, arbitration apart: it is its turn, the isle is in
IDLE or in the foreground zone of a dry frame, and its span ends before F, or before the next service window (R379, R380). -/
def hostCmdFits (s : State) (i c : Nat) : Bool :=
  match (s.slice i).hostCmd with
  | none => false
  | some cmd =>
    let v := s.isle i
    let dry := match archOf s i with
      | some a => (s.arch a).frame == .dry && (v.state == .run || v.state == .quiesced)
      | none => false
    nbuRuns s && (v.state == .idle || dry) && (!s.frame.running || decide (c + cmd.hostSpan ≤ frameCycles s))
      && (s.slice i).nbu.all (fun r => !r.cmd.host) && (s.slice i).cmdBehind == 0

/-- HOST_NBU_COMMAND_START: in cycle `c` the waiting command starts if its isle lets it and HOST has been granted the bus for its
beats, `damaged` of which arrive uncorrectable; it is refused for its format, a sealed word or a span beyond F (R357, R368,
R379). -/
def execHostNbuCommandStart (i c damaged : Nat) (s : State) : Result :=
  .next (
    match (s.slice i).hostCmd with
    | none => s
    | some cmd =>
      let u := fun (f : Field) => f.at [i / 64, i % 64]
      let stop := fun (code : Nat) (t : State) =>
        ((t.set (u R.NBU_HSTATUS_BUSY) 0).set (u R.NBU_HSTATUS_RESULT) code).modSlice i
          (fun v => { v with hostCmd := none, hostGrant := none, ferry := setNth v.ferry 0 {} })
      if !nbuFormatOk cmd then stop 2 s
      else if !nbuAllOpen s i cmd then raise 0x0F01 i 0 (stop 3 s)
      else if s.image.isSome && decide (frameCycles s < cmd.hostSpan) then stop 4 s
      else if (s.slice i).hostGrant != some c || !hostCmdFits s i c then s
      else nbuStart i c damaged cmd none (s.modSlice i (fun v => { v with hostCmd := none, hostGrant := none })))

/-! Arbitration (R374 to R377), shared with the DMA arbiters (R469, R470). -/

/-- The effective priority: the programmed one plus one for each AGE_ROUNDS rounds lost, at most 3 (R376). -/
def effPriority (prio age lost : Nat) : Nat := Nat.min 3 (prio + lost / Nat.max age 1)

/-- The requester granted among those waiting: the highest effective priority, a tie to the first after the last winner. -/
def arbitrate (waits : List Bool) (prio : Nat → Nat) (last : Nat) : Option Nat :=
  let n := waits.length
  let order := (List.range n).map (fun k => (last + 1 + k) % n)
  (order.filter (fun k => nth waits k false)).foldl (fun best k =>
    match best with
    | none => some k
    | some b => if prio b < prio k then some k else some b) none

/-- The beats that HOST has to send in cycle `c`: its command's, or the result beats of a host command whose banks are done, 16 at a
time (R374, R378, R379). -/
def hostBeats (s : State) (i c : Nat) : Nat :=
  match (s.slice i).nbu.find? (fun r => r.cmd.host && r.worked && decide (r.bankEnd ≤ c)) with
  | some r => Nat.min 16 (r.records.length - r.sent)
  | none => if hostCmdFits s i c then 10 else 0

/-- The isle cycles of a burst of `b` beats (R79). -/
def burstCycles (b : Nat) : Nat := cdiv (15 * b) 4 + 4

/-- The reservations of a slice's ferry bus, which stand in wet and replay frames (R373). -/
def reservations (s : State) (i : Nat) : List (Nat × Nat) :=
  match archOf s i with
  | some a => if (s.arch a).frame == .wet || (s.arch a).frame == .replay then (s.slice i).reserved else []
  | none => []

/-- Whether a burst of `b` beats may be granted in cycle `c`: the bus is free of bursts and reservations, and the burst ends before
the next reservation (R374, R375). -/
def burstFits (s : State) (i c b : Nat) : Bool :=
  decide ((s.slice i).busFree ≤ c) && (reservations s i).all (fun r => decide (r.2 ≤ c) || decide (c + burstCycles b ≤ r.1))

/-- FERRY_ARBITRATION_ROUND: in cycle `c` a burst is granted to the waiting requester with the highest effective priority among those
whose burst fits; `mgmt` and `slc` are the beats that those two wait to send (R374 to R377). -/
def execFerryArbitrationRound (i c mgmt slc : Nat) (s : State) : Result :=
  .next (
    let v := s.slice i
    let g := fun f : Field => s.get (f.at [i / 64, i % 64])
    let beats := [hostBeats s i c, Nat.min 16 mgmt, Nat.min 16 slc]
    let waits := beats.map (fun b => b != 0 && burstFits s i c b)
    let prios := [g R.NBU_ARB_HOST_PRIO, g R.NBU_ARB_MGMT_PRIO, g R.NBU_ARB_SLC_PRIO]
    let lost := fun k => (nth v.ferry k {}).lost
    match arbitrate waits (fun k => effPriority (nth prios k 0) (g R.NBU_ARB_AGE_ROUNDS) (lost k)) v.ferryLast with
    | none => s
    | some w =>
      let fs := (List.range 3).map (fun k =>
        let wait := nth beats k 0 != 0
        ({ waiting := wait && k != w, lost := if k == w then 0 else lost k + b2n (nth waits k false) } : FerryReq))
      let b := nth beats w 0
      let s := s.modSlice i (fun v => { v with ferry := fs, ferryLast := w, busFree := c + burstCycles b })
      if w != 0 then s
      else if hostCmdFits s i c then s.modSlice i (fun v => { v with hostGrant := some c })
      else
        let mine := fun (r : NbuRun) => r.cmd.host && r.worked && decide (r.bankEnd ≤ c)
        s.modSlice i (fun v => { v with nbu := modFirst mine (fun r => { r with sent := r.sent + b }) v.nbu }))

end Sys2Proof.Machine
end

