-- ==== Sys2Proof/Machine/Host.lean ====
section
/-!
DEFINITION. The host interface: BAR0 and BAR2 requests, DMA engines, arbitration, link and function resets (R9 to R12,
R435 to R477).
-/
namespace Sys2Proof.Machine

/-! Completions. -/

/-- Completion status codes: successful, unsupported request, completer abort. -/
def cplOk : Nat := 0
def cplUnsupported : Nat := 1
def cplAbort : Nat := 4

/-! BAR0. -/

/-- The isle whose ISL_STATE_REQ lies at an address. -/
def requestAt (a : Nat) : Option Nat :=
  if decide (0x1000000 ≤ a) && decide (a < 0x2000000) && a % 65536 == 8 then some ((a - 0x1000000) / 65536) else none

/-- A write of 0, none, to a REQ field replaces the request that is pending (R135). -/
def noneRequested (a v : Nat) (s : State) : State :=
  match requestAt a with
  | some i => if bits v 0 3 = 0 && domainOn s 0 then forgetRequest i s else s
  | none => s

/-- A write served at a 32-bit or 64-bit register, or ignored (R11, R12). -/
def bar0WriteAt (func a bytes v : Nat) (s : State) : State :=
  match regAt (viewAddr func a) with
  | some r => if listed s func a && r.bytes == bytes then noneRequested a v (writeReg s func r v) else s
  | none => s

/-- The MSI-X table of a function: vector and word at an offset (R440). -/
def msixAt (func a : Nat) : Option (Nat × Nat) :=
  if decide (0x10000 ≤ a) && decide (a < 0x10000 + 16 * vectorCount func) && a % 4 == 0 then
    some ((a - 0x10000) / 16, a % 16 / 4)
  else none

/-- A four-byte write. -/
def bar0Write4 (func a v : Nat) (s : State) : State :=
  match msixAt func a with
  | some (vec, w) => if domainOn s 1 then writeMsix func vec w v s else s
  | none => bar0WriteAt func a 4 v s

/-- A BAR0 request of the wrong size or alignment is counted (R443). -/
def bar0Bad (func : Nat) (s : State) : State := raiseOnceFrame 0x0011 func 0 (s.bump R.GLB_HIF_ERR_BAR0_BAD)

/-- A write of `width` bytes by a function: naturally aligned 4 or 8 bytes are served, 8 bytes elsewhere than at a 64-bit register
as two writes of 4; any other is discarded and counted (R12, R443). -/
def registerWrite (func a width v : Nat) (s : State) : State :=
  if !decodes s func then s
  else if width < 4 || a % width ≠ 0 then bar0Bad func s
  else if width = 8 then
    match regAt (viewAddr func a) with
    | some r =>
      if r.bytes = 8 then bar0WriteAt func a 8 v s
      else bar0Write4 func (a + 4) (bits v 32 32) (bar0Write4 func a (bits v 0 32) s)
    | none => bar0Write4 func (a + 4) (bits v 32 32) (bar0Write4 func a (bits v 0 32) s)
  else bar0Write4 func a v s

/-- The place of VF Enable and NumVFs of the SR-IOV capability among the addresses of REGISTER_WRITE: past the last byte of BAR0. -/
def vfControl : Nat := 2 ^ 26

/-- VF Enable set with a number of virtual functions, while it is clear (R435); VF_DISABLE clears it. -/
def vfEnable (n : Nat) (s : State) : State :=
  if s.hif.vfs = 0 && decide (n ≤ 16) && domainOn s 1 then { s with hif := { s.hif with vfs := n } } else s

/-- REGISTER_WRITE (R9 to R12): a register of BAR0, or VF Enable. -/
def execRegisterWrite (func a width v : Nat) (s : State) : Result :=
  .next (if func = 0 && a = vfControl then vfEnable v s
    else ordered func [] (.registerWrite func a width v) (registerWrite func a width v) s)

/-- A word of the pending bit array (R440). -/
def pendingWord (s : State) (func k : Nat) : Nat :=
  ((List.range 32).map (fun j =>
    if 32 * k + j < vectorCount func then KMap.get 0 s.hif.msixPending (func * 1024 + 32 * k + j) * 2 ^ j else 0)).sum

/-- The bollard whose BOL_TAS, the isle whose ISL_STATE, and the quay whose QUA_PEEK, lies at an address. -/
def tasAt (a : Nat) : Option Nat :=
  if decide (0x300000 ≤ a) && decide (a < 0x310000) && a % 16 == 8 then some ((a - 0x300000) / 16) else none
def isleStateAt (a : Nat) : Option Nat :=
  if decide (0x1000000 ≤ a) && decide (a < 0x2000000) && a % 65536 == 0 then some ((a - 0x1000000) / 65536) else none
def peekAt (a : Nat) : Option Nat :=
  if decide (0x200000 ≤ a) && decide (a < 0x204000) && a % 256 == 40 then some ((a - 0x200000) / 256) else none

/-- A TAS that is alone in its cycle: the value before it, and the state after it (R416). -/
def tasNow (b : Nat) (s : State) : Nat × State :=
  let v := bollard s b
  (v, if v = 0 then evalWaiters [b] [] (setBollard b 1 s) else s)

/-- What a ring in host memory holds at its CI, as a read that brings no answer of the host's finds it: an open value. -/
def hostHeader (s : State) : Nat × State :=
  let (n, s) := s.draw
  ((Config.freeWord 16 n).toNat, s)

/-- A register read whole, by a request of its width: the value, and the state after the side effects (R9, R12). -/
def readWhole (func a : Nat) (r : Reg) (s : State) : Nat × State :=
  match tasAt a, isleStateAt a, peekAt a with
  | some b, _, _ => if bollardReached s func b then tasNow b s else (0, s)
  | none, some i, _ => if domainOn s 0 then readIsleState i s else (0, s)
  | none, none, some q =>
    let (h, s) := hostHeader s
    readPeek func q h s
  | none, none, none => (regValue s r func, clearRead r s func)

/-- A register's value as a read narrower than it finds it: no side effects (R12). -/
def readPart0 (func a : Nat) (r : Reg) (s : State) : Nat :=
  match tasAt a, isleStateAt a, peekAt a with
  | some b, _, _ => if bollardReached s func b then bollard s b else 0
  | none, some i, _ => if domainOn s 0 then isleStateWord s i else 0
  | none, none, some q => let (h, s) := hostHeader s; (readPeek func q h s).1
  | none, none, none => regValue s r func

/-- Whether a function reads at all: the pilots need PD0, the functions PD1. -/
def readsOn (s : State) (func : Nat) : Bool := if func = pilots then domainOn s 0 else domainOn s 1

/-- The four bytes at an aligned address as a read narrower than the register there finds them. -/
def bar0Peek4 (func a : Nat) (s : State) : Nat :=
  if !readsOn s func then 0
  else
    match msixAt func a with
    | some (vec, w) => msixWord s func vec w
    | none =>
      if decide (0x18000 ≤ a) && decide (a < 0x18000 + vectorCount func / 8) then pendingWord s func ((a - 0x18000) / 4)
      else
        match regAt (viewAddr func a), regAt (viewAddr func (a - 4)) with
        | some r, _ => if listed s func a then bits (readPart0 func (viewAddr func a) r s) 0 32 else 0
        | none, some r => if r.bytes = 8 && listed s func (a - 4) then bits (readPart0 func (viewAddr func (a - 4)) r s) 32 32 else 0
        | none, none => 0

/-- A read of four bytes: the value, and the state after its side effects, which a 32-bit register has. -/
def bar0Read4 (func a : Nat) (s : State) : Nat × State :=
  match regAt (viewAddr func a), msixAt func a with
  | some r, none =>
    if readsOn s func && r.bytes == 4 && listed s func a then readWhole func (viewAddr func a) r s else (bar0Peek4 func a s, s)
  | _, _ => (bar0Peek4 func a s, s)

/-- A naturally aligned read of 1, 2, 4 or 8 bytes (R12). -/
def bar0Read (func a width : Nat) (s : State) : Nat × State :=
  let two := fun (s : State) =>
    let (x, s) := bar0Read4 func a s
    let (y, s) := bar0Read4 func (a + 4) s
    (x + y * 2 ^ 32, s)
  if width = 8 then
    match regAt (viewAddr func a) with
    | some r =>
      if r.bytes = 8 then
        if readsOn s func && listed s func a then readWhole func (viewAddr func a) r s else (0, s)
      else two s
    | none => two s
  else if width = 4 then bar0Read4 func a s
  else (bits (bar0Peek4 func (a / 4 * 4) s / 2 ^ (8 * (a % 4))) 0 (8 * width), s)

/-- A read answered: a function that decodes no BAR answers no register read, and a misaligned one is refused (R443). -/
def bar0Answer (func a width : Nat) (s : State) : State :=
  if !decodes s func then s.emit (.readRefused func)
  else if width = 0 || a % width ≠ 0 then (bar0Bad func s).emit (.readRefused func)
  else
    let (v, s) := bar0Read func a width s
    s.emit (.value v)

/-- Whether a read performs a TAS: four bytes or more that cover a BOL_TAS. -/
def readsTas (a width : Nat) : Bool :=
  (width == 4 && (tasAt a).isSome) || (width == 8 && ((tasAt a).isSome || (tasAt (a + 4)).isSome))

/-- READ_CLEAR: what a read of a register returns, and, for a full-width read, the restart of the register's RC fields (R9,
R12). -/
def execReadClear (func a width : Nat) (s : State) : Result :=
  .next (ordered func (if readsTas a width then writesBefore func s else []) (.readClear func a width) (bar0Answer func a width) s)

/-- The address of a byte of ISL_STATE: `x` counts 8 for each isle. -/
def isleStateAddr (x : Nat) : Nat := (R.ISL_STATE_STATE.at [x / 8]).addr + x % 8

/-- ISL_STATE_READ: a read by the physical function from a byte of ISL_STATE on (R137, R138). -/
def execIslStateRead (x width : Nat) (s : State) : Result :=
  .next (ordered 0 [] (.islStateRead x width) (bar0Answer 0 (isleStateAddr x) width) s)

/-- BOL_TAS read whole: a TAS among the operations of its cycle (R423). -/
def bollardTas (who b : Nat) (more : Bool) (s : State) : State :=
  if bollardReached s who b then cycleOp ⟨issuerRank who, b, none⟩ more s else s.emit (.value 0)

/-- The address of a byte of BOL_TAS: `x` counts 8 for each bollard. -/
def tasAddr (x : Nat) : Nat := (R.BOL_TAS_OLD.at [x / 8]).addr + x % 8

/-- A read from a byte of BOL_TAS on: a full-width one of BOL_TAS alone may have more of its cycle to come. -/
def tasRead (r : InCycle) (x width : Nat) (s : State) : State :=
  if x % 8 = 0 && width = 4 && decodes s r.who then bollardTas r.who (x / 8) r.more s else bar0Answer r.who (tasAddr x) width s

/-- BOLLARD_TAS: a read from a byte of BOL_TAS on; only a full-width read performs TAS (R12, R416). -/
def execBollardTas (r : InCycle) (x width : Nat) (s : State) : Result :=
  .next (ordered r.who (if readsTas (tasAddr x) width then writesBefore r.who s else []) (.bollardTas r x width) (tasRead r x width) s)

/-- BAR0_BAD_REQUEST: a request of the wrong size or alignment (R443). -/
def execBar0BadRequest (func tag : Nat) (read : Bool) (s : State) : Result :=
  let s := bar0Bad func s
  .next (if read then s.emit (.completion tag cplUnsupported [] false) else s)

/-- An error reported through AER: the first of a function leaves its header in the log (R435, R453). -/
def aerReport (func : Nat) (what : String) (hdr : List Nat) (s : State) : State :=
  let kept := KMap.get [] s.hif.headerLog func
  let s := if kept.isEmpty then { s with hif := { s.hif with headerLog := KMap.put [] s.hif.headerLog func hdr } } else s
  s.emit (.aer func what hdr)

/-- MALFORMED_TLP: other host traffic that the specification or the module does not take (R477). -/
def execMalformedTlp (func : Nat) (tlp : Tlp) (kind : TlpKind) (s : State) : Result :=
  .next (match kind with
    | .malformed => aerReport func "Malformed TLP" tlp.hdr s
    | .unsupported bar0 =>
      let s := if bar0 then s.bump R.GLB_HIF_ERR_BAR0_BAD else s
      aerReport func "Unsupported Request" tlp.hdr (s.emit (.completion tlp.tag cplUnsupported [] false))
    | .vendorMessage => s
    | .zeroLengthRead => s.emit (.completion tlp.tag cplOk [0, 0, 0, 0] false)
    | .unexpectedCompletion => aerReport func "Unexpected Completion" tlp.hdr s
    | .poisonedWrite => aerReport func "Poisoned TLP Received" tlp.hdr s)

/-! The link. -/

/-- LINK_TRAINED: a training ends at a rate and width (R436). -/
def execLinkTrained (rate width : Nat) (flit ide : Bool) (s : State) : Result :=
  .next (
    if !domainOn s 1 then s
    else
      let s := s.set R.GLB_SUPPLY_REFCLK100_OK 1
      let s := ((s.set R.GLB_HIF_LINK_RATE rate).set R.GLB_HIF_LINK_WIDTH width).setFlag R.GLB_HIF_LINK_FLIT flit
      let s := (s.setFlag R.GLB_HIF_LINK_IDE_SECURE ide).bump R.GLB_HIF_LINK_RETRAINS
      if rate < 5 || width < 16 then raise 0x0015 0 0 s else s)

/-- IDE_INTEGRITY_FAILURE: the stream leaves Secure (R438). -/
def execIdeIntegrityFailure (s : State) : Result :=
  .next (raise 0x0016 0 0 (aerReport 0 "IDE Check Failed" [] (s.set R.GLB_HIF_LINK_IDE_SECURE 0)))

/-! BAR2. -/

/-- VIEW written. -/
def hostviewWrite (view : Nat) (s : State) : State := if decodes s 0 then s.set R.GLB_HOSTVIEW_VIEW view else s

/-- HOSTVIEW_WRITE: the view of later BAR2 requests (R286). -/
def execHostviewWrite (view : Nat) (s : State) : Result := .next (ordered 0 [] (.hostviewWrite view) (hostviewWrite view) s)

/-- OFFSET_GIB written, and the BAR2 size set (as log2 of GiB). -/
def bar2WindowWrite (offset size : Nat) (s : State) : State :=
  if decodes s 0 then
    { s.set R.GLB_BAR2_WINDOW_OFFSET_GIB offset with hif := { s.hif with bar2Size := Nat.min size 7 } } else s

/-- BAR2_WINDOW_WRITE: the place and size of later BAR2 requests (R445, R447). -/
def execBar2WindowWrite (offset size : Nat) (s : State) : Result :=
  .next (ordered 0 [] (.bar2WindowWrite offset size) (bar2WindowWrite offset size) s)

/-- A BAR2 request refused (R453). -/
def bar2Refuse (tag : Nat) (write : Bool) (hdr : List Nat) (s : State) : State :=
  let s := raiseOnceFrame 0x0012 0 0 (s.bump R.GLB_HIF_ERR_REFUSED)
  if write then aerReport 0 "Completer Abort" hdr s else s.emit (.completion tag cplAbort [] false)

/-- The view address of BAR2 byte x (R446). -/
def bar2Address (s : State) (x : Nat) : Nat :=
  let size := 2 ^ (30 + s.hif.bar2Size)
  s.get R.GLB_BAR2_WINDOW_OFFSET_GIB * 2 ^ 30 / size * size + x

/-- BAR2_REQUEST: a read of `len` bytes, or a write of `data`, at BAR2 byte x (R446 to R455). A request that the module has no
credit for is withheld (R449). -/
def execBar2Request (tlp : Tlp) (x len : Nat) (write : Bool) (data : List Nat) (ep : Bool) (s : State) : Result :=
  .next (
    let n := if write then data.length else len
    let size := 2 ^ (30 + s.hif.bar2Size)
    let dpa := viewDpa (s.flag R.GLB_HOSTVIEW_VIEW) (bar2Address s x)
    let i := dpaIsle dpa
    let o := dpaOffset dpa
    if !decodes s 0 || x + n > size || n = 0 then s
    else if write && ep then aerReport 0 "Poisoned TLP Received" tlp.hdr s
    else if (write && decide (stagedBytes s + n > 2 ^ 21)) || (!write && decide (heldReads s ≥ 512)) then s.emit (.withheld tlp.tag)
    else if hostRefused s i o n write then bar2Refuse tlp.tag write tlp.hdr (noteNoKey i o n s)
    else pushAccess i { src := .bar2 tlp.tag tlp.hdr, off := o, len := n, write := write, data := if write then data else [] } s)

/-- Whether an access is the BAR2 request of a tag. -/
def ofTag (tag : Nat) (a : HostAcc) : Bool :=
  match a.src with
  | .bar2 t _ => t == tag
  | _ => false

/-! DMA engines. -/

def State.dma (s : State) (e : Nat) : Dma := KMap.get {} s.hif.dma e
def State.setDma (s : State) (e : Nat) (v : Dma) : State := { s with hif := { s.hif with dma := KMap.put {} s.hif.dma e v } }
def State.modDma (s : State) (e : Nat) (f : Dma → Dma) : State := s.setDma e (f (s.dma e))

def dmaCi (s : State) (e : Nat) : Nat := s.get (R.DMA_CONS_CI.at [e])
def dmaPi (s : State) (e : Nat) : Nat := s.get (R.DMA_PROD_PI.at [e])
def dmaRing (s : State) (e : Nat) : Nat := 2 ^ Nat.max 4 (Nat.min 16 (s.get (R.DMA_CTRL_SIZE_LOG2.at [e])))

/-- The host address of the descriptor at CI (R456). -/
def dmaDescAddr (s : State) (e : Nat) : Nat :=
  s.get (R.DMA_RING_BASE_ADDR.at [e]) * 2 ^ 12 + dmaCi s e % dmaRing s e * 32

/-- Codes after which an engine halts (R463). -/
def dmaHalts (code : Nat) : Bool := code != 0 && code != 5

/-- A descriptor ends with a status: STATUS is written, CI advances, and the engine may halt and notify (R462 to R465). With
the link down the write cannot be sent. -/
def dmaEnd (e code : Nat) (linkUp : Bool) (s : State) : State :=
  let d := (s.dma e).desc
  let status := (leBytes 8 (code + 2 ^ 63)).map (fun b => b.toNat)
  let s := if linkUp then s.emit (.hostWrite 0 (dmaDescAddr s e + 24) status false) else s
  let s := ((s.set (R.DMA_STATUS_LAST_CODE.at [e]) code).set (R.DMA_STATUS_BUSY.at [e]) 0).count (R.DMA_CONS_CI.at [e])
  let s := s.setDma e {}
  let s := filterAccesses (fun a => a.src != .dma e) s
  let s := releaseArbiters e (s.setReads (KMap.erase s.hif.reads e))
  let s := if dmaHalts code then raise 0x0013 e code (s.set (R.DMA_STATUS_HALTED.at [e]) 1) else s
  match d with
  | some d => if d.notify then notify 0 (s.get (R.DMA_CTRL_VECTOR.at [e])) s else s
  | none => s

/-- Whether every byte an engine has asked for has moved: no burst is in progress. -/
def dmaSettled (v : Dma) : Bool := v.burst == 0 && v.moved == v.asked

/-- An engine that is stopping ends its descriptor as ABORTED once its bursts have ended (R466). -/
def dmaSettle (e : Nat) (s : State) : State :=
  if (s.dma e).stopping && dmaSettled (s.dma e) then dmaEnd e 6 true s else s

/-- Bytes of an engine have moved (DMA_BYTES), some of them bad (R463 code 5). -/
def dmaMoved (e n : Nat) (bad : Bool) (s : State) : State :=
  (s.count (R.DMA_BYTES_BYTES.at [e]) n).modDma e (fun v => { v with moved := v.moved + n, poisoned := v.poisoned || bad })

/-- An engine stopped (R466): at once where no burst is in progress. With the link down a burst that the link was to bring is
lost, and the rest of the data goes with it. -/
def dmaStop (linkUp : Bool) (e : Nat) (s : State) : State :=
  let s := s.set (R.DMA_CTRL_ENABLE.at [e]) 0
  let v := s.dma e
  if v.desc.isNone then s
  else if linkUp && !dmaSettled v then s.setDma e { v with stopping := true }
  else dmaEnd e 6 linkUp s

/-- DMA_CTRL written with ENABLE = 1: PI and CI are 0 (R457). An engine that still holds a descriptor takes no new start. -/
def dmaEnable (e ctrl : Nat) (s : State) : State :=
  if !decodes s 0 then s
  else
    let s := writeRest 0 (R.DMA_CTRL_ENABLE.at [e]).addr ctrl s
    if (s.dma e).desc.isSome then s
    else ((s.set (R.DMA_PROD_PI.at [e]) 0).set (R.DMA_CONS_CI.at [e]) 0).set (R.DMA_CTRL_ENABLE.at [e]) 1

/-- DMA_ENABLE (R457). -/
def execDmaEnable (e ctrl : Nat) (s : State) : Result := .next (ordered 0 [] (.dmaEnable e ctrl) (dmaEnable e ctrl) s)

/-- DMA_CTRL written with ENABLE = 0. -/
def dmaDisable (e ctrl : Nat) (s : State) : State :=
  if !decodes s 0 then s else dmaStop true e (writeRest 0 (R.DMA_CTRL_ENABLE.at [e]).addr ctrl s)

/-- DMA_DISABLE (R466). -/
def execDmaDisable (e ctrl : Nat) (s : State) : Result := .next (ordered 0 [] (.dmaDisable e ctrl) (dmaDisable e ctrl) s)

/-- DMA_PROD written. -/
def dmaDoorbell (e pi : Nat) (s : State) : State :=
  if !decodes s 0 then s
  else if idxSub pi (dmaCi s e) > dmaRing s e then s.bump (R.DMA_STATUS_DB_REFUSED.at [e])
  else s.set (R.DMA_PROD_PI.at [e]) pi

/-- DMA_DOORBELL (R457). -/
def execDmaDoorbell (e pi : Nat) (s : State) : Result := .next (ordered 0 [] (.dmaDoorbell e pi) (dmaDoorbell e pi) s)

/-- 1 written to HALTED. -/
def dmaResume (e : Nat) (s : State) : State := if decodes s 0 then s.set (R.DMA_STATUS_HALTED.at [e]) 0 else s

/-- DMA_RESUME (R465). -/
def execDmaResume (e : Nat) (s : State) : Result := .next (ordered 0 [] (.dmaResume e) (dmaResume e) s)

/-- The 32 bytes of a descriptor, if its reserved fields hold 0 and its range lies below 128 GiB (R458, R463 code 1). -/
def dmaDescOf (d : List Nat) : Option DmaDesc :=
  let dev := leAt d 8 8
  let len := leAt d 16 4
  let flags := leAt d 20 2
  if dev ≥ 2 ^ 37 || len ≥ 2 ^ 24 || flags ≥ 8 || leAt d 22 2 ≠ 0 || dev + len + 1 > 2 ^ 37 then none
  else some ⟨leAt d 0 8, dev, len + 1, bit flags 0, bit flags 1, bit flags 2⟩

/-- DMA_DESCRIPTOR_START: the engine reads and takes its next descriptor (R456, R459); the read of it returned 32 bytes, or an
error (1), or poisoned data (2). -/
def execDmaDescriptorStart (e : Nat) (raw : List Nat) (status : Nat) (s : State) : Result :=
  .next (
    if !s.flag (R.DMA_CTRL_ENABLE.at [e]) || s.flag (R.DMA_STATUS_HALTED.at [e]) || (s.dma e).desc.isSome
        || dmaPi s e = dmaCi s e || !hostLinkReady s then s
    else
      let s := (s.set (R.DMA_STATUS_BUSY.at [e]) 1).emit (.hostRead 0 (dmaDescAddr s e) 32)
      if status = 1 then dmaEnd e 2 true s
      else if status = 2 then dmaEnd e 3 true s
      else
        match dmaDescOf raw with
        | none => dmaEnd e 1 true s
        | some d => s.setDma e { desc := some d })

/-- DMA_TRANSFER_COMPLETE: every byte has moved (R461, R462). -/
def execDmaTransferComplete (e : Nat) (s : State) : Result :=
  .next (
    match (s.dma e).desc with
    | none => s
    | some d =>
      if (s.dma e).moved < d.len || !dmaSettled (s.dma e) then s else dmaEnd e (if (s.dma e).poisoned then 5 else 0) true s)

/-! Arbitration (R468 to R471). -/

/-- The length of a requester's next burst: at most 4 KiB, crossing no 4 KiB boundary of either address (R459). -/
def burstLen (left a b : Nat) : Nat := Nat.min left (Nat.min (4096 - a % 4096) (4096 - b % 4096))

def dmaNext (d : DmaDesc) (moved : Nat) : Nat := burstLen (d.len - moved) (d.host + moved) (d.dev + moved)

/-- The emission of a quay that has payload to send on the link: the oldest committed, or the one in progress. -/
def sending (v : Quay) : Option Emission :=
  match v.closing with
  | e :: _ => some e
  | [] => v.emission

/-- Whether a requester waits in the arbiter of a direction: with room in the staging buffer, for what goes to the device
(R449). -/
def waitsFor (s : State) (toHost : Bool) (r : Nat) : Bool :=
  let room := fun n => decide (stagedBytes s + n ≤ 2 ^ 21)
  if r < 8 then
    let v := s.dma r
    match v.desc with
    | none => false
    | some d => d.toHost == toHost && v.burst == 0 && decide (v.asked < d.len) && !v.stopping
        && (toHost || room (dmaNext d v.asked))
  else
    let v := s.quay (r - 8)
    if toHost then
      match sending v with
      | some e => decide (e.sent < e.data.length) && !inDevice s (r - 8)
      | none => false
    else
      match v.packet with
      | some p => p.started && decide (p.fetched < p.bytes) && p.fetched == p.queued && p.fate.isNone
          && room (Nat.min 4096 (p.bytes - p.fetched))
      | none => false

/-- The programmed priority of a requester (R470). -/
def requesterPrio (s : State) (r : Nat) : Nat :=
  if r < 8 then s.get (R.DMA_CTRL_PRIO.at [r]) else s.get R.GLB_DMA_ARB_QUAY_PRIO

/-- An engine's burst begins: a host read, or a read of device memory (R460). -/
def grantDma (e : Nat) (d : DmaDesc) (s : State) : State :=
  let v := s.dma e
  let n := dmaNext d v.asked
  let s := s.setDma e { v with burst := n, asked := v.asked + n }
  if d.toHost then pushRead (.dma e) (viewDpa d.direct (d.dev + v.asked)) n s
  else (s.setReads (KMap.put 0 s.hif.reads e n)).emit (.hostRead 0 (d.host + v.asked) n)

/-- A delivery's burst begins: the next payload bytes are read from its ring. -/
def grantDelivery (q : Nat) (b : QuayBind) (p : Packet) (s : State) : State :=
  let a := ringByte s q (quayCi s q + 1) p.fetched
  let wrap := ringBase s q + ringWords s q * 64 - a
  let n := Nat.min wrap (burstLen (p.bytes - p.fetched) a (p.target + p.fetched))
  let s := s.modQuay q (fun v => { v with packet := some { p with queued := p.fetched + n } })
  if inDevice s q then pushRead (.ringRead q) a n s
  else (s.setReads (KMap.put 0 s.hif.reads (quayRequester q) n)).emit (.hostRead b.func a n)

/-- An emission's burst: payload words read are written to their ring slots (R402), up to 4 KiB. -/
def grantEmission (q : Nat) (b : QuayBind) (e : Emission) (s : State) : State :=
  let a := ringByte s q (e.start + 1) e.sent
  let wrap := ringBase s q + ringWords s q * 64 - a
  let n := Nat.min wrap (burstLen (e.data.length - e.sent) a a)
  let s := ringWrite (.ringPut q false) q b.func (e.start + 1) e.sent ((e.data.drop e.sent).take n) s
  let e := { e with sent := e.sent + n }
  let closing := (s.quay q).closing
  if closing.isEmpty then s.modQuay q (fun v => { v with emission := some e })
  else drainClosing q b closing.length (s.modQuay q (fun v => { v with closing := e :: v.closing.drop 1 }))

/-- The granted requester's burst begins; an emission's burst ends at once. -/
def grantBurst (toHost : Bool) (r : Nat) (s : State) : State :=
  if r < 8 then
    match (s.dma r).desc with
    | some d => grantDma r d s
    | none => s
  else
    let q := r - 8
    match bindOf s q with
    | none => s
    | some b =>
      if toHost then
        match sending (s.quay q) with
        | some e => releaseArbiters r (grantEmission q b e s)
        | none => s
      else
        match (s.quay q).packet with
        | some p => grantDelivery q b p s
        | none => s

/-- DMA_ARBITRATION_ROUND: a round of the arbiter of one direction (R469 to R471). -/
def execDmaArbitrationRound (toHost : Bool) (s : State) : Result :=
  .next (
    let arb := if toHost then s.hif.toHost else s.hif.toDevice
    let waits := (List.range 72).map (waitsFor s toHost)
    if arb.busy.isSome || !hostLinkReady s then s
    else
      match arbitrate waits (fun r => effPriority (requesterPrio s r) (s.get R.GLB_DMA_ARB_AGE_ROUNDS) (KMap.get 0 arb.lost r))
          arb.last with
      | none => s
      | some w =>
        let lost := (List.range 72).foldl (fun m r =>
          if r = w then KMap.put 0 m r 0 else if nth waits r false then KMap.put 0 m r (KMap.get 0 m r + 1) else m) arb.lost
        let arb : Arbiter := ⟨lost, w, some w⟩
        let s := { s with hif := if toHost then { s.hif with toHost := arb } else { s.hif with toDevice := arb } }
        grantBurst toHost w s)

/-! Completions of host reads (R463, R395 reason 6). -/

/-- A packet that fails after its checks (R396, R399): its reads and the bursts that wait are dropped. -/
def fetchFailed (q : Nat) (reason : Nat) (s : State) : State :=
  match (s.quay q).packet with
  | some p =>
    let s := filterAccesses (fun a => !ofQuay q a) s
    let s := releaseArbiters (quayRequester q) (s.setReads (KMap.erase s.hif.reads (quayRequester q)))
    packetBad q reason p s
  | none => s

/-- Payload bytes staged for delivery: they go to the target isle's queue (R397). -/
def stageDelivery (q : Nat) (data : List Nat) (s : State) : State :=
  match (s.quay q).packet with
  | none => s
  | some p =>
    let s := s.modQuay q (fun v => { v with packet := some { p with fetched := p.fetched + data.length } })
    pushWrite (.delivery q) (p.target + p.fetched) data (releaseArbiters (quayRequester q) s)

/-- A burst of data for device memory staged: it goes to its isle's queue, and the burst is over for the arbiter (R448, R469). -/
def stageDma (e : Nat) (data : List Nat) (s : State) : State :=
  match (s.dma e).desc with
  | none => s
  | some d =>
    let v := s.dma e
    let s := releaseArbiters e (s.setDma e { v with burst := 0 })
    pushWrite (.dma e) (viewDpa d.direct (d.dev + (v.asked - v.burst))) data s

/-- A failed read: an engine halts with HOST_ERR or HOST_POISON; a packet is bad. -/
def hostReadFailed (r code : Nat) (s : State) : State :=
  if r < 8 then dmaEnd r code true s else fetchFailed (r - 8) 6 s

/-- HOST_READ_COMPLETION: a completion for a requester's outstanding read, with its data, an error (1) or EP (2); an error for an
engine that sends to the host is that of its writes (R463). A completion that nothing asked for is discarded (R477). -/
def execHostReadCompletion (tlp : Tlp) (status : Nat) (data : List Nat) (s : State) : Result :=
  .next (
    let r := tlp.tag
    let n := KMap.get 0 s.hif.reads r
    let writes := r < 8 && (match (s.dma r).desc with
      | some d => d.toHost
      | none => false)
    if n = 0 then
      if writes && status = 1 then dmaEnd r 2 true s else aerReport 0 "Unexpected Completion" tlp.hdr s
    else
      let s := s.setReads (KMap.erase s.hif.reads r)
      if status = 1 then hostReadFailed r 2 s
      else if status = 2 then hostReadFailed r 3 s
      else if r < 8 then stageDma r (data.take n) s
      else stageDelivery (r - 8) (data.take n) s)

/-- COMPLETION_TIMEOUT: no completion came for a requester's read (R463). -/
def execCompletionTimeout (r : Nat) (s : State) : Result :=
  .next (if KMap.get 0 s.hif.reads r = 0 then s else hostReadFailed r 2 (s.setReads (KMap.erase s.hif.reads r)))

/-! Function resets, power states and link loss. -/

/-- Every slot of an owner disarmed (R433). -/
def disarmAll (owner : Nat) (s : State) : State :=
  (List.range 256).foldl (fun t w => if slotOwner w == owner then disarm w t else t) s

/-- The effects of R472 on a virtual function. -/
def vfReset (f : Nat) (s : State) : State :=
  clearMsix f (disarmAll f (quaysOff (fun b => b.func == f) s))

/-- VF Enable cleared (R433, R473). -/
def vfsOff (s : State) : State := (List.range 16).foldl (fun t k => vfReset (k + 1) t) s

/-- VF_FLR (R472). -/
def execVfFlr (f : Nat) (s : State) : Result := .next (vfReset f s)

/-- VF_DISABLE: VF Enable is cleared (`n` = 0), which disables the virtual functions (R433, R472), or is set with NumVFs = `n`
(R435). -/
def execVfDisable (s : State) : Result :=
  let t := vfsOff s
  .next { t with hif := { t.hif with vfs := 0 } }

/-- Every DMA engine stopped. -/
def dmaStopAll (linkUp : Bool) (s : State) : State := (List.range 8).foldl (fun t e => dmaStop linkUp e t) s

/-- The effects of a function-level reset of the physical function (R473). -/
def pfReset (linkUp : Bool) (s : State) : State :=
  let s := quaysOff (fun b => b.func == 0) (dmaStopAll linkUp s)
  let s := clearMsix 0 (disarmAll 0 s)
  let s := (s.set R.GLB_BAR2_WINDOW_OFFSET_GIB 0).set R.GLB_HOSTVIEW_VIEW 0
  let s := vfsOff { s with hif := { s.hif with bar2Size := 0 } }
  { s with hif := { s.hif with vfs := 0 } }

/-- PF_FLR (R473). -/
def execPfFlr (s : State) : Result := .next (pfReset true s)

/-- D3HOT_ENTRY (R475). -/
def execD3hotEntry (f : Nat) (s : State) : Result :=
  .next (if s.hif.d3hot.contains f then s else { s with hif := { s.hif with d3hot := f :: s.hif.d3hot } })

/-- D3HOT_EXIT (R475). -/
def execD3hotExit (f : Nat) (s : State) : Result :=
  .next { s with hif := { s.hif with d3hot := s.hif.d3hot.filter (fun g => g != f) } }

/-- Whether an access is a BAR2 request. -/
def isBar2 (a : HostAcc) : Bool :=
  match a.src with
  | .bar2 _ _ => true
  | _ => false

/-- The Data Link Layer goes down (R476): BAR2 requests are discarded, and with them the BAR0 requests that wait for them, so that no
bollard changes (R474); engines stop, and quays with rings in host memory are disabled. -/
def linkDown (s : State) : State :=
  let s := filterAccesses (fun a => !isBar2 a) s
  let s := { s with hif := { s.hif with held := [] } }
  quaysOff (fun b => !inDevice s b.quay) (dmaStopAll false s)

/-- DATA_LINK_DOWN (R476). -/
def execDataLinkDown (s : State) : Result := .next (linkDown s)

end Sys2Proof.Machine
end

