-- ==== Sys2Proof/Machine/Refuge.lean ====
section
/-!
DEFINITION. The checkpoint engine's units (R750 to R752), what it reads from the slices and sends (R761, R770), and the
refuge it keeps for a source (R753 to R757).
-/
namespace Sys2Proof.Machine

def State.setCkp (s : State) (c : Ckp) : State := { s with ckp := c }

/-- STATE of CKP_STATUS. -/
def ckpIdle : Nat := 0
def ckpQuiescing : Nat := 1
def ckpSending : Nat := 2
def ckpSealed : Nat := 3
def ckpRestoring : Nat := 4
def ckpState (s : State) : Nat := s.get R.CKP_STATUS_STATE

/-! Dirty maps (R742 to R744). -/

def popcount (w : Nat) : Nat := ((List.range 32).map (fun b => b2n (bit w b))).sum

/-- A word of a dirty map, by isle × 256 + word. -/
def mapField (k : Nat) : Field := R.CKP_MAP_BITS.at [k / 256, k % 256]

/-- A word of a dirty map set, and the count of its isle with it. -/
def setMapWord (k v : Nat) (s : State) : State :=
  let old := popcount (s.get (mapField k))
  let pages := R.CKP_DIRTY_PAGES.at [k / 256]
  (s.set (mapField k) v).set pages (s.get pages + popcount v - old)

/-- The words of the dirty maps that are not zero. -/
def mapWords (s : State) : KMap Nat :=
  s.regs.filterMap (fun e =>
    let a := e.1 / 64
    if 0x910000 ≤ a && decide (a < 0x950000) then some ((a - 0x910000) / 4, e.2) else none)

/-- Every dirty map cleared (R744). -/
def clearMaps (s : State) : State := (mapWords s).foldl (fun t e => setMapWord e.1 0 t) s

/-! The refuge region (R753 to R757). -/

def refugeBase (s : State) : Nat := s.get R.CKP_REFUGE_BASE_64K
def refugePages (s : State) : Nat := s.get R.CKP_REFUGE_PAGES

/-- The pages of an isle's pool. -/
def poolPages (s : State) : Nat := refugePages s - 1

/-- The slice offset of a pool page. -/
def poolOffset (s : State) (e : Nat) : Nat := (refugeBase s + 1 + e) * 65536

/-- The offset of a directory entry. -/
def entryOffset (s : State) (e : Nat) : Nat := refugeBase s * 65536 + 64 + 8 * e

/-- The data of a code word as the engine finds it: corrected, not deciphered. -/
def peekWord (s : State) (i o : Nat) : List Nat := (decodeWord (storedWord s i (wordBase o)) (wordBase o)).2

/-- A directory entry (R755). -/
structure DirEntry where
  page : Nat
  enc : Bool
  used : Bool
  gen : Nat
  deriving DecidableEq, Repr

def dirEntry (s : State) (i e : Nat) : DirEntry :=
  let o := entryOffset s e
  let w := leAt (peekWord s i o) (o % 32) 8
  ⟨bits w 8 13, bit w 21, bit w 22, bits w 32 32⟩

/-- A refuge code word written whole (R756); it leaves the dirty maps alone (R742). -/
def refugeWord (i o : Nat) (data : List Nat) (poison : Bool) (s : State) : State := storeBare .host i o data poison s

/-- Bytes of a refuge word replaced: it is read, and written whole. -/
def refugeBytes (i o : Nat) (bs : List Nat) (s : State) : State :=
  let (_, d, s) := readRaw .host i o s
  refugeWord i (wordBase o) (d.take (o % 32) ++ bs ++ d.drop (o % 32 + bs.length)) false s

def setDirEntry (i e : Nat) (d : DirEntry) (s : State) : State :=
  refugeBytes i (entryOffset s e) (le 8 (i + d.page * 2 ^ 8 + b2n d.enc * 2 ^ 21 + b2n d.used * 2 ^ 22 + d.gen * 2 ^ 32)) s

def committedGen (s : State) : Nat := s.get R.CKP_REFUGE_STAT_COMMITTED_GEN

/-- A generation that is not later than the one committed (R407). -/
def committed (s : State) (g : Nat) : Bool := !laterSeq g (committedGen s)

/-- The entries of an isle's directory, with their pool pages. -/
def dirOf (s : State) (i : Nat) : List (Nat × DirEntry) := (List.range (poolPages s)).map (fun e => (e, dirEntry s i e))

/-- Whether an entry is superseded by a later committed entry of its page (R757). -/
def superseded (s : State) (es : List (Nat × DirEntry)) (d : DirEntry) : Bool :=
  es.any (fun x => x.2.used && x.2.page == d.page && committed s x.2.gen && laterSeq x.2.gen d.gen)

/-- The copies an isle's pool holds: pool page and entry, in ascending page (R757). -/
def copiesOf (s : State) (i : Nat) : List (Nat × DirEntry) :=
  let es := dirOf s i
  let live := es.filter (fun x => x.2.used && committed s x.2.gen && !superseded s es x.2)
  (List.range 8192).filterMap (fun p => live.find? (fun x => x.2.page == p))

/-- Pool pages of isle `i` taken by generations being received. -/
def allocated (s : State) (i : Nat) : List Nat :=
  ((s.ckp.received.map (fun r => r.alloc)).flatten.filter (fun a => a.1 / 8192 == i)).map (fun a => a.2.1)

/-- The free pages of an isle's pool (R757, R772). -/
def freePages (s : State) (i : Nat) : List Nat :=
  let es := dirOf s i
  let taken := allocated s i
  (es.filter (fun x => !taken.contains x.1 &&
    (!x.2.used || (committed s x.2.gen && superseded s es x.2 && !s.flag R.CKP_CTRL_HOST_HOLD)))).map (fun x => x.1)

/-- POOL_FREE follows the pools. -/
def notePool (s : State) : State :=
  if refugePages s < 2 then s.set R.CKP_REFUGE_STAT_POOL_FREE 0
  else s.set R.CKP_REFUGE_STAT_POOL_FREE
    ((List.range 256).foldl (fun m i => Nat.min m (freePages s i).length) (poolPages s))

/-- USED cleared in every entry of every directory that `which` names. -/
def clearUsed (which : DirEntry → Bool) (s : State) : State :=
  (List.range 256).foldl (fun t i =>
    if !dramOn t i then t
    else (dirOf t i).foldl (fun t x =>
      if x.2.used && which x.2 then setDirEntry i x.1 { x.2 with used := false } t else t) t) s

/-- Offset in the slices of isle 0 of the refuge header. -/
def headerOffset (s : State) : Nat := refugeBase s * 65536

/-! Units (R750 to R752). -/

/-- The types of a unit. -/
def unitPiece : Nat := 1
def unitSeal : Nat := 2
def unitAck : Nat := 3
def unitMiss : Nat := 4
def unitNak : Nat := 5

structure CkpUnit where
  kind : Nat
  enc : Bool
  restore : Bool
  full : Bool
  gen : Nat
  isle : Nat
  piece : Nat
  page : Nat
  poison : Nat
  count : Nat
  src : Nat
  cutFn : Nat
  baseGen : Nat
  body : List Nat
  deriving DecidableEq, Repr

/-- A unit's 1,088 bytes. -/
def CkpUnit.bytes (u : CkpUnit) : List Nat :=
  let body := u.body.take 1024 ++ List.replicate (1024 - u.body.length) 0
  let head := le 2 0x4B43 ++ [u.kind, b2n u.enc + b2n u.restore * 2 + b2n u.full * 4] ++ le 4 u.gen ++
    [u.isle, u.piece] ++ le 2 u.page ++ le 4 u.poison ++ le 4 u.count ++ [u.src, 0, 0, 0] ++ le 8 u.cutFn ++ le 4 u.baseGen ++
    List.replicate 24 0
  head ++ le 4 (crc32c (head ++ body)) ++ body

/-- A unit read from 1,088 bytes: its MAGIC and CRC match (R751). -/
def unitOf (b : List Nat) : Option CkpUnit :=
  let fl := leAt b 3 1
  if b.length != 1088 || leAt b 0 2 != 0x4B43 || crc32c (b.take 60 ++ b.drop 64) != leAt b 60 4 then none
  else some
    { kind := leAt b 2 1, enc := bit fl 0, restore := bit fl 1, full := bit fl 2, gen := leAt b 4 4, isle := leAt b 8 1,
      piece := leAt b 9 1, page := leAt b 10 2, poison := leAt b 12 4, count := leAt b 16 4, src := leAt b 20 1,
      cutFn := leAt b 24 8, baseGen := leAt b 32 4, body := b.drop 64 }

/-- A unit of this module, with nothing but its type and generation. -/
def blankUnit (s : State) (kind gen : Nat) (restore : Bool) : CkpUnit :=
  ⟨kind, false, restore, false, gen, 0, 0, 0, 0, 0, moduleNumber s, 0, s.get R.CKP_GEN_ACKED, []⟩

/-- The unit at place `k` of a refuge slot received, if every flit that covers it is intact (R751). -/
def unitAt (s : State) (p slot k : Nat) : Option CkpUnit :=
  match slotOf s p slot with
  | none => none
  | some e =>
    let ok := intactOf s p slot e
    let lo := k * 1088
    let flits := (List.range ((lo + 1087) / 240 - lo / 240 + 1)).map (fun x => lo / 240 + x)
    if slot < 3072 || e.kind != 2 || k ≥ e.lines / 17 || !flits.all (fun f => ok.contains f) then none
    else unitOf (((slotPayload s p slot e).drop lo).take 1088)

/-! Sending. -/

/-- The refuge DATA_TX slots, in ascending port and slot number, as (port, slot, PEER, units carried, lines). -/
def refugeSlots (s : State) : List (Nat × Nat × Nat × Nat × Nat) :=
  ((List.range 8).map (fun p => ((slotsOf s p).filter (fun x => decide (3072 ≤ x.1) && x.2.kind == 1)).map (fun x =>
    (p, x.1, x.2.peer, x.2.lines / 17, x.2.lines)))).flatten

/-- The module's buddy (R749). -/
def buddyOf (s : State) : Option Nat := (refugeSlots s).head?.map (fun x => x.2.2.1)

/-- Who the engine sends pieces to: its buddy, or the replacement of the source it keeps (R761, R770). -/
def ckpPeer (s : State) : Option Nat :=
  if ckpState s = ckpRestoring then some (s.get R.CKP_REFUGE_STAT_PARTNER) else buddyOf s

/-- The pieces that one rendezvous carries to the peer. -/
def ckpRoom (s : State) : Nat :=
  match ckpPeer s with
  | some m => ((refugeSlots s).map (fun x => if x.2.2.1 == m then x.2.2.2.1 else 0)).sum
  | none => 0

/-- The generation the engine sends. -/
def sendGen (s : State) : Nat := if ckpState s = ckpRestoring then committedGen s else s.get R.CKP_GEN_CURRENT

/-- A piece read, staged as a unit. -/
def stagePiece (j : CkpJob) (data : List Nat) (mask : Nat) (s : State) : State :=
  let u := { blankUnit s unitPiece (sendGen s) (ckpState s = ckpRestoring) with
    enc := j.enc, full := s.ckp.full, isle := j.isle, piece := j.piece, page := j.page, poison := mask, body := data }
  s.setCkp { s.ckp with reading := none, staged := s.ckp.staged ++ [u.bytes] }

/-- The SEAL, staged behind the last piece. -/
def stageSeal (s : State) : State :=
  let restoring := ckpState s = ckpRestoring
  let (cut, s) :=
    if restoring then
      let (_, d, s) := readRaw .host 0 (headerOffset s) s
      (leAt d 8 8, s)
    else (s.get R.CKP_CUT_FN_FN, s)
  let u := { blankUnit s unitSeal (sendGen s) restoring with
    full := s.ckp.full, count := s.get R.CKP_PROGRESS_TOTAL, cutFn := cut }
  s.setCkp { s.ckp with sealDue := false, staged := s.ckp.staged ++ [u.bytes] }

/-- The engine's next read is queued, within the room of the next rendezvous; behind the last piece comes the SEAL. The words
of a slice whose memory is off are uncorrectable. -/
def ckpPump : Nat → State → State
  | 0, s => s
  | n + 1, s =>
    let c := s.ckp
    if c.reading.isSome || decide (c.room ≤ c.staged.length) then s
    else
      match c.todo with
      | [] => if c.sealDue then stageSeal s else s
      | j :: rest =>
        let s := s.setCkp { c with todo := rest, reading := some j }
        if dramOn s j.isle then pushAccess j.isle { src := .ckpRead, off := j.off, len := 1024, write := false } s
        else ckpPump n (stagePiece j [] fullMask s)

def pumpAll (s : State) : State := ckpPump (s.ckp.room + 1) s

/-- A read of the engine ends, or meets a slice that is off. -/
def ckpReadDone (data : List Nat) (mask : Nat) (s : State) : State :=
  match s.ckp.reading with
  | some j => pumpAll (stagePiece j data mask s)
  | none => s

/-- One refuge slot filled for the rendezvous that begins: replies first, then staged units, then zeros (R750). -/
def fillSlot (x : Nat × Nat × Nat × Nat × Nat) (s : State) : State :=
  let (p, slot, peer, cap, lines) := x
  let mine := (s.ckp.replies.filter (fun r => r.1 == peer)).take cap
  let own := if ckpPeer s == some peer && 2 ≤ ckpState s then s.ckp.staged.take (cap - mine.length) else []
  let c := { s.ckp with
    replies := mine.foldl (fun l r => l.erase r) s.ckp.replies
    staged := s.ckp.staged.drop own.length }
  let units := mine.map (fun r => r.2) ++ own
  let bytes := units.flatten
  let s := (s.setCkp c).modPort p (fun v =>
    { v with tx := KMap.put [] v.tx slot (bytes ++ List.replicate (64 * lines - bytes.length) 0) })
  let kinds := own.map (fun u => leAt u 2 1)
  let s := s.count R.CKP_PROGRESS_SENT (kinds.filter (fun k => k == unitPiece)).length
  if kinds.contains unitSeal && ckpState s == ckpSending then
    (s.set R.CKP_STATUS_STATE ckpSealed).setCkp { s.ckp with waited := 0 }
  else s

/-- A rendezvous that the module meets: its refuge slots are filled, and the engine reads on. A read lost with its slice is
taken up again. -/
def ckpRendezvous (s : State) : State :=
  let s := (refugeSlots s).foldl (fun t x => fillSlot x t) s
  let s := s.setCkp { s.ckp with room := ckpRoom s }
  match s.ckp.reading with
  | some j =>
    let queued := (s.slice j.isle).hostq.any (fun a => a.src == .ckpRead)
    if queued then s else pumpAll (s.setCkp { s.ckp with reading := none, todo := j :: s.ckp.todo })
  | none => pumpAll s

end Sys2Proof.Machine
end

