-- ==== Sys2Proof/Machine/Lighthouse.lean ====
section
/-!
DEFINITION. The lighthouse: its states (R29, R30, R55 to R59, R862), time-transfer flits (R504 to R508), offset estimates
and the median (R51, R52, R860), the master followed (R59, R544) and frame numbers (R32, R861).
-/
namespace Sys2Proof.Machine

/-! State codes of LHT_STATUS. -/

def lhFree : Nat := 0
def lhAcquire : Nat := 1
def lhLocked : Nat := 2
def lhHoldover : Nat := 3
def lhUnlocked : Nat := 4
def lhMaster : Nat := 5

def lhState (s : State) : Nat := s.get R.LHT_STATUS_STATE
def setLh (v : Nat) (s : State) : State := s.set R.LHT_STATUS_STATE v
def State.modLh (s : State) (f : Lighthouse → Lighthouse) : State := { s with lh := f s.lh }

/-- Whether the lighthouse state meets rendezvous (R43). -/
def meetsRendezvous (s : State) : Bool := lhState s == lhLocked || lhState s == lhHoldover || lhState s == lhMaster

/-- Whether this module follows a master. -/
def isFollower (s : State) : Bool := decide (1 ≤ lhState s) && decide (lhState s ≤ 4)

/-- MASTER_LOSS_FRAMES as applied, and HOLDOVER_LIMIT_US as applied. -/
def masterLoss (s : State) : Nat := Nat.max 2 (s.get R.LHT_HOLD_CFG_MASTER_LOSS_FRAMES)
def holdoverLimitUs (s : State) : Nat := Nat.min 100000 (Nat.max 1000 (s.get R.LHT_HOLD_CFG_HOLDOVER_LIMIT_US))

/-- The rack frame period in ns. -/
def periodNs (s : State) : Nat := s.get R.LHT_FRAME_CFG_PERIOD_US * 1000

/-- FN of an LT (R861). -/
def fnOf (s : State) (lt : Nat) : Nat :=
  if periodNs s = 0 then 0
  else (lt + 2 ^ 64 - s.get R.LHT_TICK_ORIGIN_ORIGIN) % 2 ^ 64 / periodNs s

/-- The LT at which a rack frame begins (R32). -/
def tickLt (s : State) (fn : Nat) : Nat := (s.get R.LHT_TICK_ORIGIN_ORIGIN + fn * periodNs s) % 2 ^ 64

/-- A TICK_ORIGIN taken: FN follows from it. A local frame in progress is numbered anew, and still lasts the rack frames it was
given (R37). -/
def setOrigin (o : Nat) (s : State) : State :=
  let old := s.get R.LHT_FN_FN
  let s := (s.modLh (fun l => { l with hasOrigin := true })).set R.LHT_TICK_ORIGIN_ORIGIN o
  let fn := fnOf s (s.get R.LHT_LT_LT)
  let s := s.set R.LHT_FN_FN fn
  if !s.frame.running then s
  else
    let s := s.set R.LHT_LOCAL_FN_FN_S (fn + 2 ^ 64 - (old - s.get R.LHT_LOCAL_FN_FN_S))
    { s with frame := { s.frame with endFn := fn + (s.frame.endFn - old) } }

/-- Who the image in force names. -/
def imageMaster (s : State) : Option Nat := s.image.map (fun im => im.master)
def imageBackup (s : State) : Option Nat := s.image.map (fun im => im.backup)
def namedMaster (s : State) (m : Nat) : Bool := imageMaster s == some m || imageBackup s == some m

/-! Changes of state. -/

/-- LT starts from 0 if it has not started (R29). -/
def startLt (s : State) : State := s.modLh (fun l => { l with running := true })

/-- The role of R29, taken when the lighthouse is enabled in FREE with an image in force. -/
def takeRole (s : State) : State :=
  if lhState s != lhFree || !s.flag R.LHT_CTRL_ENABLE || s.image.isNone then s
  else
    let own := imageMaster s == some (moduleNumber s)
    let s := setLh lhAcquire s
    let s := s.modLh (fun l => { l with
      listening := own, masterOnLock := own, following := false, good := 0, noPort := 0, noMaster := 0, estimates := [],
      fresh := [], exchanges := [], last := [] })
    if own then s else startLt s

/-- The return to FREE (R29, R30). -/
def lhToFree (s : State) : State :=
  let s := ((setLh lhFree s).set R.LHT_STATUS_EVER_LOCKED 0).set R.LHT_STATUS_PORTS_USED 0
  let s := s.modLh (fun l => { l with
    listening := false, masterOnLock := false, following := false, demote := none, step := none, good := 0, noPort := 0,
    noMaster := 0, estimates := [], fresh := [], exchanges := [], last := [], toAnswer := [] })
  (List.range 8).foldl (fun t p => t.set (R.LHT_PORT_OFFSET_VALID.at [p]) 0) s

/-- LHT_ENABLE: ENABLE of LHT_CTRL written (R29, R30). -/
def execLhtEnable (en : Bool) (s : State) : Result :=
  .next (
    if !decodes s 0 then s
    else if en then takeRole (s.set R.LHT_CTRL_ENABLE 1)
    else lhToFree (s.set R.LHT_CTRL_ENABLE 0))

/-- LHT_LOCK: 1 written to LOCK (R53, R858). -/
def execLhtLock (s : State) : Result := .next (if decodes s 0 then s.set R.LHT_CTRL_LOCK 1 else s)

/-- MASTER entered: this module is the master it names in LHT_STATUS. -/
def enterMaster (epoch : Nat) (s : State) : State :=
  let s := (setLh lhMaster s).set R.LHT_STATUS_EVER_LOCKED 1
  let s := ((s.set R.LHT_STATUS_MASTER_ID (moduleNumber s)).set R.LHT_STATUS_MASTER_EPOCH epoch).set R.LHT_STATUS_PORTS_USED 0
  s.modLh (fun l => { l with
    running := true, listening := false, masterOnLock := false, following := false, demote := none, step := none,
    toAnswer := [], echoes := [], echoesLast := [] })

/-- Promotion: MASTER with the epoch after the one followed, and no step of LT (R58). -/
def promote (s : State) : State :=
  raise 0x0104 (moduleNumber s) 0 (enterMaster (s.get R.LHT_STATUS_MASTER_EPOCH + 1) s)

/-- ACQUIRE_LISTEN_EXPIRY: a named master heard no other (R29, R861). -/
def execAcquireListenExpiry (s : State) : Result :=
  .next (
    if lhState s != lhAcquire || !s.lh.listening then s
    else
      let preset := s.get R.LHT_LT_PRESET_PRESET
      setOrigin preset ((enterMaster (s.get R.LHT_STATUS_MASTER_EPOCH) s).set R.LHT_LT_LT preset))

/-- LOCKED: the entry condition of the state table holds (R56, R57, R862); a module to become master is promoted (R29,
R583). -/
def execLocked (s : State) : Result :=
  .next (
    let st := lhState s
    if (st = lhAcquire || st = lhHoldover || st = lhUnlocked) && decide (16 ≤ s.lh.good)
        && !s.flag R.LHT_STATUS_PERIOD_MISMATCH then
      let s := ((setLh lhLocked s).set R.LHT_STATUS_EVER_LOCKED 1).modLh (fun l => { l with step := none })
      inOneCycle (fun s =>
        let s := raise 0x0101 noUnit 0 s
        if s.lh.masterOnLock then promote s else s) s
    else s)

/-- The backup is to promote itself (R58). -/
def backupPromotes (s : State) : Bool :=
  imageBackup s == some (moduleNumber s) && (lhState s == lhLocked || lhState s == lhHoldover)
    && decide (masterLoss s ≤ s.lh.noMaster)

/-- HOLDOVER: no port in use for MASTER_LOSS_FRAMES rack frames (R57, R58). -/
def execHoldover (s : State) : Result :=
  .next (
    if lhState s = lhLocked && decide (masterLoss s ≤ s.lh.noPort) && !backupPromotes s then
      raise 0x0102 noUnit 0 (setLh lhHoldover s)
    else s)

/-- UNLOCKED entered: the count of the LOCKED entry condition starts again (R56, R57). -/
def enterUnlocked (s : State) : State := raise 0x0103 noUnit 0 ((setLh lhUnlocked s).modLh (fun l => { l with good := 0 }))

/-- HOLDOVER_LIMIT_EXPIRY (R57, R862). -/
def execHoldoverLimitExpiry (s : State) : Result :=
  .next (if lhState s = lhHoldover then enterUnlocked s else s)

/-- BACKUP_PROMOTION (R58). -/
def execBackupPromotion (s : State) : Result := .next (if backupPromotes s then promote s else s)

/-- MASTER_DEMOTION: at the rack tick after a master that wins was heard (R59, R583). -/
def execMasterDemotion (s : State) : Result :=
  .next (
    match s.lh.demote with
    | some other =>
      if lhState s != lhMaster then s
      else
        let s := (setLh lhAcquire s).modLh (fun l => { l with
          demote := none, good := 0, noPort := 0, noMaster := 0, following := false, estimates := [], fresh := [],
          exchanges := [], last := [], listening := false, masterOnLock := false })
        raise 0x0105 other 0 s
    | none => s)

/-! Offset estimates (R51, R52). Estimates are held in half picoseconds, and a median in quarters. -/

/-- T4 as the value congruent to the echoed one that lies nearest T3, less T3 (R507). -/
def t4Delta (t3 echoed : Nat) : Int :=
  let d := (echoed + 2 ^ 32 - t3 % 2 ^ 32) % 2 ^ 32
  if d ≤ 2 ^ 31 then Int.ofNat d else Int.ofNat d - 4294967296

/-- Twice o_p of R51. -/
def estimate2 (x : Exchange) (t3 echoed : Nat) (cBack asym : Int) : Int :=
  let fwd := toSigned 64 (x.t2 + 2 ^ 64 - x.t1 % 2 ^ 64) - toSigned 32 x.fwd
  fwd - (t4Delta t3 echoed - cBack) - 2 * asym

def insertInt (x : Int) : List Int → List Int
  | [] => [x]
  | y :: ys => if x ≤ y then x :: y :: ys else y :: insertInt x ys
def sortInts (l : List Int) : List Int := l.foldl (fun acc x => insertInt x acc) []

/-- The median of values in half picoseconds, in quarters: the mean of the two middle ones when their number is even. -/
def median4 (l : List Int) : Int :=
  let v := sortInts l
  let n := v.length
  v.getD ((n - 1) / 2) 0 + v.getD (n / 2) 0

/-- Whether a port's estimate is dropped: it differs by more than 5 ns from the median of the other ports in use (R52). -/
def estimateDropped (es : List (Nat × Int)) (p : Nat) (o : Int) : Bool :=
  decide (3 ≤ es.length) && decide (20000 < (2 * o - median4 ((es.filter (fun e => e.1 != p)).map (fun e => e.2))).natAbs)

/-- The estimates of ports in use. -/
def inUse (s : State) : List (Nat × Int) := s.lh.estimates.filter (fun e => portUsable s e.1)

/-- The estimates that the median takes. -/
def usedEstimates (s : State) : List (Nat × Int) :=
  (inUse s).filter (fun e => !estimateDropped (inUse s) e.1 e.2)

/-- The median of the estimates used, in quarters of a picosecond; none when there is none. -/
def medianOf (s : State) : Option Int :=
  let es := usedEstimates s
  if es.isEmpty then none else some (median4 (es.map (fun e => e.2)))

/-- The servo after an estimate: REJECTED and PORTS_USED, the median, and the rate correction, a free value within ±200 ppm
(R30, R52, R860); more than 1 µs after lock unlocks (R57). -/
def servo (s : State) : State :=
  let es := inUse s
  let s := es.foldl (fun t e => t.setFlag (R.LHT_PORT_OFFSET_REJECTED.at [e.1]) (estimateDropped es e.1 e.2)) s
  match medianOf s with
  | none => s.set R.LHT_STATUS_PORTS_USED 0
  | some m =>
    let s := s.set R.LHT_STATUS_PORTS_USED (((usedEstimates s).map (fun e => 2 ^ e.1)).sum)
    let ps := satSigned 24 (m / 4)
    let s := s.set R.LHT_SERVO_OFFSET_PS ps
    let rate := (Config.servoRate (s.get R.LHT_FREQ_FREQ_PPB) ps).toNat
    let s := s.set R.LHT_FREQ_FREQ_PPB (ofSigned 20 (clampInt (-200000) 200000 (toSigned 20 rate)))
    if (lhState s = lhLocked || lhState s = lhHoldover) && decide (4000000 < m.natAbs) then enterUnlocked s else s

/-- An estimate of a port taken. -/
def takeEstimate (p : Nat) (o2 : Int) (s : State) : State :=
  let s := (s.set (R.LHT_PORT_OFFSET_OFFSET_PS.at [p]) (satSigned 24 (o2 / 2))).set (R.LHT_PORT_OFFSET_VALID.at [p]) 1
  servo (s.modLh (fun l => { l with
    estimates := (l.estimates.filter (fun e => e.1 != p)) ++ [(p, o2)]
    fresh := if l.fresh.contains p then l.fresh else l.fresh ++ [p] }))

/-! Time-transfer flits. -/

/-- Whether a TIME flit is a reply. -/
def isReply (bytes : List Nat) : Bool := leAt bytes (12 + 0x1B) 1 == 1 && !bit (leAt bytes 2 1) 6

/-- Whether a payload's bytes from `lo` are zero. -/
def zeroBytes (f : Flit) (lo n : Nat) : Bool := ((f.payload.drop lo).take n).all (fun b => b == 0)

/-- The form of a master's flit, and of a reply (R504, R505, R508): reason 7 otherwise. -/
def timeFormOk (f : Flit) (pos : Nat) : Bool :=
  decide (pos < 96) &&
  (match leAt f.payload 0x1B 1 with
  | 0 => f.bcast && zeroBytes f 0x20 16 && zeroBytes f 0xB0 64 &&
      (List.range 16).all (fun k => bits (leAt f.payload (0x37 + 8 * k) 1) 0 7 == 0)
  | 1 => !f.bcast && zeroBytes f 0x0A 17 && zeroBytes f 0x20 208
  | _ => false)

/-- Epochs compared modulo 256 (R59). -/
def laterEpoch (a b : Nat) : Bool :=
  let d := (a + 256 - b % 256) % 256
  0 < d && d < 128

/-- What a module in MASTER does on hearing another (R59, R583). -/
def masterHears (src epoch : Nat) (s : State) : State :=
  let own := s.get R.LHT_STATUS_MASTER_EPOCH
  let wins :=
    if namedMaster s (moduleNumber s) then laterEpoch epoch own || (epoch == own && decide (src < moduleNumber s))
    else imageMaster s == some src && laterEpoch epoch own
  if wins then s.modLh (fun l => { l with demote := some src }) else s

/-- Whether a follower takes time from a master heard (R59). -/
def follows (s : State) (src epoch : Nat) : Bool :=
  let e := s.get R.LHT_STATUS_MASTER_EPOCH
  let m := s.get R.LHT_STATUS_MASTER_ID
  !s.lh.following || laterEpoch epoch e || (epoch == e && decide (src ≤ m))

/-- Flit 0 of a rack frame: TICK_ORIGIN, the period check, and the exchange it begins (R33, R51, R861). -/
def takeFlit0 (p t2 : Nat) (f : Flit) (s : State) : State :=
  let s := if s.lh.hasOrigin && s.get R.LHT_TICK_ORIGIN_ORIGIN == leAt f.payload 0x10 8 then s
    else setOrigin (leAt f.payload 0x10 8) s
  let differs := leAt f.payload 0x18 2 != s.get R.LHT_FRAME_CFG_PERIOD_US
  let s := if differs && !s.flag R.LHT_STATUS_PERIOD_MISMATCH then
      raise 0x0106 noUnit 0 (s.set R.LHT_STATUS_PERIOD_MISMATCH 1)
    else s.setFlag R.LHT_STATUS_PERIOD_MISMATCH differs
  let x : Exchange := ⟨leAt f.payload 0 8, t2, leAt f.payload 0x1C 4, none⟩
  s.modLh (fun l => { l with
    exchanges := KMap.insert p x (KMap.erase l.exchanges p)
    toAnswer := if l.toAnswer.contains p then l.toAnswer else l.toAnswer ++ [p] })

/-- The echo record of this module, in flit number / 16 (R504, R507): the estimate of the exchange of the rack frame
before. -/
def takeEcho (p : Nat) (f : Flit) (s : State) : State :=
  let rec8 := leAt f.payload (0x30 + 8 * (moduleNumber s % 16)) 8
  match s.lh.last.find? (fun e => e.1 == p) with
  | some (_, x) =>
    match x.t3 with
    | some t3 =>
      if bit rec8 63 then
        takeEstimate p (estimate2 x t3 (bits rec8 0 32) (toSigned 24 (bits rec8 32 24))
          (toSigned 16 (s.get (R.LHT_PORT_ASYM_ASYM_PS.at [p])))) s
      else s
    | none => s
  | none => s

/-- The VALID bits of a flit's echo records (R538). -/
def takeAlive (j : Nat) (f : Flit) (s : State) : State :=
  let m := ((List.range 16).map (fun k => if bit (leAt f.payload (0x30 + 8 * k) 8) 63 then 2 ^ (16 * j + k) else 0)).sum
  s.modLh (fun l => { l with alive := setBits l.alive (16 * j) 16 (m / 2 ^ (16 * j)) })

/-- A master's flit `j`, valid, at a follower or a master. -/
def takeMaster (p j t2 : Nat) (f : Flit) (s : State) : State :=
  let epoch := leAt f.payload 0x1A 1
  if !namedMaster s f.src then raiseOnce 0x0108 f.src 0 (s.set R.GLB_RACK_FOREIGN 1)
  else if f.src = moduleNumber s then s
  else if lhState s = lhMaster then masterHears f.src epoch s
  else if lhState s = lhFree || !follows s f.src epoch then s
  else
    inOneCycle (fun s =>
      let s := (s.set R.LHT_STATUS_MASTER_ID f.src).set R.LHT_STATUS_MASTER_EPOCH epoch
      let s := startLt (s.modLh (fun l => { l with following := true, heard := true, listening := false }))
      let s := takeAlive j f s
      let s := if j = 0 then takeFlit0 p t2 f s else s
      if j = moduleNumber s / 16 then takeEcho p f s else s) s

/-- TIME_FLIT_RECEIVE: a TIME flit that is not a reply, on port `p`, at flit position `pos`, the `j`-th of the rack frame,
its byte 0 arriving at LT `t2` ps (R51, R504 to R508, R544). -/
def execTimeFlitReceive (p : Nat) (bytes : List Nat) (damaged : Bool) (pos j t2 : Nat) (s : State) : Result :=
  if typeOf bytes != 2 || isReply bytes then .next s
  else .next (receive p bytes damaged (fun f s =>
    if !timeFormOk f pos || leAt f.payload 0x1B 1 != 0 then violation p 7 f s else if loopback s p then s
    else takeMaster p (j % 4) t2 f s) s)

/-- TIME_REPLY_RECEIVE: a reply, arriving at LT `t4` ps, is echoed by a master (R504 to R508, R538). -/
def execTimeReplyReceive (p : Nat) (bytes : List Nat) (damaged : Bool) (pos t4 : Nat) (s : State) : Result :=
  if typeOf bytes != 2 || !isReply bytes then .next s
  else .next (receive p bytes damaged (fun f s =>
    if !timeFormOk f pos then violation p 7 f s
    else if lhState s != lhMaster || loopback s p then s
    else
      let v := t4 % 2 ^ 32 + bits (leAt f.payload 0x1C 4) 0 24 * 2 ^ 32 + 1
      s.modLh (fun l => { l with echoes := KMap.put 0 l.echoes (p * 64 + f.src) v })) s)

/-- The LT, in ps modulo 2⁶⁴, at which byte 0 of the flit at a position of the current rack frame leaves: HFI × 5.12 ns, with
HFI the position after the anchor, ⌈tick ÷ 5.12 ns⌉ (R483, R484, R506). -/
def flitTime (s : State) (pos : Nat) : Nat := (cdiv (tickLt s (s.get R.LHT_FN_FN) * 100) 512 + pos) * 5120 % 2 ^ 64

/-- TIME_FLIT_SEND: flit `j` of the rack frame, at position `j`, once (R504, R506). -/
def execTimeFlitSend (p j t1 : Nat) (s : State) : Result :=
  .next (
    if lhState s != lhMaster || portState s p != portUp || loopback s p || j ≥ 4 || (s.port p).posted.contains j || t1 != flitTime s j then s
    else
      let s := post p j s
      let fn := s.get R.LHT_FN_FN
      let echo := fun k =>
        let v := KMap.get 0 s.lh.echoesLast (p * 64 + 16 * j + k)
        if v = 0 then le 8 0 else le 8 (v - 1 + 2 ^ 63)
      let body := le 8 t1 ++ le 8 fn ++ le 8 (s.get R.LHT_TICK_ORIGIN_ORIGIN) ++ le 2 (s.get R.LHT_FRAME_CFG_PERIOD_US) ++
        le 1 (s.get R.LHT_STATUS_MASTER_EPOCH) ++ [0] ++ le 4 0 ++ List.replicate 16 0 ++
        ((List.range 16).map echo).flatten ++ List.replicate 64 0
      sendFlit p 2 0 0 true 0 0 fn body s)

/-- TIME_REPLY_SEND: the answer to flit 0, at position 16 + this module's number (R505, R506). -/
def execTimeReplySend (p t3 : Nat) (s : State) : Result :=
  .next (
    if !isFollower s || portState s p != portUp || loopback s p || !s.lh.toAnswer.contains p || t3 != flitTime s (16 + moduleNumber s) then s
    else
      let body := le 8 t3 ++ [s.get R.LHT_STATUS_MASTER_EPOCH, lhState s] ++ List.replicate 17 0 ++ [1] ++ le 4 0
      let s := s.modLh (fun l => { l with
        toAnswer := l.toAnswer.erase p
        exchanges := l.exchanges.map (fun e => if e.1 = p then (p, { e.2 with t3 := some (t3 % 2 ^ 64) }) else e) })
      sendFlit p 2 0 (s.get R.LHT_STATUS_MASTER_ID) false 0 0 (s.get R.LHT_FN_FN) body s)

/-- The modules alive, as GLB_RACK_ALIVE shows them from the next boundary (R538). -/
def aliveMap (s : State) : Nat :=
  if lhState s = lhMaster then
    ((List.range 64).map (fun m =>
      if m = moduleNumber s || (List.range 8).any (fun p => KMap.get 0 s.lh.echoesLast (p * 64 + m) != 0) then 2 ^ m
      else 0)).sum
  else s.lh.alive

/-! Steps and ticks. -/

/-- LT_STEP: in ACQUIRE, before first lock, a median of more than 1 µs is taken off LT at the next boundary, or at the next
rack tick while no local frames run (R55). -/
def execLtStep (s : State) : Result :=
  .next (
    match medianOf s with
    | some m =>
      if lhState s = lhAcquire && !s.flag R.LHT_STATUS_EVER_LOCKED && decide (4000000 < m.natAbs) then
        s.modLh (fun l => { l with step := some (-(m / 4)) })
      else s
    | none => s)

/-- The pending step of LT applied, in whole ns; ports resynchronise (R55, R518). LT is never stepped while EVER_LOCKED is 1
(R30). -/
def applyStep (s : State) : State :=
  match s.lh.step with
  | none => s
  | some ps =>
    if s.flag R.LHT_STATUS_EVER_LOCKED then s.modLh (fun l => { l with step := none })
    else
    let lt := ((s.get R.LHT_LT_LT : Int) + ps / 1000) % ((2 ^ 64 : Nat) : Int)
    let s := (s.modLh (fun l => { l with
      step := none, estimates := [], fresh := [], exchanges := [], last := [] })).set R.LHT_LT_LT lt.toNat
    let s := s.set R.LHT_FN_FN (fnOf s (s.get R.LHT_LT_LT))
    (List.range 8).foldl (fun t p => if portState t p == portUp then portLeave p portLocking t else t) s

/-- What a rack tick closes in the lighthouse: the counts of consecutive rack frames (R56 to R58), the exchanges of the
frame, and each port's per-frame counts. -/
def lighthouseTick (s : State) : State :=
  let l := s.lh
  let used := (inUse s).filter (fun e => l.fresh.contains e.1)
  let good := match medianOf s with
    | some m => !used.isEmpty && decide (m.natAbs ≤ 4000)
    | none => false
  let s := (List.range 8).foldl (fun t p =>
    if l.fresh.contains p then t else t.set (R.LHT_PORT_OFFSET_VALID.at [p]) 0) s
  let s := s.modLh (fun l => { l with
    good := if good then l.good + 1 else 0
    noPort := if used.isEmpty then l.noPort + 1 else 0
    noMaster := if l.heard then 0 else l.noMaster + 1
    following := l.following && (l.heard || decide (l.noMaster + 1 < masterLoss s))
    heard := false
    estimates := l.estimates.filter (fun e => l.fresh.contains e.1)
    fresh := []
    last := l.exchanges
    exchanges := []
    toAnswer := []
    echoesLast := l.echoes
    echoes := [] })
  { s with ports := s.ports.map (fun e => (e.1, { e.2 with controls := 0, protested := e.2.protests.length, posted := [] })) }

/-- DPOLICY_WRITE: LHT_DPOLICY written (R38): ignored in full when D_MIN exceeds D_MAX, and D_MIN raised to D_base. It bears
on the frame from the next boundary (R679). -/
def execDpolicyWrite (v : Nat) (s : State) : Result :=
  .next (
    let lo := bits v 0 5
    let hi := bits v 8 5
    if !decodes s 0 || lo > hi then s
    else (s.set R.LHT_DPOLICY_D_MIN (Nat.max lo (s.get R.LHT_FRAME_CFG_D_BASE))).set R.LHT_DPOLICY_D_MAX hi)

/-- What a step does when no command waits: LT, where it runs, goes on by 1 ns (R29, R30), but never reaches the next rack tick,
whose coming is the command RACK_TICK. -/
def idle (s : State) : State :=
  let lt := s.get R.LHT_LT_LT
  let left := (tickLt s (s.get R.LHT_FN_FN + 1) + 2 ^ 64 - lt) % 2 ^ 64
  if s.lh.running && (!s.lh.hasOrigin || decide (1 < left)) then s.set R.LHT_LT_LT (lt + 1) else s

end Sys2Proof.Machine
end

