-- ==== Sys2Proof/Machine/Void.lean ====
section
/-!
DEFINITION. Void frames (R84 to R86, R128 to R130, R175 to R178), isle states (R131 to R138), and installed schedules
coming off (R108, R133).
-/
namespace Sys2Proof.Machine

/-! Isle states. -/

/-- The authoritative state changed; each change moves the live epoch (R136). -/
def setIsleState (i : Nat) (st : IsleState) (s : State) : State :=
  if (s.isle i).state = st then s
  else (s.modIsle i (fun v => { v with state := st })).count (R.ISL_EPOCH_LIVE_EPOCH.at [i])

def isleState (s : State) (i : Nat) : IsleState := (s.isle i).state

/-- The state an archipelago's isles share: that of one neither OFF nor HELD (R132). -/
def archState (s : State) (a : Nat) : IsleState :=
  match (islesOf s a).find? (fun i => isleState s i != .off && isleState s i != .held) with
  | some i => isleState s i
  | none => .off

/-- A list of isles moved to a state from the states named. -/
def moveIsles (is : List Nat) (src : List IsleState) (dst : IsleState) (s : State) : State :=
  is.foldl (fun t i => if src.contains (isleState t i) then setIsleState i dst t else t) s

/-! Void frames. -/

/-- The phase of a pass at a cycle, if it is in progress (R169): ramp-up 0, compute 1, ramp-down 2. -/
def passPhase (p : Pass) (v : Nat) : Option Nat :=
  if v < p.t0 then none
  else if v < p.t0 + 32 then some 0
  else if v < p.t0 + 32 + p.cycles then some 1
  else if v < p.t0 + 48 + p.cycles then some 2
  else none

/-- The columns switching in a cycle of a pass (R169). -/
def passColumns (p : Pass) (v : Nat) : Nat :=
  let x := v - p.t0
  if x < 32 then 4 * (x / 4) + 4
  else if x < 32 + p.cycles then 32
  else 28 - 4 * ((x - 32 - p.cycles) / 2)

/-- The cycle from which an array is idle that ramps down from a number of columns, four in two cycles, from cycle `v` on (R177). -/
def rampEnd (r : Nat × Nat) : Nat := r.1 + (r.2 + 3) / 4 * 2

/-- A pass in progress at the void point is aborted and recorded, and its columns fall from then on (R177); the array is held until
they are down. -/
def abortPass (v : Nat) (x : Isle) : Isle :=
  match x.pass with
  | none => x
  | some p =>
    match passPhase p v with
    | none => { x with pass := none }
    | some k =>
      let r := (v, passColumns p v)
      { x with
        pass := none
        ramping := some r
        abortCycle := v
        abortPhase := k
        abortPoisoned := poisonedBy x.pass v
        counts := { x.counts with
          arrayCycles := x.counts.arrayCycles - (p.t0 + 48 + p.cycles - Nat.min (rampEnd r) (p.t0 + 48 + p.cycles)) } }

/-- What a void point does in one isle: work in progress is cut off, a pass is aborted, the merge buffer is discarded, the output
buffer and the working area hold no defined contents, and the void is counted (R84 to R86, R174, R177, R178). -/
def voidIsle (v cause source i : Nat) (s : State) : State :=
  let s := cutFlights i v (land i v s)
  let (n, s) := s.draw
  let own := if cause = 1 && i != source then 2 else cause
  let s := s.modIsle i (fun x =>
    { abortPass v x with
      outBuf := { draw := n }
      outcome := 2
      voidCause := own
      voidSource := source % 256
      counts := { (abortPass v x).counts with voids := satAdd 32 x.counts.voids 1 } })
  lagoonForget i (s.modSlice i (fun x => { x with merge := [] }))

/-- The frame of an archipelago becomes void at cycle `v` (R84, R128, R133); an earlier void point stands. `cause` and
`source` are those of ISL_VOID. -/
def voidArch (a v cause source : Nat) (s : State) : State :=
  let r := s.arch a
  if r.frame = .none_ || r.voidAt.isSome then s
  else
    let s := s.modArch a (fun r => { r with voidAt := some v, voidDue := none, transfers := [], bends := [], rdvVoid := r.rdvVoid || s.frame.rdv })
    let s := s.set (R.FRV_ARCH_VOID_VOID_CYCLE.at [a]) v
    let s := (islesOf s a).foldl (fun t i => voidIsle v cause source i t) s
    let s := emissionsVoid a s
    let low := lowestIsle s a
    raise 0x0D01 low (s.isle low).voidCause s

/-- Whether an archipelago is in the foreground zone of a wet or replay frame that is not void (R129, R133). -/
def inWet (s : State) (a : Nat) : Bool :=
  let r := s.arch a
  (r.frame == .wet || r.frame == .replay) && r.voidAt.isNone && !r.ended

/-- The archipelagos of the image in force, in ascending order. -/
def archNumbers (s : State) : List Nat := (List.range 32).filter (fun a => (partOf s a).isSome)

/-- A stop trip or a power fault: one common v in every archipelago in a wet or replay frame (R129). -/
def voidAll (v cause : Nat) (s : State) : State :=
  (archNumbers s).foldl (fun t a => if inWet t a then voidArch a v cause 0 t else t) s

/-- Whether the frame of an archipelago is in its foreground zone and not void. -/
def inFrame (s : State) (a : Nat) : Bool := (s.arch a).frame != .none_ && (s.arch a).voidAt.isNone && !(s.arch a).ended

/-- UNCORRECTABLE_READ_DETECT: a foreground instruction of an isle reads an uncorrectable word, beside those that the
stored contents show; where the reader is the pass in progress, it is poisoned (R128, R175, R176, R227). -/
def execUncorrectableReadDetect (read : BadRead) (s : State) : Result :=
  .next (
    match archOf s read.isle with
    | some a =>
      if !inFrame s a then s
      else
        let s := land read.isle read.cycle s
        let s := if read.byPass then s.modIsle read.isle (fun v =>
            { v with pass := v.pass.map (fun p => { p with poisonAt := earlier p.poisonAt (some read.cycle) }) }) else s
        detect a read.isle read.cycle s
    | none => s)

/-- VOID_POINT: the void line of an archipelago asserts in every isle of it in cycle `v`, 24 cycles after the earliest detection
(R128). -/
def execVoidPoint (a v : Nat) (s : State) : Result :=
  .next (
    if !inFrame s a then s
    else
      let t := (islesOf s a).foldl (fun t i => land i v t) s
      match (t.arch a).voidDue with
      | some (c, source) => if c + 24 = v then inOneCycle (voidArch a v 1 source) t else t
      | none => t)

/-- ARRAY_RAMP_DOWN_END: the last columns of an aborted pass are down and the array is idle; the clocks of an isle that
is OFF stop then (R177, R635). -/
def execArrayRampDownEnd (m : Moment) (s : State) : Result :=
  .next (
    match (s.isle m.unit).ramping with
    | some r =>
      if m.cycle < rampEnd r then s
      else
        let s := s.modIsle m.unit (fun v => { v with ramping := none })
        let k := m.unit / 64
        let o := octetOf s m.unit
        if (s.dom (2 + k)).state == .down && !(rampingOctets s k).contains o then setLocks [11 * k + o] false s else s
    | none => s)

/-! Schedules coming off. -/

/-- OUTCOME of ISL_FRAME of a frame that is not void. -/
def FrameKind.outcome : FrameKind → Nat
  | .none_ => 0 | .dry => 0 | .wet => 1 | .replay => 3

/-- The outcome of an archipelago's frame, as its isles hold it. -/
def recordOutcome (a : Nat) (s : State) : State :=
  let r := s.arch a
  if r.frame = .none_ || r.voidAt.isSome then s
  else (islesOf s a).foldl (fun t i => t.modIsle i (fun v => { v with outcome := r.frame.outcome })) s

/-- An archipelago's schedule is uninstalled: nothing of it is fetched any more, and its frame is over. -/
def uninstall (a : Nat) (s : State) : State :=
  let s := recordOutcome a s
  let s := (islesOf s a).foldl (fun t i => (land i (2 ^ 28) t).modIsle i (fun v =>
    { v with program := [], descs := [], hostInts := [], pc := 0, loops := [], pass := none })) s
  let s := (islesOf s a).foldl (fun t i => t.modSlice i (fun v => { v with reserved := [] })) s
  let s := s.modArch a (fun r => { r with
    frame := .none_, transfers := [], voidAt := none, voidDue := none, replayNext := false, ended := false, bends := [],
    inPlace := [], skip := [], waiting := false, fresh := false, toFault := false, next := .none_ })
  (s.set (R.FRV_ARCH_STATE_INSTALLED.at [a]) 0)

/-- The isles of an archipelago whose schedule came off at a boundary go to IDLE (R108, R132). -/
def idleIsles (a : Nat) (s : State) : State := moveIsles (islesOf s a) [.install, .run, .quiesced] .idle s

/-- The schedule of an archipelago comes off at once in cycle `v`, because isles of it go OFF, the first of them `source`: a wet or
replay frame is void, what is in progress ends or is cut off, and the other isles go to IDLE (R85, R133). -/
def archOff (v cause source a : Nat) (s : State) : State :=
  let s := if inWet s a then voidArch a v cause source s else (islesOf s a).foldl (fun t i => cutFlights i v (land i v t)) s
  let s := uninstall a s
  moveIsles (islesOf s a) [.install, .run, .quiesced, .faulted] .idle s

/-- Isles go OFF together, at once (R24, R132, R133). -/
def islesOff (is : List Nat) (v cause : Nat) (s : State) : State :=
  let hit := is.filter (fun i => isleState s i != .off)
  let s := hit.foldl (fun t i => setIsleState i .off (t.modIsle i (fun x => { x with filling := false }))) s
  (archNumbers s).foldl (fun t a =>
    match hit.find? (fun i => archOf t i == some a) with
    | some i => archOff v cause i a t
    | none => t) s

/-- The isles of a stack go OFF together (R132, R628). -/
def stackIslesOff (k v cause : Nat) (s : State) : State := islesOff ((List.range 64).map (fun j => 64 * k + j)) v cause s

/-! Requests (R135). -/

def reqQuiesce : Nat := 1
def reqResume : Nat := 2
def reqOff : Nat := 3
def reqOn : Nat := 4

def refuseRequest (i : Nat) (s : State) : State := s.bump (R.ISL_STATE_REQ_REQ_REFUSED.at [i])

/-- ON applied to one isle (R132, R628): its stack's isle logic and memory are powered, and its lagoon is to be filled. -/
def applyOn (i : Nat) (s : State) : State :=
  if isleState s i = .off && domainOn s (2 + i / 64) && domainOn s (6 + i / 64) then
    (setIsleState i .held s).modIsle i (fun v => { v with filling := true })
  else refuseRequest i s

/-- QUIESCE or RESUME: the states it leads from and to. -/
def reqMove (r : Nat) : IsleState × IsleState := if r = reqQuiesce then (.run, .quiesced) else (.quiesced, .run)

/-- Whether a checkpoint holds the archipelago of an isle (R760). -/
def ckpHolds (s : State) (i : Nat) : Bool :=
  match archOf s i with
  | some a => s.ckp.holds.contains a
  | none => false

/-- The requests of the isles that change state together, in the order written: one that is valid moves them all, and one that is
not counts as refused, unless a peer's request has just done what it asks (R132, R135, R760). -/
def applyGroup (is : List Nat) : Option Nat → List (Nat × Nat) → State → State
  | _, [], s => s
  | last, (i, r) :: rest, s =>
    let (src, dst) := reqMove r
    let st := match is.find? (fun j => isleState s j != .off && isleState s j != .held) with
      | some j => isleState s j
      | none => .off
    if st = src && !(r == reqResume && ckpHolds s i) then applyGroup is (some r) rest (moveIsles is [src] dst s)
    else if last == some r then applyGroup is last rest s
    else applyGroup is last rest (refuseRequest i s)

/-- Requests applied, in the order written: ON to its isle alone, the others by archipelago. -/
def applyRequests (items : List (Nat × Nat)) (s : State) : State :=
  let s := (items.filter (fun x => x.2 == reqOn)).foldl (fun t x => applyOn x.1 t) s
  let rest := items.filter (fun x => x.2 != reqOn)
  let s := (rest.filter (fun x => (archOf s x.1).isNone)).foldl (fun t x => applyGroup [x.1] none [x] t) s
  (archNumbers s).foldl (fun t a => applyGroup (islesOf t a) none (rest.filter (fun x => archOf t x.1 == some a)) t) s

/-- The pending requests, applied in step 3 of a boundary; an archipelago due for FAULTED enters it first (R132). -/
def applyPending (s : State) : State :=
  let s := (archNumbers s).foldl (fun t a =>
    if (t.arch a).toFault then
      let t := t.modArch a (fun r => { r with toFault := false })
      let live := (islesOf t a).any (fun i => isleState t i == .run || isleState t i == .quiesced)
      if live then raise 0x0D02 (lowestIsle t a) 0 (moveIsles (islesOf t a) [.run, .quiesced] .faulted t) else t
    else t) s
  let items := s.requests.map (fun i => (i, s.get (R.ISL_STATE_REQ_REQ.at [i])))
  let s := items.foldl (fun t x => t.set (R.ISL_STATE_REQ_REQ.at [x.1]) 0) { s with requests := [] }
  applyRequests (items.filter (fun x => x.2 != 0)) s

/-- The management copies follow the live registers (R136). -/
def copyIsle (i : Nat) (s : State) : State :=
  let s := s.set (R.ISL_STATE_STATE.at [i]) (isleState s i).code
  let s := s.set (R.ISL_STATE_EPOCH.at [i]) (s.get (R.ISL_EPOCH_LIVE_EPOCH.at [i]))
  let s := s.set (R.ISL_STATE_ARCH.at [i]) ((archOf s i).getD 0)
  s.setFlag (R.ISL_STATE_ASSIGNED.at [i]) (archOf s i).isSome

def copyIsles (s : State) : State := (List.range 256).foldl (fun t i => copyIsle i t) s

/-- A request of the host or the pilots: OFF at once, at cycle `v`; the others at the next boundary, or at once while no local
frames run (R24, R135). -/
def isleRequest (i r v : Nat) (s : State) : State :=
  let forget := forgetRequest i
  if r = reqOff then
    if isleState s i = .off then refuseRequest i (forget s) else inOneCycle (islesOff [i] v 5) (forget s)
  else if !s.frame.running then applyRequests [(i, r)] (forget s)
  else
    let s := forget s
    ({ s with requests := s.requests ++ [i] }).set (R.ISL_STATE_REQ_REQ.at [i]) r

/-- A write of ISL_STATE_REQ by the physical function. -/
def hostIsleRequest (i r v : Nat) (s : State) : Result :=
  .next (if decodes s 0 && domainOn s 0 && decide (i < 256) then isleRequest i r v s else s)

/-- QUIESCE. -/
def execQuiesce (i : Nat) (s : State) : Result := hostIsleRequest i reqQuiesce 0 s
/-- RESUME. -/
def execResume (i : Nat) (s : State) : Result := hostIsleRequest i reqResume 0 s
/-- OFF, written at cycle `v` of the local frame. -/
def execOff (i v : Nat) (s : State) : Result := hostIsleRequest i reqOff v s
/-- ON. -/
def execOn (i : Nat) (s : State) : Result := hostIsleRequest i reqOn 0 s

/-- LAGOON_FILL_END: 512 cycles after ON, the lagoon is zero and the isle goes to IDLE (R132, R335). -/
def execLagoonFillEnd (i : Nat) (s : State) : Result :=
  .next (
    if (s.isle i).filling && isleState s i = .held then
      setIsleState i .idle (lagoonFill i (s.modIsle i (fun v => { v with filling := false })))
    else s)

end Sys2Proof.Machine
end

