-- ==== Sys2Proof/Machine/Checkpoint.lean ====
section
/-!
DEFINITION. Checkpoints: triggers (R745 to R747), the cut (R759), the buddy's part (R762 to R766), replies (R767, R768) and
restore (R769 to R771). `now` is a time in ms of the AON reference.
-/
namespace Sys2Proof.Machine

/-! Triggers. -/

/-- The enable of a cause (R745). -/
def causeEnabled (s : State) (cause : Nat) : Bool :=
  if cause = 1 then s.flag R.CKP_CTRL_TRIG_CE
  else if cause = 2 then s.flag R.CKP_CTRL_TRIG_THERM
  else if cause = 3 then s.flag R.CKP_CTRL_TRIG_FEC
  else true

/-- A quiesce or resume request placed for an archipelago (R759, R767). -/
def archRequest (a r : Nat) (s : State) : State := isleRequest (lowestIsle s a) r 0 s

/-- A checkpoint begins (R759). -/
def ckpStart (s : State) : State :=
  let s := (s.count R.CKP_GEN_CURRENT).set R.CKP_STATUS_STATE ckpQuiescing
  let s := raise 0x0901 noUnit 0 (s.set R.CKP_STATUS_PENDING 0)
  let runs := (archNumbers s).filter (fun a => archState s a == .run)
  let s := runs.foldl (fun t a => archRequest a reqQuiesce t) s
  s.setCkp { s.ckp with holds := runs, todo := [], reading := none, staged := [], sealDue := false, waited := 0 }

/-- A trigger (R745 to R747). -/
def ckpTrigger (cause now : Nat) (s : State) : State :=
  if !s.flag R.CKP_CTRL_ENABLE || !causeEnabled s cause then s
  else if ckpState s != ckpIdle then s.set R.CKP_STATUS_PENDING 1
  else
    let early := match s.ckp.ended with
      | some t => decide (now < t + s.get R.CKP_CTRL_HOLDOFF_MS)
      | none => false
    if cause != 4 && early then raise 0x0908 noUnit 0 (s.set R.CKP_STATUS_SUPPRESSED 1)
    else ckpStart (s.set R.CKP_STATUS_CAUSE cause)

/-! The cut. -/

/-- Whether a page lies in the module's own refuge. -/
def inRefuge (s : State) (page : Nat) : Bool :=
  refugePages s != 0 && decide (refugeBase s ≤ page) && decide (page < refugeBase s + refugePages s)

/-- R743. -/
def ckpCovered (s : State) (i page : Nat) : Bool :=
  !inRefuge s page && (s.flag R.CKP_CTRL_COVER || (regionOf s i (page * 65536)).isOpen)

/-- The pages a generation sends of an isle. -/
def generationPages (s : State) (full : Bool) (swapped : KMap Nat) (i : Nat) : List Nat :=
  (List.range 8192).filter (fun g => (full || bit (KMap.get 0 swapped (i * 256 + g / 32)) (g % 32)) && ckpCovered s i g)

/-- The 64 pieces of a page read at a slice offset. -/
def pieceJobs (i page : Nat) (enc : Bool) (off : Nat) : List CkpJob :=
  (List.range 64).map (fun k => ⟨i, page, k, enc, off + 1024 * k⟩)

/-- The cut, in step 3 of a boundary; `fn` is the FN at which the first quiesced local frame begins (R759). -/
def ckpCut (fn : Nat) (s : State) : State :=
  if ckpState s != ckpQuiescing then s
  else
    let swapped := mapWords s
    let full := s.flag R.CKP_CTRL_FULL_NEXT
    let jobs := ((List.range 256).map (fun i =>
      ((generationPages s full swapped i).map (fun g => pieceJobs i g (regionOf s i (g * 65536)).enc (g * 65536))).flatten)).flatten
    let s := (clearMaps s).setCkp { s.ckp with swapped := swapped, full := full, todo := jobs, sealDue := true }
    let s := (s.set R.CKP_STATUS_STATE ckpSending).set R.CKP_CUT_FN_FN fn
    let s := (s.set R.CKP_PROGRESS_TOTAL jobs.length).set R.CKP_PROGRESS_SENT 0
    let s := s.setCkp { s.ckp with room := ckpRoom s }
    pumpAll (raise 0x0902 noUnit 0 s)

/-! The end of a checkpoint. -/

/-- The reads of the engine leave the slices' queues. -/
def dropReads (s : State) : State := filterAccesses (fun a => a.src != .ckpRead) s

/-- The hold released, and a pending trigger taken up at once (R747, R767). -/
def ckpFinish (now : Nat) (s : State) : State :=
  let held := s.ckp.holds
  let s := (dropReads s).setCkp { s.ckp with
    holds := [], swapped := [], full := false, todo := [], reading := none, staged := [], sealDue := false, ended := some now }
  let s := held.foldl (fun t a => archRequest a reqResume t) (s.set R.CKP_STATUS_STATE ckpIdle)
  if s.flag R.CKP_STATUS_PENDING && s.flag R.CKP_CTRL_ENABLE then ckpStart s else s.set R.CKP_STATUS_PENDING 0

/-- A checkpoint abandoned (R768). -/
def ckpAbandon (reason now : Nat) (s : State) : State :=
  let s := s.ckp.swapped.foldl (fun t e => setMapWord e.1 ((t.get (mapField e.1)).lor e.2) t) s
  let s := (s.set R.CKP_STATUS_LAST reason).bump R.CKP_COUNT_ABANDONED
  ckpFinish now (raise 0x0904 noUnit 0 s)

/-- Whether a checkpoint runs. -/
def ckpRuns (s : State) : Bool := 1 ≤ ckpState s && decide (ckpState s ≤ ckpSealed)

/-! CKP_CTRL. -/

/-- A refuge given up (R758). -/
def refugeReset (s : State) : State :=
  let s := clearUsed (fun _ => true) s
  let s := ((s.set R.CKP_REFUGE_STAT_COMMITTED_GEN 0).set R.CKP_REFUGE_STAT_OWNED 0).set R.CKP_REFUGE_STAT_PARTNER 0
  let s := if dramOn s 0 && 2 ≤ refugePages s then refugeBytes 0 (headerOffset s + 4) (le 4 0) s else s
  notePool (s.setCkp { s.ckp with received := [], seen := none })

/-- CKP_CTRL written with a word. -/
def ckpWrite (w now : Nat) (s : State) : State :=
  if !decodes s 0 || !domainOn s 0 then s
  else
    let was := s.flag R.CKP_CTRL_ENABLE
    let s := writeRest 0 0x900000 w s
    let s := s.set R.CKP_CTRL_ENABLE (bits w 0 1)
    let s := if bit w 0 && !was then s.set R.CKP_CTRL_FULL_NEXT 1 else s
    let s := if !bit w 0 && ckpRuns s then ckpAbandon 7 now s else s
    let s := if bit w 7 then clearMaps s else s
    let s := if bit w 10 then refugeReset s else s
    let s := if bit w 5 then ckpTrigger 4 now s else s
    notePool s

/-- A word of CKP_CTRL with the bit that a command writes. -/
def withBit (w k : Nat) (v : Bool) : Nat := setBits w k 1 (b2n v)

/-- CHECKPOINT_REQUEST: CKP_CTRL written with REQUEST = 1 (R759). -/
def execCheckpointRequest (w now : Nat) (s : State) : Result := .next (inOneCycle (ckpWrite (withBit w 5 true) now) s)
/-- CHECKPOINT_ENABLE: CKP_CTRL written with ENABLE = 1 (R744). -/
def execCheckpointEnable (w now : Nat) (s : State) : Result := .next (inOneCycle (ckpWrite (withBit w 0 true) now) s)
/-- CHECKPOINT_DISABLE: CKP_CTRL written with ENABLE = 0 (R768). -/
def execCheckpointDisable (w now : Nat) (s : State) : Result := .next (inOneCycle (ckpWrite (withBit w 0 false) now) s)
/-- CLEAR_MAPS: CKP_CTRL written with CLEAR_MAPS = 1 (R744). -/
def execClearMaps (w now : Nat) (s : State) : Result := .next (inOneCycle (ckpWrite (withBit w 7 true) now) s)
/-- REFUGE_RESET: CKP_CTRL written with REFUGE_RESET = 1 (R758). -/
def execRefugeReset (w now : Nat) (s : State) : Result := .next (inOneCycle (ckpWrite (withBit w 10 true) now) s)

/-! The buddy's part. -/

def sendReply (dest : Nat) (u : CkpUnit) (s : State) : State :=
  s.setCkp { s.ckp with replies := s.ckp.replies ++ [(dest, u.bytes)] }

def sendAck (dest gen : Nat) (restore : Bool) (s : State) : State := sendReply dest (blankUnit s unitAck gen restore) s

/-- The NAK reasons, as LAST of CKP_STATUS numbers them. -/
def nakFull : Nat := 3
def nakBase : Nat := 4
def nakPartner : Nat := 5
def nakDisabled : Nat := 6

/-- The record of a generation being received, and the list with one put in its place. -/
def rxOfSrc (s : State) (src : Nat) (restore : Bool) : Option CkpRx :=
  s.ckp.received.find? (fun r => r.src == src && r.restore == restore)

def putRx (r : CkpRx) (s : State) : State :=
  s.setCkp { s.ckp with received := s.ckp.received.filter (fun x => x.src != r.src || x.restore != r.restore) ++ [r] }

def dropRx (r : CkpRx) (s : State) : State :=
  s.setCkp { s.ckp with received := s.ckp.received.filter (fun x => x.src != r.src || x.restore != r.restore) }

/-- The record a unit belongs to: that of its generation, a new one, or none for a generation gone by. -/
def rxFor (u : CkpUnit) (s : State) : Option CkpRx :=
  match rxOfSrc s u.src u.restore with
  | some r =>
    if r.gen = u.gen then some r
    else if laterSeq u.gen r.gen then some ⟨u.src, u.restore, u.gen, u.full, [], [], none, false⟩
    else none
  | none => some ⟨u.src, u.restore, u.gen, u.full, [], [], none, false⟩

/-- A generation refused once (R758, R762, R766). -/
def nakOnce (r : CkpRx) (reason : Nat) (s : State) : State :=
  if r.refused then s
  else
    let s := putRx { r with refused := true } s
    sendReply r.src { blankUnit s unitNak r.gen false with count := reason } s

/-- Why the buddy refuses a unit's generation, if it does (R758, R766). -/
def refusal (u : CkpUnit) (s : State) : Option Nat :=
  if !s.flag R.CKP_CTRL_ENABLE then some nakDisabled
  else if s.flag R.CKP_REFUGE_STAT_OWNED && s.get R.CKP_REFUGE_STAT_PARTNER != u.src then some nakPartner
  else if !u.full && committedGen s != u.baseGen then some nakBase
  else none

def pageKey (i page : Nat) : Nat := i * 8192 + page
def pieceKey (i page piece : Nat) : Nat := pageKey i page * 64 + piece

/-- A piece queued at its slice, as host traffic is (R91, R762): its words that the mask names are to be written poisoned (R756). -/
def queuePiece (r : CkpRx) (i off : Nat) (u : CkpUnit) (s : State) : State :=
  let bad := ((List.range 32).filter (bit u.poison)).map (fun k => off + 32 * k)
  let data := (u.body ++ List.replicate 1024 0).take 1024
  let src := HostSrc.ckpWrite r.src r.restore r.gen (pieceKey u.isle u.page u.piece)
  pushAccess i { src := src, off := off, len := 1024, write := true, data := data, bad := bad } s

/-- The buddy commits a generation: entries first, older ones cleared for a FULL one, and the header last (R764). -/
def ckpCommit (r : CkpRx) (cutFn : Nat) (s : State) : State :=
  let s := dropRx r s
  let s := r.alloc.foldl (fun t a => setDirEntry (a.1 / 8192) a.2.1 ⟨a.1 % 8192, a.2.2, true, r.gen⟩ t) s
  let s := if r.full then clearUsed (fun d => laterSeq r.gen d.gen) s else s
  let header := le 2 0x4652 ++ [r.src, 0] ++ le 4 r.gen ++ le 8 cutFn ++ le 8 (s.get R.LHT_LT_LT) ++ List.replicate 8 0
  let s := refugeWord 0 (headerOffset s) header false s
  let s := (s.set R.CKP_REFUGE_STAT_COMMITTED_GEN r.gen).set R.CKP_REFUGE_STAT_PARTNER r.src
  sendAck r.src r.gen false (notePool (s.set R.CKP_REFUGE_STAT_OWNED 1))

/-- A replacement has every piece of a restore (R771). -/
def restoreDone (r : CkpRx) (s : State) : State :=
  let s := clearMaps (dropRx r s)
  let s := (s.set R.CKP_GEN_ACKED r.gen).set R.CKP_GEN_CURRENT r.gen
  sendAck r.src r.gen true s

/-- A record judged: committed when its SEAL is held with every piece (R764, R771). -/
def judgeRx (r : CkpRx) (s : State) : State :=
  match r.sealed with
  | some (count, cut) =>
    if r.got.length < count then s else if r.restore then restoreDone r s else ckpCommit r cut s
  | none => s

/-- A piece of a checkpoint bound for the pool (R762, R763). -/
def poolPiece (u : CkpUnit) (r : CkpRx) (s : State) : State :=
  let fresh := match s.ckp.seen with
    | some g => laterSeq u.gen g
    | none => true
  let s := if fresh then clearUsed (fun d => !committed s d.gen) (s.setCkp { s.ckp with seen := some u.gen }) else s
  let key := pageKey u.isle u.page
  let place := match r.alloc.find? (fun a => a.1 == key) with
    | some a => some (a.2.1, r)
    | none => ((freePages s u.isle).head?).map (fun e => (e, { r with alloc := r.alloc ++ [(key, e, u.enc)] }))
  match place with
  | none => nakOnce r nakFull (raise 0x0905 noUnit 0 s)
  | some (e, r) =>
    queuePiece r u.isle (poolOffset s e + 1024 * u.piece) u (putRx r s)

/-- A piece of a restore bound for its page (R770). -/
def restorePiece (u : CkpUnit) (r : CkpRx) (s : State) : State :=
  let r := { r with
    alloc := if r.alloc.any (fun a => a.1 == pageKey u.isle u.page) then r.alloc
      else r.alloc ++ [(pageKey u.isle u.page, u.page, u.enc)] }
  queuePiece r u.isle (u.page * 65536 + 1024 * u.piece) u (putRx r s)

/-- A piece is written: it counts for its generation, which may be complete with it (R764, R771). -/
def pieceWritten (src : Nat) (restore : Bool) (gen key : Nat) (s : State) : State :=
  match rxOfSrc s src restore with
  | some r =>
    if r.gen != gen then s
    else
      let r := { r with got := if r.got.contains key then r.got else r.got ++ [key] }
      judgeRx r (putRx r s)
  | none => s

/-- A piece taken (R758, R762, R766, R769). -/
def takePiece (u : CkpUnit) (s : State) : State :=
  if u.page ≥ 8192 || u.piece ≥ 64 || !dramOn s u.isle then s
  else
    match rxFor u s with
    | none => s
    | some r =>
      if u.restore then if s.flag R.CKP_CTRL_RESTORE_ACCEPT then restorePiece u r s else s
      else if r.refused then s
      else
        match refusal u s with
        | some reason => nakOnce r reason s
        | none => poolPiece u r s

/-- PIECE_RECEIVE: the unit at place `k` of a refuge slot is a PIECE (R762). -/
def execPieceReceive (p slot k : Nat) (s : State) : Result :=
  .next (
    match unitAt s p slot k with
    | some u => if u.kind = unitPiece then inOneCycle (takePiece u) s else s
    | none => s)

/-- The pieces of a record that are received and wait to be written. -/
def queuedPieces (s : State) (r : CkpRx) : List Nat :=
  ((s.slices.map (fun e => e.2.hostq)).flatten.filterMap (fun a =>
    match a.src with
    | .ckpWrite src restore gen key =>
      if src == r.src && restore == r.restore && gen == r.gen && !r.got.contains key then some key else none
    | _ => none)).eraseDups

/-- Whether pieces of a sealed generation are still to come. -/
def lacks (s : State) (r : CkpRx) (count : Nat) : Bool := decide (r.got.length + (queuedPieces s r).length < count)

/-- The pieces of the pages a record knows that are neither written nor waiting to be, in ascending order. -/
def missingPieces (s : State) (r : CkpRx) : List Nat :=
  let queued := queuedPieces s r
  ((r.alloc.map (fun a => a.1)).map (fun pg =>
    ((List.range 64).map (fun k => pg * 64 + k)).filter (fun x => !r.got.contains x && !queued.contains x))).flatten

/-- An entry of a MISS (R752). -/
def missEntry (x : Nat) : Nat := x / (64 * 8192) + x / 64 % 8192 * 2 ^ 8 + x % 64 * 2 ^ 21

/-- MISS units that list every missing piece, 256 to a unit (R765). -/
def sendMisses (r : CkpRx) (s : State) : State :=
  let missing := missingPieces s r
  (List.range (Nat.max 1 (cdiv missing.length 256))).foldl (fun t n =>
    let part := (missing.drop (256 * n)).take 256
    sendReply r.src { blankUnit t unitMiss r.gen r.restore with
      count := part.length, body := (part.map (fun x => le 4 (missEntry x))).flatten } t) s

/-- A SEAL taken: the generation is committed, or what is missing is listed (R764 to R766, R771). -/
def takeSeal (u : CkpUnit) (s : State) : State :=
  let settle := fun (r : CkpRx) (t : State) =>
    let r := { r with sealed := some (u.count, u.cutFn) }
    let t := putRx r t
    if lacks t r u.count then sendMisses r t else judgeRx r t
  match rxFor u s with
  | none => s
  | some r =>
    if u.restore then if s.flag R.CKP_CTRL_RESTORE_ACCEPT then settle r s else s
    else if r.refused then s
    else if s.flag R.CKP_REFUGE_STAT_OWNED && s.get R.CKP_REFUGE_STAT_PARTNER == u.src && committedGen s == u.gen then
      sendAck u.src u.gen false s
    else
      match refusal u s with
      | some reason => nakOnce r reason s
      | none => if refugePages s < 2 then nakOnce r nakFull (raise 0x0905 noUnit 0 s) else settle r s

/-- A rendezvous FN: pieces not written by then are discarded (R762), and a sealed generation that lacks some lists them (R765). -/
def ckpDiscard (s : State) : State :=
  let held := s.ckp.received.filter (fun r => !(queuedPieces s r).isEmpty)
  let s := filterAccesses (fun a => match a.src with
    | .ckpWrite _ _ _ _ => false
    | _ => true) s
  held.foldl (fun t r => if r.sealed.isSome then sendMisses r t else t) s

/-- SEAL_RECEIVE: the unit at place `k` of a refuge slot is a SEAL (R764). -/
def execSealReceive (p slot k : Nat) (s : State) : Result :=
  .next (
    match unitAt s p slot k with
    | some u => if u.kind = unitSeal then inOneCycle (takeSeal u) s else s
    | none => s)

/-! Replies at the source. -/

/-- Whether a reply answers what the engine sends: its generation, from its peer. -/
def answers (s : State) (u : CkpUnit) : Bool := u.gen == sendGen s && ckpPeer s == some u.src

/-- ACK taken (R767, R771). -/
def takeAck (u : CkpUnit) (now : Nat) (s : State) : State :=
  if !answers s u then s
  else if ckpState s = ckpSealed then
    let s := (s.set R.CKP_GEN_ACKED u.gen).set R.CKP_STATUS_LAST 1
    let s := if s.ckp.full then s.set R.CKP_CTRL_FULL_NEXT 0 else s
    ckpFinish now (raise 0x0903 noUnit 0 (s.count R.CKP_COUNT_COMMITTED))
  else if ckpState s = ckpRestoring then
    let s := (s.set R.CKP_RESTORE_BUSY 0).set R.CKP_RESTORE_DONE 1
    let s := raise 0x0907 noUnit 0 (s.set R.CKP_STATUS_STATE ckpIdle)
    let s := (dropReads s).setCkp { s.ckp with todo := [], reading := none, staged := [], sealDue := false }
    if s.flag R.CKP_STATUS_PENDING && s.flag R.CKP_CTRL_ENABLE then ckpStart s else s.set R.CKP_STATUS_PENDING 0
  else s

/-- ACK_RECEIVE (R767). -/
def execAckReceive (p slot k now : Nat) (s : State) : Result :=
  .next (
    match unitAt s p slot k with
    | some u => if u.kind = unitAck then inOneCycle (takeAck u now) s else s
    | none => s)

/-- The pieces a MISS lists, as (isle, page, piece) (R752). -/
def missList (u : CkpUnit) : List (Nat × Nat × Nat) :=
  (List.range (Nat.min u.count 256)).map (fun n =>
    let w := leAt u.body (4 * n) 4
    (bits w 0 8, bits w 8 13, bits w 21 6))

/-- Where a piece sent again is read: from its page, or from the copy in the refuge. -/
def againJob (s : State) (x : Nat × Nat × Nat) : Option CkpJob :=
  let (i, page, k) := x
  if ckpState s = ckpRestoring then
    ((copiesOf s i).find? (fun c => c.2.page == page)).map (fun c => ⟨i, page, k, c.2.enc, poolOffset s c.1 + 1024 * k⟩)
  else some ⟨i, page, k, (regionOf s i (page * 65536)).enc, page * 65536 + 1024 * k⟩

/-- MISS taken: the pieces listed are read and sent again, with a new SEAL (R765). -/
def takeMiss (u : CkpUnit) (s : State) : State :=
  if !answers s u || !(ckpState s = ckpSealed || ckpState s = ckpSending || ckpState s = ckpRestoring) then s
  else
    let jobs := (missList u).filterMap (againJob s)
    let s := if ckpState s = ckpRestoring then s else s.set R.CKP_STATUS_STATE ckpSending
    let s := s.setCkp { s.ckp with todo := s.ckp.todo ++ jobs, sealDue := true, room := ckpRoom s }
    pumpAll (raise 0x0909 noUnit 0 (s.bump R.CKP_COUNT_RESENT jobs.length))

/-- MISS_RECEIVE (R765). -/
def execMissReceive (p slot k : Nat) (s : State) : Result :=
  .next (
    match unitAt s p slot k with
    | some u => if u.kind = unitMiss then inOneCycle (takeMiss u) s else s
    | none => s)

/-- NAK taken: the checkpoint is abandoned, and BASE asks for a full one next (R744, R768). -/
def takeNak (u : CkpUnit) (now : Nat) (s : State) : State :=
  if !answers s u || !ckpRuns s then s
  else
    let s := if u.count = nakBase then s.set R.CKP_CTRL_FULL_NEXT 1 else s
    ckpAbandon u.count now s

/-- NAK_RECEIVE (R768). -/
def execNakReceive (p slot k now : Nat) (s : State) : Result :=
  .next (
    match unitAt s p slot k with
    | some u => if u.kind = unitNak then inOneCycle (takeNak u now) s else s
    | none => s)

/-- A rendezvous passes while the SEAL is unanswered (R768). -/
def ckpPassed (s : State) : State :=
  if ckpState s = ckpSealed then s.setCkp { s.ckp with waited := s.ckp.waited + 1 } else s

/-- ABANDON_EXPIRY: ABANDON_RDV rendezvous have passed after the SEAL (R768). -/
def execAbandonExpiry (now : Nat) (s : State) : Result :=
  .next (
    if ckpState s = ckpSealed && decide (Nat.max 1 (s.get R.CKP_CFG_ABANDON_RDV) ≤ s.ckp.waited) then
      inOneCycle (ckpAbandon 2 now) s
    else s)

/-- RESTORE_START: CKP_RESTORE written with START = 1 (R769, R770). -/
def execRestoreStart (w : Nat) (s : State) : Result :=
  .next (
    if !decodes s 0 || !domainOn s 0 then s
    else
      let s := writeRest 0 0x900040 w s
      if ckpState s != ckpIdle || !s.flag R.CKP_REFUGE_STAT_OWNED then s
      else inOneCycle (fun s =>
        let jobs := ((List.range 256).map (fun i =>
          ((copiesOf s i).map (fun c => pieceJobs i c.2.page c.2.enc (poolOffset s c.1))).flatten)).flatten
        let s := (s.set R.CKP_STATUS_STATE ckpRestoring).set R.CKP_RESTORE_BUSY 1
        let s := (s.set R.CKP_PROGRESS_TOTAL jobs.length).set R.CKP_PROGRESS_SENT 0
        let s := s.setCkp { s.ckp with todo := jobs, reading := none, staged := [], sealDue := true, full := false }
        pumpAll (raise 0x0906 noUnit 0 (s.setCkp { s.ckp with room := ckpRoom s }))) s)

end Sys2Proof.Machine
end

