-- ==== Sys2Proof/Machine/Service.lean ====
section
/-!
DEFINITION. The service of queued slice accesses (R91 to R94, R287), what the end of each brings to whoever asked for it, and the
BAR0 requests that waited for a BAR2 write (R424, R444).
-/
namespace Sys2Proof.Machine

/-! BAR0 requests that waited. -/

/-- A request held takes effect. -/
def replay (c : Instr) (s : State) : State :=
  match c with
  | .registerWrite func a width v => registerWrite func a width v s
  | .readClear func a width => bar0Answer func a width s
  | .islStateRead x width => bar0Answer 0 (isleStateAddr x) width s
  | .bollardAdd r b delta => bollardAdd r.who b delta r.more s
  | .bollardTas r x width => tasRead r x width s
  | .waiterArm who w ctrl => waiterArm who w ctrl s
  | .waiterDisarm who w ctrl => waiterDisarm who w ctrl s
  | .quayDoorbell func q pi => quayDoorbell func q pi s
  | .quayConsumerWrite func q ci => quayConsumerWrite func q ci s
  | .quayPeekRead func q held => peekRead func q held s
  | .quayEnable func q ctrl => quayEnable func q ctrl s
  | .quayDisable func q ctrl => quayDisable func q ctrl s
  | .hostviewWrite view => hostviewWrite view s
  | .bar2WindowWrite offset size => bar2WindowWrite offset size s
  | .dmaEnable e ctrl => dmaEnable e ctrl s
  | .dmaDisable e ctrl => dmaDisable e ctrl s
  | .dmaDoorbell e pi => dmaDoorbell e pi s
  | .dmaResume e => dmaResume e s
  | _ => s

/-- The requests held, from the oldest on, that wait for no BAR2 write any more. -/
def releaseHeld : List HeldOp → State → State
  | [], s => { s with hif := { s.hif with held := [] } }
  | h :: hs, s => if h.after.isEmpty then releaseHeld hs (replay h.cmd s) else { s with hif := { s.hif with held := h :: hs } }

/-- A BAR2 write has become readable, or was refused: requests that waited for it take effect in order (R424). -/
def bar2WriteDone (tag : Nat) (s : State) : State :=
  releaseHeld (s.hif.held.map (fun h => { h with after := h.after.erase tag })) s

/-- BAR2_REQUEST_EXPIRY: a request not fully served within its limit is refused (R451). -/
def execBar2RequestExpiry (tag : Nat) (s : State) : Result :=
  .next (
    match ((s.slices.map (fun e => e.2.hostq)).flatten).find? (ofTag tag) with
    | some a =>
      let hdr := match a.src with
        | .bar2 _ h => h
        | _ => []
      let s := filterAccesses (fun b => !ofTag tag b) s
      let s := raiseOnceFrame 0x0014 0 0 (bar2Refuse tag a.write hdr (s.bump R.GLB_HIF_ERR_EXPIRED))
      if a.write then bar2WriteDone tag s else s
    | none => s)

/-! Where and when an access may be served. -/

/-- The kind of frame that the archipelago of an isle runs, if the isle has an installed schedule. -/
def scheduled (s : State) (i : Nat) : Option FrameKind :=
  match archOf s i with
  | some a => if s.flag (R.FRV_ARCH_STATE_INSTALLED.at [a]) then some (s.arch a).frame else none
  | none => none

/-- The host interval of an isle that holds a cycle. -/
def intervalAt (s : State) (i cycle : Nat) : Option (Nat × Nat) :=
  (s.isle i).hostInts.find? (fun p => decide (p.1 ≤ cycle) && decide (cycle < p.2))

/-- The cycle before which an access that starts in a cycle has to end (R91 to R93): none where the stack's slices refresh
self-timed (R627); otherwise the end of the foreground zone, or of the host interval. No answer where none may start. Only HSEND and HRECV
run in a dry frame, and they use no slice bank (R91). -/
def serviceLimit (s : State) (i cycle : Nat) : Option (Option Nat) :=
  if selfTimed s (stackOf i) then some none
  else if s.frame.window || frameCycles s ≤ cycle then none
  else
    match scheduled s i with
    | none | some .dry => some (some (frameCycles s))
    | some _ => (intervalAt s i cycle).map (fun p => some p.2)

/-- Whether an access is the outlet read of an emission. -/
def isEmission (a : HostAcc) : Bool :=
  match a.src with
  | .emission _ => true
  | _ => false

/-- Whether an emission's read may use the host interval that holds a cycle: it begins at or after EMIT_OFFSET (R402). -/
def emissionMay (s : State) (i cycle : Nat) (a : HostAcc) : Bool :=
  match a.src, intervalAt s i cycle with
  | .emission q, some p =>
    match bindOf s q with
    | some b => decide (b.emitOffset ≤ p.1)
    | none => false
  | _, _ => false

/-- The place in the queue of the access to be served: outlet reads first in their intervals (R402), the others in arrival order
(R94), none past a host NBU command that came before it (R380). -/
def nextAccess (s : State) (i cycle : Nat) : Option Nat :=
  let v := s.slice i
  let at_ := match v.hostq.findIdx? (emissionMay s i cycle) with
    | some k => some k
    | none => v.hostq.findIdx? (fun a => !isEmission a)
  match at_ with
  | some k => if v.hostCmd.isSome && v.cmdBehind ≤ k then none else some k
  | none => none

/-! The end of an access. -/

/-- Runs of words alike good or bad, as (address from the start, bytes, bad). -/
def goodRuns (off : Nat) (bad : List Nat) (data : List Nat) : List (Nat × List Nat × Bool) :=
  (wordParts off data.length).foldl (fun runs p =>
    let b := bad.contains (wordBase p.1)
    let part := (data.drop (p.1 - off)).take p.2
    match runs.reverse with
    | r :: rs => if r.2.2 == b then (rs.reverse ++ [(r.1, r.2.1 ++ part, b)]) else runs ++ [(p.1 - off, part, b)]
    | [] => [(p.1 - off, part, b)]) []

/-- The completions of a BAR2 read: one for each aligned 64 bytes, with EP where it carries a bad word (R435, R454). -/
def completions (tag off : Nat) (bad : List Nat) (data : List Nat) (s : State) : State :=
  let n := data.length
  (List.range ((off + n - 1) / 64 - off / 64 + 1)).foldl (fun t k =>
    let lo := Nat.max off ((off / 64 + k) * 64)
    let hi := Nat.min (off + n) ((off / 64 + k + 1) * 64)
    t.emit (.completion tag cplOk ((data.drop (lo - off)).take (hi - lo))
      ((wordParts lo (hi - lo)).any (fun p => bad.contains (wordBase p.1))))) s

/-- Outlet bytes read: they wait for their burst, or go on to the ring's slice at once (R402). -/
def emissionRead (q : Nat) (a : HostAcc) (s : State) : State :=
  match (s.quay q).emission, bindOf s q with
  | some e, some b =>
    let done := a.pos == a.len
    let e := { e with data := a.data, ended := done, sent := if inDevice s q then a.data.length else e.sent }
    let was := ((s.quay q).emission.map (fun e => e.data.length)).getD 0
    let s := s.modQuay q (fun v => { v with emission := some e })
    if inDevice s q then ringWrite (.ringPut q false) q b.func (e.start + 1) was (a.data.drop was) s else s
  | _, _ => s

/-- Payload read from a ring in device memory (R398, R399). -/
def ringPayload (q : Nat) (a : HostAcc) (s : State) : State := if a.bad.isEmpty then stageDelivery q a.data s else fetchFailed q 6 s

/-- A header read from a ring in device memory (R394). -/
def ringHeaderRead (q : Nat) (a : HostAcc) (s : State) : State :=
  let s := s.modQuay q (fun v => { v with heading := false })
  match bindOf s q with
  | some b => judgeHeader q b a.data (!a.bad.isEmpty) s
  | none => s

/-- The header of a packet reads zero, or cannot be written. -/
def ringZeroed (q : Nat) (s : State) : State :=
  match (s.quay q).packet with
  | some p => packetGone q p (p.fate.getD 0) s
  | none => s

/-- Words of an emission are in a ring of device memory; the last is its header (R403). -/
def ringFilled (q : Nat) (last : Bool) (s : State) : State :=
  match bindOf s q with
  | some b => if last && !(s.quay q).closing.isEmpty then emissionGone q b s else s
  | none => s

/-- The mask of the bad words of a piece (R761). -/
def pieceMask (a : HostAcc) : Nat :=
  ((List.range 32).map (fun k => if a.bad.contains (a.off + 32 * k) then 2 ^ k else 0)).sum

/-- What a part served brings: `n` bytes more of the access are done. -/
def accessStep (a : HostAcc) (n : Nat) (s : State) : State :=
  match a.src with
  | .dma e => if a.write then dmaMoved e n false s else s
  | .delivery q => s.modQuay q (fun v => { v with packet := v.packet.map (fun p => { p with written := p.written + n }) })
  | .emission q => emissionRead q a s
  | _ => s

/-- A burst of an engine has been read: it is sent, with EP on the bad words, and is over (R460, R463). -/
def dmaSent (e : Nat) (a : HostAcc) (s : State) : State :=
  match (s.dma e).desc with
  | none => s
  | some d =>
    let v := s.dma e
    let s := (goodRuns a.off a.bad a.data).foldl (fun t r => t.emit (.hostWrite 0 (d.host + (v.asked - a.len) + r.1) r.2.1 r.2.2)) s
    let s := releaseArbiters e ((dmaMoved e a.len (!a.bad.isEmpty) s).modDma e (fun v => { v with burst := 0 }))
    dmaSettle e s

/-- What the end of an access brings to whoever asked for it. -/
def accessDone (a : HostAcc) (s : State) : State :=
  match a.src with
  | .bar2 tag _ => if a.write then bar2WriteDone tag s else completions tag a.off a.bad a.data s
  | .dma e => if a.write then dmaSettle e s else dmaSent e a s
  | .delivery _ => s
  | .emission _ => s
  | .ringRead q => ringPayload q a s
  | .ringHead q => ringHeaderRead q a s
  | .ringZero q => ringZeroed q s
  | .ringPut q last => ringFilled q last s
  | .ckpRead => ckpReadDone a.data (pieceMask a) s
  | .ckpWrite src restore gen key => pieceWritten src restore gen key s

/-- Whether an access is refused as it stands when it is to be served (R323, R452): a delivery's first write is judged for the whole
payload (R396), and the checkpoint engine needs the stack only. -/
def refusedNow (s : State) (i : Nat) (a : HostAcc) : Bool :=
  match a.src with
  | .ckpRead | .ckpWrite _ _ _ _ => !dramOn s i
  | .delivery q =>
    match (s.quay q).packet with
    | some p =>
      if p.written = 0 then hostRefused s (dpaIsle p.target) (dpaOffset p.target) p.bytes true
      else hostRefused s i a.off a.len true
    | none => true
  | _ => hostRefused s i a.off a.len a.write

/-- What a refused access brings to whoever asked for it (R394, R395 reason 5, R453, R463 code 4). -/
def accessRefused (i : Nat) (a : HostAcc) (s : State) : State :=
  let s := noteNoKey i a.off a.len s
  match a.src with
  | .bar2 tag hdr =>
    let s := bar2Refuse tag a.write hdr s
    if a.write then bar2WriteDone tag s else s
  | .dma e => dmaEnd e 4 true s
  | .delivery q => fetchFailed q (if ((s.quay q).packet.map (fun p => p.written)).getD 0 = 0 then 5 else 6) s
  | .emission _ => s
  | .ringRead q => fetchFailed q 6 s
  | .ringHead q => quayHalt q 4 (s.modQuay q (fun v => { v with heading := false }))
  | .ringZero q => ringZeroed q s
  | .ringPut q _ => emissionLate q (quayDrop q s)
  | .ckpRead => ckpReadDone [] fullMask s
  | .ckpWrite _ _ _ _ => s

/-! Service. -/

/-- Whether the words of a write reach the slice only once the whole of it is served: a BAR2 write, which a refusal or an expiry
leaves without effect (R451, R453). -/
def writesLast (a : HostAcc) : Bool := a.write && isBar2 a

/-- Words of a checkpoint piece written whole, those named poisoned; refuge writes leave the dirty maps alone (R742, R756). -/
def writePieceParts (i : Nat) (restore : Bool) (a : HostAcc) (ps : List (Nat × Nat)) (s : State) : State :=
  ps.foldl (fun t p =>
    let data := (a.data.drop (p.1 - a.off)).take 32
    if restore then storeWord .host i p.1 data (a.bad.contains p.1) t else storeBare .host i p.1 data (a.bad.contains p.1) t) s

/-- Parts of an access served: read into it, or written from it. -/
def serveParts (i : Nat) (a : HostAcc) (ps : List (Nat × Nat)) (s : State) : HostAcc × State :=
  let n := (ps.map (fun p => p.2)).sum
  let b := { a with pos := a.pos + n }
  match a.src, a.write with
  | .ckpWrite _ restore _ _, _ => (b, writePieceParts i restore a ps s)
  | .ckpRead, _ =>
    let (d, bad, s) := readParts readStored i ps s
    ({ b with data := a.data ++ d, bad := a.bad ++ bad }, s)
  | _, true =>
    if !writesLast a then (b, writeParts i a.off a.data ps s)
    else if b.pos = a.len then (b, writeParts i a.off a.data (wordParts a.off a.len) s)
    else (b, s)
  | _, false =>
    let (d, bad, s) := readParts readPart i ps s
    ({ b with data := a.data ++ d, bad := a.bad ++ bad }, s)

/-- The k-th access of a queue replaced, or taken out; those before a waiting host NBU command are counted again. -/
def putAccess (i k : Nat) (a : HostAcc) (s : State) : State := s.modSlice i (fun v => { v with hostq := v.hostq.set k a })
def takeAccess (i k : Nat) (s : State) : State :=
  s.modSlice i (fun v => { v with hostq := v.hostq.eraseIdx k, cmdBehind := if k < v.cmdBehind then v.cmdBehind - 1 else v.cmdBehind })

/-- The k-th access of an isle served from a cycle on, as far as `room` cycles reach. -/
def serveAccess (i k cycle : Nat) (a : HostAcc) (room : Option Nat) (s : State) : State :=
  let ps := partsThatFit a.write room (wordParts (a.off + a.pos) (a.len - a.pos))
  if ps.isEmpty then s
  else
    let (b, t) := serveParts i a ps (noteService i cycle a.write ps s)
    let n := b.pos - a.pos
    if b.pos < b.len then accessStep b n (putAccess i k b t) else accessDone b (accessStep b n (takeAccess i k t))

/-- HOST_SLICE_ACCESS: from a cycle on that R91 allows and the slice port is free in, as many code words as fit of the access whose
turn it is are served (R94, R287). An access waits while its slice is being filled (R452), while a compute reset runs (R617), and
while a host NBU command holds the banks (R380). -/
def execHostSliceAccess (i cycle : Nat) (s : State) : Result :=
  .next (
    let v := s.slice i
    match serviceLimit s i cycle, nextAccess s i cycle with
    | some limit, some k =>
      match v.hostq[k]? with
      | none => s
      | some a =>
        if v.filling || s.boot.creset != .none_ || v.nbu.any (fun r => r.cmd.host) || cycle < v.portFree then s
        else
          let s := land i cycle s
          if refusedNow s i a then accessRefused i a (takeAccess i k s)
          else serveAccess i k cycle a (limit.map (fun e => e - cycle)) s
    | _, _ => s)

end Sys2Proof.Machine
end

