-- ==== Sys2Proof/Machine/Power.lean ====
section
/-!
DEFINITION. Power domains and their sequencers (R626 to R641), clock domains (R642 to R645), the voltage loop (R646 to R649,
R836) and power capping (R650 to R653).
-/
namespace Sys2Proof.Machine

/-! Boot states (GLB_BOOT). -/

def bootAon : Nat := 0
def bootPilot : Nat := 1
def bootKeel : Nat := 2
def bootPowerUp : Nat := 3
def bootSelfTest : Nat := 4
def bootRepair : Nat := 5
def bootFill : Nat := 6
def bootReleased : Nat := 7
def bootStopped : Nat := 8
def bootWaitStop : Nat := 9
def bootCreset : Nat := 10

def bootState (s : State) : Nat := s.get R.GLB_BOOT_STATE
def setBoot (v : Nat) (s : State) : State := s.set R.GLB_BOOT_STATE v

/-- The isles have been released (R593). -/
def released (s : State) : Bool := bootState s == bootReleased || bootState s == bootCreset

/-- Bring-up stops for good (R608). -/
def stopBringUp (cause stack detail : Nat) (s : State) : State :=
  let s := ((setBoot bootStopped s).set R.GLB_BOOT_STOP_CAUSE cause).set R.GLB_BOOT_STACK stack
  raise 0x0002 noUnit cause (s.set R.GLB_BOOT_DETAIL detail)

/-! Domains. -/

/-- The parent of a domain (R626); the always-on island has none. -/
def parentOf (d : Nat) : Nat :=
  if d < 2 then aon
  else if d < 10 then 16
  else if d < 14 then d - 4
  else if d < 16 then 16
  else 0

def isDram (d : Nat) : Bool := decide (6 ≤ d) && decide (d ≤ 9)

/-- Descendants of a domain, nearest the leaves first (R629). -/
def descendants (d : Nat) : List Nat :=
  if d = 16 then [10, 11, 12, 13, 6, 7, 8, 9, 2, 3, 4, 5, 14, 15]
  else if isDram d then [d + 4]
  else if d = 0 then [10, 11, 12, 13, 6, 7, 8, 9, 2, 3, 4, 5, 14, 15, 16, 17]
  else []

def DomState.code : DomState → Nat
  | .off => 0 | .up => 1 | .on => 2 | .down => 3 | .hold => 4 | .fault => 5

/-- The field of PWR_STATE for a domain. -/
def pwrStateField (d : Nat) : Field := { R.PWR_STATE_STATE_PD0 with lo := 3 * d }

/-- EXTEST, CLAMP or HIGHZ in force ends as a domain from PD2 to PD15 leaves OFF: it acts as BYPASS from then on (R808). -/
def tapBlocked (s : State) : State :=
  if s.pil.tap.active then
    let s := { s with pil := { s.pil with tap := { s.pil.tap with active := false } } }
    raise 0x0C07 noUnit 0 ((s.set R.PIL_JTAG_STAT_TAP_ACTIVE 0).set R.PIL_JTAG_STAT_EXTEST_BLOCKED 1)
  else s

/-- A domain's state and step changed, and PWR_STATE with it. -/
def setDomState (d : Nat) (st : DomState) (step : SeqStep) (s : State) : State :=
  let s := (s.modDom d (fun v => { v with state := st, step := step })).set (pwrStateField d) st.code
  if 2 ≤ d && decide (d ≤ 15) && st != .off && st != .hold then tapBlocked s else s

/-- A domain's target, and TARGET of PWR_REQ with it. -/
def setTarget (d : Nat) (b : Bool) (s : State) : State :=
  let s := s.modDom d (fun v => { v with target := b })
  s.set R.PWR_REQ_TARGET (((List.range 16).map (fun k => b2n (s.dom (k + 2)).target * 2 ^ k)).sum)

/-- The clock domains of a power domain (R642). -/
def clocksOf (d : Nat) : List Nat :=
  if d = 0 then [53, 57]
  else if d = 1 then [54, 55]
  else if d < 6 then (List.range 9).map (fun o => 11 * (d - 2) + o)
  else if d < 10 then [11 * (d - 6) + 9]
  else if d < 14 then [11 * (d - 10) + 10]
  else if d < 16 then (List.range 4).map (fun k => 44 + 4 * (d - 14) + k)
  else if d = 17 then [59]
  else []

/-- The GLB_DIE_HEALTH bits of the dies whose domain this is (R14, R28). -/
def healthBits (d : Nat) : List Nat :=
  if 2 ≤ d && decide (d ≤ 5) then [d - 2]
  else if isDram d then (List.range 8).map (fun l => 4 + 8 * (d - 6) + l)
  else if 10 ≤ d && decide (d ≤ 13) then [d - 10]
  else if d = 14 then [36]
  else if d = 15 then [37]
  else if d = 16 then [39]
  else []

/-- A bit of GLB_DIE_HEALTH, in the field that holds it. -/
def setHealth (b : Nat) (v : Bool) (s : State) : State :=
  if b < 4 then s.set R.GLB_DIE_HEALTH_ISLE_DIE (setBits (s.get R.GLB_DIE_HEALTH_ISLE_DIE) b 1 (b2n v))
  else if b < 36 then s.set R.GLB_DIE_HEALTH_DRAM_LAYER (setBits (s.get R.GLB_DIE_HEALTH_DRAM_LAYER) (b - 4) 1 (b2n v))
  else if b = 36 then s.setFlag R.GLB_DIE_HEALTH_HARBOUR_A v
  else if b = 37 then s.setFlag R.GLB_DIE_HEALTH_HARBOUR_B v
  else if b = 38 then s.setFlag R.GLB_DIE_HEALTH_PILOT v
  else if b = 39 then s.setFlag R.GLB_DIE_HEALTH_BRIDGE v
  else s

def health (s : State) (b : Nat) : Bool :=
  if b < 4 then bit (s.get R.GLB_DIE_HEALTH_ISLE_DIE) b
  else if b < 36 then bit (s.get R.GLB_DIE_HEALTH_DRAM_LAYER) (b - 4)
  else if b = 36 then s.flag R.GLB_DIE_HEALTH_HARBOUR_A
  else if b = 37 then s.flag R.GLB_DIE_HEALTH_HARBOUR_B
  else if b = 38 then s.flag R.GLB_DIE_HEALTH_PILOT
  else if b = 39 then s.flag R.GLB_DIE_HEALTH_BRIDGE
  else true

/-- A die leaves service; a fault after release reports it (R28). -/
def dieOut (b : Nat) (fault : Bool) (s : State) : State :=
  if health s b then
    let s := setHealth b false s
    if fault && released s then raise 0x0A01 b 0 s else s
  else s

/-- The dies of a domain leave service (R28): by a fault of the domain, or of a domain above it, each is reported (DESIGN CHOICE). -/
def diesOut (d : Nat) (fault : Bool) (s : State) : State := (healthBits d).foldl (fun t b => dieOut b fault t) s

/-- The domains of a die (R14). -/
def dieDomains (b : Nat) : List Nat := (List.range 18).filter (fun d => (healthBits d).contains b)

/-- The self-tests of the dies of a domain that is ON again after the release (R28): a die that passes is in service once all its domains
are on, and one that fails is out of service. -/
def testDies (d : Nat) (ok : Bool) (s : State) : State :=
  (healthBits d).foldl (fun t b =>
    if !ok then raise 0x0A01 b 0 (setHealth b false t)
    else if (dieDomains b).all (domainOn t) then setHealth b true t
    else t) s

/-- A harbour die off: its ports are OFF at once (R520). -/
def portsOff (h : Nat) (s : State) : State :=
  (List.range 4).foldl (fun t k =>
    let p := 4 * h + k
    let t := if portState t p = portOff then t else portLeave p portOff t
    t.modPort p (fun v => { v with retrainAt := none, retrainOwn := false, protests := [], rx := [] })) s

/-- The accesses waiting at a slice whose memory goes off are refused, in order (R452). -/
def refuseQueue (i : Nat) : Nat → State → State
  | 0, s => s
  | n + 1, s =>
    match (s.slice i).hostq with
    | [] => s
    | a :: rest => refuseQueue i n (accessRefused i a (s.modSlice i (fun v => { v with hostq := rest, cmdBehind := v.cmdBehind - 1 })))

/-- A stack's memory off: its contents and its key slots are lost (R298, R325). -/
def stackLost (k : Nat) (s : State) : State :=
  let s := (List.range 64).foldl (fun t j =>
    let i := 64 * k + j
    (refuseQueue i (t.slice i).hostq.length t).setSlice i { filling := true }) s
  { s with stored := s.stored.dropRange (64 * k * 2 ^ 24 * 64) (64 * (k + 1) * 2 ^ 24 * 64) }

/-- What D1 stops at once (R132, R381, R520, R627, R628, R635, R711); `v` is the cycle of the local frame, `cause` that of ISL_VOID. -/
def isolate (d v cause : Nat) (s : State) : State :=
  if 2 ≤ d && decide (d ≤ 5) then
    let k := d - 2
    let s := stackIslesOff k v cause s
    let s := setLocks ((clocksOf d).filter (fun n => !(rampingOctets s k).contains (n - 11 * k))) false s
    if s.refresh.selfTimed.contains k then s
    else { s with refresh := { s.refresh with selfTimed := k :: s.refresh.selfTimed } }
  else
    let s := setLocks (clocksOf d) false s
    if isDram d then stackLost (d - 6) (stackIslesOff (d - 6) v cause s)
    else if d = 14 || d = 15 then portsOff (d - 14) s
    else if d = 17 then (resetDomain 17 { s with fac := { s.fac with timing := false } })
    else s

/-- A domain that is ON begins to go down: D1 takes effect in the same cycle (R635). -/
def beginDown (d v cause : Nat) (s : State) : State := isolate d v cause (setDomState d .down .d1 s)

/-- The target of a domain is off (R635 to R637). A domain waiting for its parent, or for the boundary, waits no more; when
the parent's target goes off that is a dropped request (R630). -/
def targetOff (d v cause : Nat) (s : State) : State :=
  let s := setTarget d false s
  let s := s.modDom d (fun x => { x with waitBoundary := false, waitParent := false, cleared := x.cleared || x.state == .fault })
  if (s.dom d).state = .on then beginDown d v cause s else s

/-- A refused request (R630). -/
def powerRefused (d : Nat) (s : State) : State := raise 0x0503 d 0 (s.bump R.PWR_SEQ_REFUSED)

/-- An off request, with every descendant in the same cycle (R24, R629). -/
def domainOff (d v cause : Nat) (s : State) : State :=
  let s := (descendants d).foldl (fun t e =>
    let waits := (t.dom e).waitParent
    let t := targetOff e v cause (diesOut e false t)
    if waits then powerRefused e t else t) s
  targetOff d v cause (diesOut d false s)

/-- U1 begins where the target is on, the parent is ON and nothing runs (R630, R639, R640). -/
def tryUp (d : Nat) (s : State) : State :=
  let x := s.dom d
  let p := parentOf d
  if x.target && (p == aon || domainOn s p) && (x.state == .off || (x.state == .fault && x.cleared)) then
    setDomState d .up .u1 (s.modDom d (fun v => { v with waitParent := false, cleared := false }))
  else s

/-- Whether the shutdown latch or the stop latch refuses a domain's on requests (R672, R690). -/
def latchRefuses (s : State) (d : Nat) : Bool :=
  (s.flag R.THM_SHUTDOWN_LATCHED && s.thermal.shut.contains d) ||
    (s.flag R.FAC_STOP_STOP_LATCHED && decide (2 ≤ d) && decide (d ≤ 15))

/-- An on request applied (R630, R636, R672, R690). -/
def turnOn (d : Nat) (s : State) : State :=
  let x := s.dom d
  let p := parentOf d
  if latchRefuses s d then powerRefused d s
  else if x.target && !(x.state == .fault) then s
  else if p == aon || domainOn s p then tryUp d (setTarget d true s)
  else if !(s.dom p).target then powerRefused d s
  else setTarget d true (s.modDom d (fun v => { v with waitParent := true }))

/-- An on request from the host or the pilots: at the next boundary while local frames run, at once otherwise (R633). -/
def requestOn (d : Nat) (s : State) : State :=
  if !released s then s.bump R.PWR_SEQ_REFUSED
  else if s.frame.running then s.modDom d (fun v => { v with waitBoundary := true })
  else inOneCycle (turnOn d) s

def requestOff (d v : Nat) (s : State) : State :=
  if !released s then s.bump R.PWR_SEQ_REFUSED else inOneCycle (domainOff d v 5) s

/-- On requests of step 3 of a boundary (R633), parents first. -/
def applyOnRequests (s : State) : State :=
  ([16, 17] ++ (List.range 14).map (fun k => k + 2)).foldl (fun t d =>
    if (t.dom d).waitBoundary then turnOn d (t.modDom d (fun v => { v with waitBoundary := false })) else t) s

def switchable (d : Nat) : Bool := decide (2 ≤ d) && decide (d ≤ 17)

/-- DOMAIN_ON_REQUEST: 1 written to the bit of a domain in PWR_REQ. -/
def execDomainOnRequest (d : Nat) (s : State) : Result :=
  .next (if decodes s 0 && domainOn s 0 && switchable d then requestOn d s else s)

/-- DOMAIN_OFF_REQUEST: 0 written to the bit of a domain in PWR_REQ, at cycle `v` of the local frame. -/
def execDomainOffRequest (d v : Nat) (s : State) : Result :=
  .next (if decodes s 0 && domainOn s 0 && switchable d then requestOff d v s else s)

/-! The sequencer (R634). -/

/-- The stacks' isles come up with their isle logic, when their memory is on (R132, R628, R641): they wait for release, or
for the fill of their lagoons. -/
def stackIslesUp (k : Nat) (s : State) : State :=
  if !domainOn s (6 + k) then s
  else (List.range 64).foldl (fun t j =>
    let i := 64 * k + j
    if isleState t i = .off then
      (setIsleState i .held t).modIsle i (fun v => { v with filling := released t })
    else t) s

/-- A stop is demanded (R687). -/
def stopDemanded (s : State) : Bool := !s.fac.aRun || !s.fac.bRun

/-- The live fields of FAC_STOP. -/
def facMirror (s : State) : State :=
  let s := (s.setFlag R.FAC_STOP_A_RUN s.fac.aRun).setFlag R.FAC_STOP_B_RUN s.fac.bRun
  s.setFlag R.FAC_STOP_DEMAND (stopDemanded s)

/-- The island of the facility pins comes on: its commands take the values of bring-up, and the discrepancy time is that of the
image in force (R695, R710, R711). -/
def facOn (s : State) : State :=
  let s := facMirror { s with fac := { s.fac with timing := s.fac.aRun != s.fac.bRun, loopQuiet := 100 } }
  match s.image with
  | some im => s.set R.FAC_STOP_DISC_MS im.stopDiscMs
  | none => s

/-- WEAR counter `k` advances (R737). -/
def wearCount (k n : Nat) (s : State) : State :=
  { s with keel := { s.keel with wear := setNth s.keel.wear k ((nth s.keel.wear k 0 + n) % 2 ^ 64) } }

/-- SLC_SPARE of a stack's slices, and slices that wait for their fill (R335, R606). -/
def stackMemoryUp (k : Nat) (s : State) : State :=
  (List.range 64).foldl (fun t j =>
    let i := 64 * k + j
    let w := KMap.get 0 t.boot.spares i
    let put := fun (f : Field) (u : State) => u.set (f.at [i]) (bits w f.lo f.width)
    let t := put R.SLC_SPARE_MIN_ROWS_FREE (put R.SLC_SPARE_LANES_USED (put R.SLC_SPARE_ROWS_USED t))
    (put R.SLC_SPARE_MIN_BONDS_FREE (put R.SLC_SPARE_MIN_LANES_FREE t)).modSlice i (fun v => { v with filling := true })) s

/-- A domain reaches ON: its registers take their reset values (R854), its parts start, and domains waiting for it follow
(R630); `ok` says that its dies pass their self-tests. -/
def reachOn (d : Nat) (ok : Bool) (s : State) : State :=
  let s := if d < 2 then s else resetDomain d s
  let s := setDomState d .on .none_ s
  let s := if released s then testDies d ok s else s
  let s := raise 0x0501 d 0 s
  let s :=
    if 2 ≤ d && decide (d ≤ 5) then stackIslesUp (d - 2) s
    else if isDram d then
      let s := wearCount 6 1 (stackMemoryUp (d - 6) s)
      if !released s && domainOn s (d - 4) then stackIslesUp (d - 6) s else s
    else if d = 17 then facOn s
    else if d = 14 || d = 15 then
      match s.image with
      | some im => (List.range 4).foldl (fun t k =>
          t.set (R.HAR_STATUS_ROLE.at [4 * (d - 14) + k]) (nth im.roles (4 * (d - 14) + k) 0)) s
      | none => s
    else s
  (List.range 18).foldl (fun t e => if (t.dom e).waitParent && parentOf e == d then tryUp e t else t) s

/-- A domain reaches OFF (R634, R639, R640). -/
def reachOff (d : Nat) (s : State) : State :=
  let x := s.dom d
  let s := raise 0x0502 d 0 s
  if x.toFault then
    raise 0x0505 d (s.get R.PWR_FAULT_CAUSE)
      (setDomState d .fault .none_ (s.modDom d (fun v => { v with toFault := false, cleared := false })))
  else if isDram d then setDomState d .hold .none_ s
  else tryUp d (setDomState d .off .none_ s)

/-- The step after a step of the way up. -/
def SeqStep.nextUp : SeqStep → SeqStep
  | .u1 => .u2 | .u2 => .u3 | .u3 => .u4 | .u4 => .u5 | .u5 => .u6 | .u6 => .u7
  | _ => .none_

/-- The step after a step of the way down. -/
def SeqStep.nextDown : SeqStep → SeqStep
  | .d1 => .d2 | .d2 => .d3 | .d3 => .d4
  | _ => .none_

def reverse (d : Nat) (st : DomState) (step : SeqStep) (s : State) : State :=
  setDomState d st step (s.bump R.PWR_SEQ_REVERSALS)

/-- Rail steps of a domain wait for those of its descendants on the way down (R629). -/
def descendantsDown (s : State) (d : Nat) : Bool :=
  (descendants d).all (fun e => (s.dom e).state == .off || (s.dom e).state == .hold || (s.dom e).state == .fault)

/-- The order of R593 in POWER_UP: each group starts when the one before it is ON. -/
def powerUpGroups : List (List Nat) := [[17], [16], [14, 15], [2, 3, 4, 5], [6, 7, 8, 9], [10, 11, 12, 13]]

/-- The first group not yet ON has its targets set on (R593). -/
def powerUpNext (s : State) : State :=
  match powerUpGroups.find? (fun g => g.any (fun d => !domainOn s d)) with
  | none => s
  | some g => g.foldl (fun t d => if (t.dom d).target then tryUp d t else tryUp d (setTarget d true t)) s

/-- SEQUENCER_STEP_COMPLETE: the condition of the step in progress holds (R634 to R639). `v` is the cycle of the local frame; `ok` says
that the dies of a domain that comes on after the release pass their self-tests (R28). -/
def execSequencerStepComplete (m : Moment) (ok : Bool) (s : State) : Result :=
  .next (inOneCycle (fun s =>
    let x := s.dom m.unit
    match x.state, x.step with
    | .up, .u7 =>
      let s := reachOn m.unit ok s
      let s := if (s.dom m.unit).target then s else beginDown m.unit m.cycle 5 s
      if bootState s = bootPowerUp then powerUpNext s else s
    | .up, step =>
      let s := if step = .u5 then setLocks (clocksOf m.unit) true s else s
      if x.target then setDomState m.unit .up step.nextUp s else reverse m.unit .down .d1 s
    | .down, .d4 => if x.target && !isDram m.unit && !x.toFault then reverse m.unit .up .u1 s else reachOff m.unit s
    | .down, .d2 =>
      if x.target && !isDram m.unit && !x.toFault then reverse m.unit .up .u1 s
      else if descendantsDown s m.unit then setDomState m.unit .down .d3 s else s
    | .down, step =>
      if x.target && !isDram m.unit && !x.toFault then reverse m.unit .up .u1 s else setDomState m.unit .down step.nextDown s
    | _, _ => s) s)

/-- HOLD_OFF_EXPIRY: 10 ms after its D4 (R639). -/
def execHoldOffExpiry (d : Nat) (s : State) : Result :=
  .next (if (s.dom d).state = .hold then tryUp d (setDomState d .off .none_ s) else s)

/-! Faults (R640, R641). -/

/-- PWR_FAULT records a fault of a domain. -/
def noteFault (d cause : Nat) (s : State) : State :=
  ((s.set R.PWR_FAULT_DOMAIN d).set R.PWR_FAULT_CAUSE cause).bump R.PWR_FAULT_COUNT

/-- A domain is taken to FAULT, its descendants with it (R629, R640). PD0 and PD1 are not switched by a sequencer (R631). -/
def domainFault (d v : Nat) (s : State) : State :=
  if !switchable d || (s.dom d).toFault then s
  else
    let s := (descendants d).foldl (fun t e => targetOff e v 4 (diesOut e true t)) s
    let s := diesOut d true s
    match (s.dom d).state with
    | .on => beginDown d v 4 (s.modDom d (fun x => { x with toFault := true, cleared := false }))
    | .up => reverse d .down .d1 (s.modDom d (fun x => { x with toFault := true, cleared := false }))
    | .down => s.modDom d (fun x => { x with toFault := true, cleared := false })
    | _ => s

/-- POWER_GOOD_TIMEOUT: a rail step exceeds its limit (R634, R640). On the way down the rail has not discharged, and the
domain is in FAULT where it stands. -/
def execPowerGoodTimeout (d v : Nat) (s : State) : Result :=
  .next (
    let x := s.dom d
    let rail := x.step = .u2 || x.step = .u3 || x.step = .u4 || x.step = .d3 || x.step = .d4
    if !rail then s
    else if bootState s = bootPowerUp then stopBringUp 7 0 0 (noteFault d 2 s)
    else inOneCycle (fun s =>
      let s := noteFault d 2 s
      if x.state = .down then raise 0x0505 d 2 (setDomState d .fault .none_ (s.modDom d (fun y => { y with toFault := false })))
      else domainFault d v s) s)

/-- A power fault of one domain: every wet or replay frame is void with one v (R129, R641). -/
def powerFault (d cause v : Nat) (s : State) : State :=
  let s := raise 0x0504 d cause (noteFault d cause (voidAll v 4 s))
  domainFault d v s

/-- The domains a rail feeds (R828), by the index of GLB_RAIL. -/
def railFeeds (r : Nat) : List Nat :=
  if r = 2 then [0, 1, 14, 15, 16, 17, 6, 7, 8, 9]
  else if r = 3 || r = 4 then [1, 14, 15]
  else if r = 5 then [0, 17]
  else if r = 6 then [6, 7, 8, 9, 10, 11, 12, 13]
  else if r = 7 then [6, 7, 8, 9]
  else if 8 ≤ r && decide (r ≤ 11) then [r - 6]
  else []

/-- RAIL_OUT_OF_REGULATION: a rail leaves its window for 1 µs: each domain in ON that it feeds faults (R641, R830). -/
def execRailOutOfRegulation (r v : Nat) (s : State) : Result :=
  .next (inOneCycle (fun s =>
    let ds := (railFeeds r).filter (fun d => domainOn s d)
    ds.foldl (fun t d => powerFault d 1 v t) s) s)

/-- The power domain whose fault a clock domain's loss of lock is: isle octets, causeways and slices (R641). -/
def clockFault (n : Nat) : Option Nat :=
  if n < 44 then
    if n % 11 ≤ 8 then some (2 + n / 11) else if n % 11 = 9 then some (6 + n / 11) else none
  else none

/-- The die that a clock domain belongs to, by its GLB_DIE_HEALTH bit, where losing lock is no power fault (R28, R642): NBUs, harbour
dies, and the pilot die. -/
def clockDie (n : Nat) : Nat := if n < 44 then n / 11 else if n < 48 then 36 else if n < 52 then 37 else 38

/-- CLOCK_LOCK_LOSS: clock domain `n` loses lock (R641, R642). -/
def execClockLockLoss (n v : Nat) (s : State) : Result :=
  .next (
    if n ≥ 60 || !bit (s.get R.PWR_CLK_LOCK_LOCKED) n then s
    else inOneCycle (fun s =>
      let s := (setLocks [n] false s).bump R.PWR_CLK_FREQ_UNLOCKS
      let s := raise 0x050A n 0 s
      match clockFault n with
      | some d => powerFault d 3 v s
      | none => dieOut (clockDie n) true s) s)

/-- OVERPOWER: the input power, averaged over 50 µs, exceeds 1.5 × PCAP_W (R641). PWR_FAULT names no domain: which number
DOMAIN then reads is open. -/
def execOverpower (v : Nat) (s : State) : Result :=
  .next (inOneCycle (fun s =>
    let (n, s) := s.draw
    let s := voidAll v 4 s
    raise 0x0504 noUnit 4 (noteFault (Config.freeWord 1 n).toNat 4 s)) s)

/-! Adaptive voltage (R646 to R649, R834 to R836). -/

/-- A straight line between two points, rounded up to the next 5 mV. -/
def lineMv (x x0 y0 x1 y1 : Nat) : Nat := cdiv (y0 * (x1 - x0) + (y1 - y0) * (x - x0)) ((x1 - x0) * 5) * 5

/-- The nominal isle-logic voltage in mV at an isle clock in MHz (R834). -/
def nominalMv (mhz : Nat) : Nat :=
  if mhz ≤ 500 then 650
  else if mhz ≤ 1000 then lineMv mhz 500 650 1000 700
  else if mhz ≤ 1200 then lineMv mhz 1000 700 1200 750
  else lineMv mhz 1200 750 1500 800

def avsLower (s : State) : Nat := Nat.max 650 (nominalMv (s.get R.PWR_CLK_FREQ_ISLE_MHZ) - 50)
def avsUpper (s : State) : Nat := Nat.min 900 (nominalMv (s.get R.PWR_CLK_FREQ_ISLE_MHZ) + 75)

def State.getAvs (s : State) (k : Nat) : Avs := KMap.get {} s.avs k
def State.setAvs (s : State) (k : Nat) (v : Avs) : State := { s with avs := KMap.put {} s.avs k v }

/-- A setpoint written to a rail's regulator. -/
def writeVset (k mv : Nat) (s : State) : State :=
  let s := s.setAvs k ⟨s.get (R.PWR_AVS_VSET_MV.at [k]), 0, false⟩
  (s.set (R.PWR_AVS_VSET_MV.at [k]) mv).setFlag (R.PWR_AVS_AT_MIN.at [k]) (decide (mv ≤ avsLower s))

/-- Every rail at the nominal setpoint for the isle clock in force (R648, R835). -/
def nominalRails (s : State) : State :=
  (List.range 4).foldl (fun t k => writeVset k (nominalMv (t.get R.PWR_CLK_FREQ_ISLE_MHZ)) t) s

/-- AVS_ADJUST: the loop of stack `k` moves its setpoint by 5 mV, up when the margin is below its floor, down only in a service
window or while no local frames run; `exhausted` says that the margin has run out (R646, R647, R836). -/
def execAvsAdjust (k : Nat) (up exhausted : Bool) (v : Nat) (s : State) : Result :=
  .next (
    let mv := s.get (R.PWR_AVS_VSET_MV.at [k])
    if k ≥ 4 || !s.flag (R.PWR_AVS_EN.at [k]) || !domainOn s (2 + k) then s
    else if up then
      if (avsUpper s ≤ mv || (s.getAvs k).held) && exhausted then inOneCycle (powerFault (2 + k) 5 v) s
      else if avsUpper s ≤ mv then s
      else
        let s := writeVset k (Nat.min (mv + 5) (avsUpper s)) s
        if avsUpper s ≤ mv + 5 then raise 0x0509 (2 + k) 0 (s.set (R.PWR_AVS_AT_MAX.at [k]) 1) else s
    else if s.frame.running && !s.frame.window then s
    else if mv ≤ avsLower s then s
    else writeVset k (Nat.max (mv - 5) (avsLower s)) s)

/-- AVS_WRITE_TIMEOUT: the present write of stack `k` is not acknowledged; after the third failure the last acknowledged
setpoint is held (R836). -/
def execAvsWriteTimeout (k : Nat) (s : State) : Result :=
  .next (
    let a := s.getAvs k
    if k ≥ 4 then s
    else if a.tries < 2 then s.setAvs k { a with tries := a.tries + 1 }
    else
      let s := s.setAvs k { a with tries := 0, held := true }
      let s := s.set (R.PWR_AVS_VSET_MV.at [k]) a.acked
      (s.setFlag (R.PWR_AVS_AT_MIN.at [k]) (decide (a.acked ≤ avsLower s))).bump R.GLB_SUPPLY_AVS_ERR)

/-! Power capping. -/

/-- The host cap applied (R4, R650). -/
def setHostCap (w : Nat) (s : State) : State :=
  let fused := s.get R.GLB_FUSE_PCAP_W
  let host := if w = 0 then 0 else Nat.min fused (Nat.max 200 w)
  (s.set R.PWR_CAP_HOST_CAP_W host).set R.PWR_CAP_EFFECTIVE_W (if host = 0 then fused else Nat.min fused host)

/-- HOST_CAP_WRITE: PWR_CAP written (R4, R650). -/
def execHostCapWrite (w : Nat) (s : State) : Result :=
  .next (if decodes s 0 && domainOn s 0 then setHostCap (bits w 0 16) s else s)

/-- A sample of a rail: its voltage and current, and the extremes since they were last read (GLB_RAIL). -/
def sampleRail (r : Nat) (x : Nat × Nat) (s : State) : State :=
  let s := (s.set (R.GLB_RAIL_MV.at [r]) x.1).set (R.GLB_RAIL_CURRENT_DA.at [r]) x.2
  let s := s.set (R.GLB_RAIL_MIN_MV.at [r]) (Nat.min x.1 (s.get (R.GLB_RAIL_MIN_MV.at [r])))
  s.set (R.GLB_RAIL_MAX_MV.at [r]) (Nat.max x.1 (s.get (R.GLB_RAIL_MAX_MV.at [r])))

/-- POWER_SAMPLE: every 10 µs the monitors give each rail's voltage in mV and current in 0.1 A, and the input power in mW
(R651). -/
def execPowerSample (rails : List (Nat × Nat)) (mw : Nat) (s : State) : Result :=
  let s := ((List.range 13).zip rails).foldl (fun t x => sampleRail x.1 x.2 t) s
  let fg := s.frame.running && !s.frame.window
  .next { s with meter := { s.meter with
    fgSum := if fg then s.meter.fgSum + mw else s.meter.fgSum
    svcSum := if fg then s.meter.svcSum else s.meter.svcSum + mw
    samples := s.meter.samples + 1
    svcSamples := if fg then s.meter.svcSamples else s.meter.svcSamples + 1
    coolSum := s.meter.coolSum + mw
    coolSamples := s.meter.coolSamples + 1 } }

/-- Step 2 of a boundary: E_fg and P_svc of the frame that ended, and the window of frames that ran wet or as a replay
(R651, R652). -/
def meterFrame (worked : Bool) (s : State) : State :=
  let m := s.meter
  let s := s.set R.PWR_MEAS_P_FRAME_W ((m.fgSum + m.svcSum) / (Nat.max 1 m.samples * 1000))
  let s := s.set R.PWR_MEAS_P_SVC_W (m.svcSum / (Nat.max 1 m.svcSamples * 1000))
  let s := s.set R.PWR_MEAS_E_FG_UJ (Nat.min (2 ^ 32 - 1) (m.fgSum / 100))
  { s with meter := { m with
      fgSum := 0, svcSum := 0, samples := 0, svcSamples := 0
      window := if worked then (m.fgSum :: m.window).take 8 else m.window
      pSvcSum := m.svcSum
      pSvcSamples := m.svcSamples } }

/-- The window of frames emptied (R652). -/
def clearMeter (s : State) : State := { s with meter := { s.meter with window := [] } }

/-- Whether P(k) stays at or below a limit in mW (R652); F in cycles, the clock in MHz, the period in µs. -/
def capMet (e pSum pN k tR f mhz limit : Nat) : Bool :=
  let n := Nat.max 1 pN
  let svc : Int := (pSum : Int) * (Int.ofNat (k * tR * mhz) - Int.ofNat f)
  decide (Int.ofNat (e * 10 * mhz * n) + svc ≤ Int.ofNat (limit * k * tR * mhz * n))

/-- D_pwr for a cap in W (R652), and whether some k qualified. -/
def dPwrFor (s : State) (f cap dCur : Nat) : Nat × Bool :=
  let m := s.meter
  let base := Nat.max 1 (s.get R.LHT_FRAME_CFG_D_BASE)
  if m.window.isEmpty then (base, true)
  else
    let e := m.window.foldl Nat.max 0
    let ok := fun k => capMet e m.pSvcSum m.pSvcSamples k (s.get R.LHT_FRAME_CFG_PERIOD_US) f
      (s.get R.PWR_CLK_FREQ_ISLE_MHZ) (if k < dCur then cap * 950 else cap * 1000)
    match ((List.range 17).filter (fun k => decide (base ≤ k))).find? ok with
    | some k => (k, true)
    | none => (16, false)

/-- Step 4: D_pwr computed and its flags and events (R652, R653). `f` is F. The answer is the D demanded within D_MAX by the
host cap, and the D demanded without limit by the fused cap. -/
def computeDPwr (f dMax : Nat) (s : State) : (Nat × Nat) × State :=
  let base := Nat.max 1 (s.get R.LHT_FRAME_CFG_D_BASE)
  let cur := Nat.max base (s.get R.LHT_LOCAL_D_CUR)
  let fused := s.get R.GLB_FUSE_PCAP_W
  let host := s.get R.PWR_CAP_HOST_CAP_W
  let (d, met) := dPwrFor s f (s.get R.PWR_CAP_EFFECTIVE_W) cur
  let s := if met then s else raiseOnce 0x0508 noUnit 0 (s.set R.PWR_LIMIT_UNMET 1)
  let was := s.get R.PWR_LIMIT_D_PWR
  let s := if was ≤ base && decide (base < d) then raise 0x0506 noUnit 0 s else s
  let s := (s.set R.PWR_LIMIT_D_PWR d).setFlag R.PWR_LIMIT_LIMITING (decide (base < d))
  if host != 0 && decide (host < fused) then ((Nat.min d dMax, base), s)
  else if d > dMax then ((base, d), raise 0x0507 noUnit 0 (s.set R.PWR_LIMIT_FUSED_OVERRIDE 1))
  else ((base, d), s)

end Sys2Proof.Machine
end

