-- ==== Sys2Proof/Machine/Thermal.lean ====
section
/-!
DEFINITION. Sensors, thresholds and flags (R654 to R668), thermal shutdown (R669 to R673), the demand D_th (R674), the
envelope (R676), refresh modes (R291, R292) and cooling trends (R680, R682). Temperatures are integers in 1/8 °C.
-/
namespace Sys2Proof.Machine

/-! Sensors and dies (R654). -/

/-- A die or layer that carries sensors. -/
inductive Die where
  | isle (stack : Nat)
  | layer (stack layer : Nat)
  | harbour (h : Nat)
  | pilot
  deriving DecidableEq, Repr

def dieOf (n : Nat) : Die :=
  if n < 288 then .isle (n / 72)
  else if n < 416 then .layer ((n - 288) / 32) ((n - 288) % 32 / 4)
  else if n < 422 then .harbour ((n - 416) / 3)
  else .pilot

/-- The first sensor of a die and the number it has. -/
def Die.sensors : Die → List Nat
  | .isle s => (List.range 72).map (fun j => 72 * s + j)
  | .layer s l => (List.range 4).map (fun k => 288 + 32 * s + 4 * l + k)
  | .harbour h => (List.range 3).map (fun k => 416 + 3 * h + k)
  | .pilot => (List.range 6).map (fun k => 422 + k)

/-- A number for each die: isle dies 0 to 3, layers 4 to 35, harbour dies 36 and 37, the pilot die 38. -/
def Die.index : Die → Nat
  | .isle s => s
  | .layer s l => 4 + 8 * s + l
  | .harbour h => 36 + h
  | .pilot => 38

/-- The die types of R658. -/
def Die.type : Die → Nat
  | .isle _ => 0
  | .layer _ _ => 1
  | .harbour _ => 2
  | .pilot => 3

/-- A die is powered while a domain that lies on it is ON (R626). -/
def Die.powered (s : State) : Die → Bool
  | .isle k => domainOn s (2 + k) || domainOn s (6 + k) || domainOn s (10 + k)
  | .layer k _ => domainOn s (6 + k) || domainOn s (10 + k)
  | .harbour h => domainOn s (14 + h)
  | .pilot => true

def Die.isDram : Die → Bool
  | .layer _ _ => true
  | _ => false

def State.sensor (s : State) (n : Nat) : Sensor := KMap.get {} s.thermal.sensors n
def State.setSensor (s : State) (n : Nat) (v : Sensor) : State :=
  { s with thermal := { s.thermal with sensors := KMap.put {} s.thermal.sensors n v } }

def allSensors : List Nat := List.range 428

/-- A sensor whose readings count: of a powered die, converted, and not FAILED (R659). -/
def inService (s : State) (n : Nat) : Bool :=
  (s.sensor n).converted && !(s.sensor n).failed && (dieOf n).powered s

/-! Thresholds (R664 to R666). -/

/-- The calibration record of a sensor, if it has one that can be used (R657, R658). -/
def calOf (s : State) (n : Nat) : Option (Int × Nat × Int × Nat) :=
  match s.thermal.cal.find? (fun c => c.1 == n) with
  | some (_, ta, na, tb, nb) => if na = nb then none else some (ta, na, tb, nb)
  | none => none

def uncal (s : State) (n : Nat) : Bool := (calOf s n).isNone

/-- The three kinds of threshold. -/
inductive Level where
  | warn | throt | shut
  deriving DecidableEq, Repr

/-- The programmed threshold of a class, in °C. -/
def programmed (s : State) (dram : Bool) : Level → Nat
  | .warn => if dram then s.get R.THM_THRESH_DRAM_WARN_C else s.get R.THM_THRESH_LOGIC_WARN_C
  | .throt => if dram then s.get R.THM_THRESH_DRAM_THROT_C else s.get R.THM_THRESH_LOGIC_THROT_C
  | .shut => if dram then s.get R.THM_THRESH_DRAM_SHUT_C else s.get R.THM_THRESH_LOGIC_SHUT_C

/-- A hysteresis, 0 applied as 1 (R665). -/
def hysteresis (s : State) (dram : Bool) (l : Level) : Nat :=
  Nat.max 1 (match l with
    | .warn => if dram then s.get R.THM_HYST_DRAM_WARN_HYST else s.get R.THM_HYST_LOGIC_WARN_HYST
    | .throt => if dram then s.get R.THM_HYST_DRAM_THROT_HYST else s.get R.THM_HYST_LOGIC_THROT_HYST
    | .shut => if dram then s.get R.THM_HYST_DRAM_SHUT_HYST else s.get R.THM_HYST_LOGIC_SHUT_HYST)

/-- A class's threshold, lowered by DERATE_C while VALVE_SUSPECT is set (R666, R681). -/
def classThreshold (s : State) (dram : Bool) (l : Level) : Int :=
  let derate := if s.flag R.THM_COOL_STAT_VALVE_SUSPECT && l != .shut then s.get R.THM_COOL_CFG_DERATE_C else 0
  8 * ((programmed s dram l : Int) - (derate : Int))

/-- The threshold in force for a sensor, lowered by 8 °C when it is UNCAL (R658, R666). -/
def threshold (s : State) (n : Nat) (l : Level) : Int :=
  classThreshold s (dieOf n).isDram l - (if uncal s n then 64 else 0)

/-- A flag after a conversion (R665). -/
def flagAfter (s : State) (n : Nat) (l : Level) (t : Int) (old : Bool) : Bool :=
  let th := threshold s n l
  if t ≥ th then true
  else if t ≤ th - 8 * (hysteresis s (dieOf n).isDram l : Int) then false
  else old

/-- Whether every sensor of a die has FAILED (R660). -/
def dieFailed (s : State) (d : Die) : Bool := d.sensors.all (fun n => (s.sensor n).failed)

/-! Temperatures of stacks and the module. -/

def maxOf : List Int → Option Int
  | [] => none
  | x :: xs => match maxOf xs with
    | none => some x
    | some m => some (if x > m then x else m)

/-- The readings of a die: those in service, or its throttle threshold when all its sensors have FAILED, whether or not
it is powered since (R660). -/
def dieReadings (s : State) (d : Die) : List Int :=
  if dieFailed s d then [classThreshold s d.isDram .throt]
  else (d.sensors.filter (inService s)).map (fun n => (s.sensor n).reading)

/-- A stack's DRAM readings, and its DRAM temperature (R19). -/
def dramReadings (s : State) (k : Nat) : List Int := ((List.range 8).map (fun l => dieReadings s (.layer k l))).flatten
def dramTemp (s : State) (k : Nat) : Option Int := maxOf (dramReadings s k)

/-- The hottest logic reading (R680). -/
def hottestLogic (s : State) : Option Int :=
  maxOf (((List.range 4).map (fun k => dieReadings s (.isle k))).flatten ++
    dieReadings s (.harbour 0) ++ dieReadings s (.harbour 1) ++ dieReadings s .pilot)

/-- The dies of the module. -/
def allDies : List Die :=
  (List.range 4).map Die.isle ++ ((List.range 4).map (fun k => (List.range 8).map (Die.layer k))).flatten ++
    [.harbour 0, .harbour 1, .pilot]

/-- The throttle condition (R660, R668). -/
def throttleHolds (s : State) : Bool :=
  s.flag R.THM_COOL_STAT_PUMP_FAULT || allSensors.any (fun n => inService s n && (s.sensor n).throt)
    || allDies.any (dieFailed s)

def warningHolds (s : State) (dram : Bool) : Bool :=
  allSensors.any (fun n => (dieOf n).isDram == dram && inService s n && (s.sensor n).warn)

/-- What follows any change of flags or latches: a class without warnings may warn again (R667), the throttle condition starts
or ends (R668), and STATE is the worst of them. -/
def noteThermal (s : State) : State :=
  let logic := warningHolds s false
  let dram := warningHolds s true
  let throt := throttleHolds s
  let was := s.thermal.throttling
  let s := { s with thermal := { s.thermal with
    warnedLogic := s.thermal.warnedLogic && logic, warnedDram := s.thermal.warnedDram && dram, throttling := throt,
    risen := s.thermal.risen && was && throt } }
  let s := if throt && !was then raise 0x0602 noUnit 0 s else if was && !throt then raise 0x0603 noUnit 0 s else s
  s.set R.THM_STATUS_STATE
    (if s.flag R.THM_SHUTDOWN_LATCHED then 3 else if throt then 2 else if logic || dram then 1 else 0)

/-- The failure warning of a class (R667): event and checkpoint trigger, once until every warning flag of the class clears. -/
def noteWarning (n now : Nat) (s : State) : State :=
  let dram := (dieOf n).isDram
  if (if dram then s.thermal.warnedDram else s.thermal.warnedLogic) then s
  else
    let s := { s with thermal := if dram then { s.thermal with warnedDram := true } else { s.thermal with warnedLogic := true } }
    ckpTrigger 2 now (raise 0x0601 n 0 s)

/-! Conversions. -/

/-- The reading of a count (R657, R658, R661), and whether the count lies within the range of −40 °C to 150 °C. -/
def convert (s : State) (n count : Nat) : Int × Bool :=
  let m := KMap.get 0 s.thermal.supply (dieOf n).index
  let c := if m = 0 then count else (Config.supplyCorrect m count).toNat
  match calOf s n with
  | none =>
    let t := toSigned 16 (Config.nominalReading (dieOf n).type c).toNat
    (t, decide (-320 ≤ t) && decide (t ≤ 1200))
  | some (ta, na, tb, nb) =>
    let num0 := ta * ((nb : Int) - na) + ((c : Int) - na) * (tb - ta)
    let den0 := (nb : Int) - na
    let (num, den) := if den0 < 0 then (-num0, -den0) else (num0, den0)
    let q := num / den
    let t := if num % den = 0 then q else if Config.readingUp num den then q + 1 else q
    (t, decide (-320 * den ≤ num) && decide (num ≤ 1200 * den))

/-- ENV_OUT of a stack follows its DRAM temperature (R676). -/
def noteEnvelope (k : Nat) (s : State) : State :=
  match s.image, dramTemp s k with
  | some im, some t =>
    let out := bit (s.get R.THM_STATUS_ENV_OUT) k
    let top : Int := 8 * (im.envDramMax : Int)
    let put := fun (b : Bool) (u : State) => u.set R.THM_STATUS_ENV_OUT (setBits (u.get R.THM_STATUS_ENV_OUT) k 1 (b2n b))
    if t > top && !out then raise 0x0606 k 0 (put true s)
    else if out && decide (t ≤ top - 8 * (hysteresis s true .warn : Int)) then raise 0x0607 k 0 (put false s)
    else s
  | _, _ => s

/-- A DRAM sensor at 115 °C turns its stack's memory off (R671). -/
def dramLimit (n : Nat) (t : Int) (v : Nat) (s : State) : State :=
  match dieOf n with
  | .layer k _ =>
    if t ≥ 920 && domainOn s (6 + k) then
      raise 0x060C n 0 ((domainOff (6 + k) v 5 s).set R.THM_SHUTDOWN_DRAM_LIMIT 1)
    else s
  | _ => s

/-- A conversion of a sensor in service: its flags (R665), and what they bring (R667, R669, R671, R676). -/
def converted (n : Nat) (x : Sensor) (t : Int) (now v : Nat) (s : State) : State :=
  let shut := flagAfter s n .shut t x.shut
  let y : Sensor := { x with
    converted := true, reading := t, warn := flagAfter s n .warn t x.warn, throt := flagAfter s n .throt t x.throt, shut := shut }
  let s := s.setSensor n y
  let s := if y.warn && !x.warn then noteWarning n now s else s
  let s := if shut && !x.shut then { s with thermal := { s.thermal with due := s.thermal.due ++ [n] } } else s
  let s := dramLimit n t v s
  match dieOf n with
  | .layer k _ => noteEnvelope k s
  | _ => s

/-- SENSOR_CONVERSION: sensor `n` is converted from its oscillator count (R656 to R659, R665). `now` is the time in ms of the
AON reference, `v` the cycle of the local frame. -/
def execSensorConversion (n count now v : Nat) (s : State) : Result :=
  .next (
    let x := s.sensor n
    if n ≥ 428 || x.failed || !(dieOf n).powered s then s
    else inOneCycle (fun s =>
      let (t, ok) := convert s n count
      let bad := if ok then 0 else x.outOfRange + 1
      let s :=
        if bad ≥ 3 then
          let s := s.setSensor n { x with
            converted := true, reading := t, outOfRange := 3, failed := true, warn := false, throt := false, shut := false }
          let s := raise 0x060B n 0 s
          match dieOf n with
          | .layer k _ => noteEnvelope k s
          | _ => s
        else converted n { x with outOfRange := bad } t now v s
      noteThermal s) s)

/-! Shutdown. -/

/-- The domains that a shutdown flag turns off (R669). -/
def shutDomains : Die → List Nat
  | .isle _ => [10, 11, 12, 13, 2, 3, 4, 5]
  | .layer _ _ => [10, 11, 12, 13, 2, 3, 4, 5]
  | .harbour h => [14 + h]
  | .pilot => [10, 11, 12, 13, 2, 3, 4, 5, 14, 15]

/-- The stack a sensor belongs to, for GLB_BOOT. -/
def stackOfSensor (n : Nat) : Nat :=
  match dieOf n with
  | .isle k => k
  | .layer k _ => k
  | _ => 0

/-- THERMAL_SHUTDOWN: the first shutdown flag not yet acted on turns its domains off at cycle `v`; during bring-up it stops
bring-up (R596, R669). -/
def execThermalShutdown (v : Nat) (s : State) : Result :=
  .next (
    match s.thermal.due with
    | [] => s
    | n :: rest => inOneCycle (fun s =>
      let off := shutDomains (dieOf n)
      let s := { s with thermal := { s.thermal with
        due := rest, shut := s.thermal.shut ++ off.filter (fun d => !s.thermal.shut.contains d) } }
      let s := off.foldl (fun t d => domainOff d v 5 t) s
      let s := if s.flag R.THM_SHUTDOWN_LATCHED then s else (s.set R.THM_SHUTDOWN_LATCHED 1).set R.THM_SHUTDOWN_SENSOR n
      let s := wearCount 5 1 (noteThermal (raise 0x0604 n 0 s))
      if released s || bootState s = bootStopped then s
      else
        let s := (List.range 14).foldl (fun t k => domainOff (15 - k) v 5 t) s
        stopBringUp 6 (stackOfSensor n) 0 s) s)

/-- SHUTDOWN_LATCH_CLEAR: THM_SHUTDOWN written with LATCHED = 1 (R673). -/
def execShutdownLatchClear (w : Nat) (s : State) : Result :=
  .next (
    if !decodes s 0 || !domainOn s 0 then s
    else
      let s := writeRest 0 0x600020 w s
      if !s.flag R.THM_SHUTDOWN_LATCHED then s
      else if allSensors.all (fun n => !inService s n ||
          decide ((s.sensor n).reading ≤ threshold s n .shut - 8 * (hysteresis s (dieOf n).isDram .shut : Int))) then
        inOneCycle (fun s =>
          let s := { (s.set R.THM_SHUTDOWN_LATCHED 0) with thermal := { s.thermal with shut := [] } }
          noteThermal (raise 0x060D noUnit 0 s)) s
      else s.set R.THM_SHUTDOWN_CLEAR_REFUSED 1)

/-! Host settings. -/

/-- THRESHOLD_WRITE: THM_THRESH_LOGIC or THM_THRESH_DRAM written (R664). -/
def execThresholdWrite (dram : Bool) (w : Nat) (s : State) : Result :=
  .next (
    if !decodes s 0 || !domainOn s 0 || s.flag R.THM_CTRL_LOCK then s
    else
      let (fw, ft) := if dram then (R.THM_THRESH_DRAM_WARN_C, R.THM_THRESH_DRAM_THROT_C)
        else (R.THM_THRESH_LOGIC_WARN_C, R.THM_THRESH_LOGIC_THROT_C)
      let warn := Nat.min (bits w 0 8) fw.reset
      let throt := Nat.min (bits w 8 8) ft.reset
      if throt ≤ warn then s else (s.set fw warn).set ft throt)

/-- THM_LOCK: THM_CTRL written with LOCK = 1 (R858). -/
def execThmLock (s : State) : Result := .next (if decodes s 0 && domainOn s 0 then s.set R.THM_CTRL_LOCK 1 else s)

/-! Calibration and compensation. -/

/-- SENSOR_CALIBRATION: in cycle `c` of the frame the scan begins to measure a die's reference oscillator, for 128 cycles of the
service window (R49, R661). -/
def execSensorCalibration (m : Moment) (measured : Nat) (s : State) : Result :=
  .next (
    match allDies.find? (fun d => d.index == m.unit) with
    | some d =>
      if d.powered s && windowHolds s m.cycle 128 && decide (s.thermal.calFree ≤ m.cycle) then
        { s with thermal := { s.thermal with supply := KMap.put 0 s.thermal.supply m.unit measured, calFree := m.cycle + 128 } }
      else s
    | none => s)

/-- COMPENSATION_UPDATE: every 1 ms each die's references take coefficients from the mean of its sensors in service (R662). -/
def execCompensationUpdate (s : State) : Result :=
  .next (allDies.foldl (fun t d =>
    let ns := d.sensors.filter (inService t)
    if ns.isEmpty then t
    else
      let sum := ns.foldl (fun (a : Int) n => a + (t.sensor n).reading) 0
      { t with thermal := { t.thermal with comp := KMap.put (0, 0) t.thermal.comp d.index (sum, ns.length) } }) s)

/-! Refresh modes (R291, R292). -/

/-- The mode of a stack judged from its DRAM temperature. -/
def judgeMode (k : Nat) (s : State) : State :=
  let hot := s.refresh.hot.contains k
  match dramTemp s k with
  | none => s
  | some t =>
    if t > 680 && !hot then raise 0x0E01 (64 * k) 0 { s with refresh := { s.refresh with hot := k :: s.refresh.hot } }
    else if hot && decide (t ≤ 680 - 8 * (hysteresis s true .warn : Int)) then
      raise 0x0E02 (64 * k) 0 { s with refresh := { s.refresh with hot := s.refresh.hot.filter (fun j => j != k) } }
    else s

/-! The demand D_th (R674). -/

/-- D_base, at least 1 before an image gives it. -/
def dBase (s : State) : Nat := Nat.max 1 (s.get R.LHT_FRAME_CFG_D_BASE)

/-- D_th as kept: at least D_base. -/
def dTh (s : State) : Nat := Nat.max (dBase s) (s.get R.THM_STATUS_D_TH)

/-- RISE_STEP as applied. -/
def riseStep (s : State) : Nat :=
  let n := s.get R.THM_DCTRL_RISE_STEP
  if n = 0 then 1 else Nat.min 8 n

/-- D_th at step 4 of a boundary; `now` is in µs of the AON reference (R674). -/
def updateDTh (now : Nat) (s : State) : State :=
  let d := dTh s
  let since := now - s.thermal.changedAt
  let hot := s.thermal.throttling
  let next :=
    if s.flag R.THM_COOL_STAT_PUMP_FAULT then 16
    else if hot && (!s.thermal.risen || decide (s.get R.THM_DCTRL_RISE_MS * 1000 ≤ since)) then Nat.min 16 (d + riseStep s)
    else if hot then d
    else if dBase s < d && decide (Nat.max 1 (s.get R.THM_DCTRL_FALL_MS) * 1000 ≤ since) then d - 1
    else d
  let s := s.set R.THM_STATUS_D_TH next
  if next = d then s
  else { s with thermal := { s.thermal with changedAt := now, risen := s.thermal.risen || decide (d < next) } }

/-! Shadows (R663), step 2 of R23. -/

def sensorShadow (n : Nat) (s : State) : State :=
  let x := s.sensor n
  let s := s.set (R.THM_SENSOR_TEMP.at [n]) (ofSigned 16 x.reading)
  let s := (s.setFlag (R.THM_SENSOR_UNCAL.at [n]) (uncal s n)).setFlag (R.THM_SENSOR_FAILED.at [n]) x.failed
  ((s.setFlag (R.THM_SENSOR_WARN.at [n]) x.warn).setFlag (R.THM_SENSOR_THROT.at [n]) x.throt).setFlag
    (R.THM_SENSOR_SHUT.at [n]) x.shut

def minOf (xs : List Int) : Option Int := (maxOf (xs.map (fun x => -x))).map (fun x => -x)

def stackShadow (k : Nat) (s : State) : State :=
  let put := fun (f : Field) (t : Option Int) (u : State) => match t with
    | some x => u.set (f.at [k]) (ofSigned 16 x)
    | none => u
  let s := put R.THM_STACK_LOGIC_MAX (maxOf (dieReadings s (.isle k))) s
  put R.THM_STACK_DRAM_MIN (minOf (dramReadings s k)) (put R.THM_STACK_DRAM_TEMP (dramTemp s k) s)

def thermalShadows (s : State) : State :=
  (List.range 4).foldl (fun t k => stackShadow k t) (allSensors.foldl (fun t n => sensorShadow n t) s)

/-! Cooling (R680, R682). -/

/-- COOL_WIN as applied. -/
def coolWin (s : State) : Nat := Nat.max 10 (s.get R.THM_COOL_CFG_COOL_WIN)

/-- The trend over a full window of records (R680). -/
def judgeTrend (s : State) : State :=
  let n := coolWin s
  let rs := s.thermal.cool.take n
  match rs.head?, rs.getLast? with
  | some first, some last =>
    if rs.length < n then s
    else
      let ps := rs.map (fun r => r.1)
      let sum := ps.sum
      let spread := ps.foldl Nat.max 0 - ps.foldl Nat.min sum
      let rise := first.2 - last.2
      let s := s.set R.THM_COOL_STAT_RISE (ofSigned 16 rise)
      let limit := s.get R.THM_COOL_CFG_COOL_RISE
      if limit != 0 && decide (spread * n * 100 ≤ 5 * sum) && decide (s.get R.PWR_CAP_EFFECTIVE_W * 1000 * n ≤ 4 * sum)
          && decide ((limit : Int) ≤ rise) && !s.flag R.THM_COOL_STAT_COOL_TREND then
        raise 0x0608 noUnit 0 (s.set R.THM_COOL_STAT_COOL_TREND 1)
      else s
  | _, _ => s

/-- COOLING_RECORD: every 10 ms, the mean input power and the hottest logic reading are recorded (R680). -/
def execCoolingRecord (s : State) : Result :=
  .next (
    let mean := s.meter.coolSum / Nat.max 1 s.meter.coolSamples
    let s := { s with
      thermal := { s.thermal with cool := ((mean, (hottestLogic s).getD 0) :: s.thermal.cool).take 255 }
      meter := { s.meter with coolSum := 0, coolSamples := 0 } }
    inOneCycle judgeTrend s)

/-- The output that drives the pump, if there is one (R682). -/
def pumpOutput (s : State) : Option Nat :=
  let n := s.get R.THM_COOL_CFG_PUMP_OUT
  if n < 2 then some n else none

/-- PUMP_FAULT set (R682). -/
def pumpFault (s : State) : State :=
  if s.flag R.THM_COOL_STAT_PUMP_FAULT then s
  else noteThermal (raise 0x060A noUnit 0 (s.set R.THM_COOL_STAT_PUMP_FAULT 1))

/-- VALVE_SUSPECT set or cleared (R681). -/
def valveSuspect (b : Bool) (s : State) : State :=
  let s := s.setFlag R.THM_COOL_STAT_VALVE_SUSPECT b
  if b then raise 0x0609 noUnit 0 s else s

end Sys2Proof.Machine
end

