-- ==== Sys2Proof/Machine/Background.lean ====
section
/-!
DEFINITION. Background work in the slices and ports: refresh slots (R289 to R295), the scrubbers (R310, R336 to R339), fills
(R333, R335), error-rate windows (R350, R519), key slots (R325 to R329) and the flip mask (R343 to R346).
-/
namespace Sys2Proof.Machine

/-! Refresh. -/

/-- P_R of a stack in µs (R291). -/
def refreshPeriod (s : State) (k : Nat) : Nat := if s.refresh.hot.contains k then 16000 else 32000

/-- S for a frame of a length in ns in a stack (R55, R293). -/
def slotsFor (s : State) (stack ns : Nat) : Nat := cdiv (16384 * ns) (refreshPeriod s stack * 1000)

/-- One refresh slot of a slice: the pointer and the count advance (R289). -/
def refreshOnce (i : Nat) (s : State) : State :=
  s.modSlice i (fun v => { v with
    refreshPtr := (v.refreshPtr + 1) % 16384, slots := (v.slots + 1) % 2 ^ 64, slotsFrame := v.slotsFrame + 1 })

/-- σ of a frame of a length in ns in a stack: the cycles from the start of one slot to the next (R293). -/
def slotSpacing (s : State) (k ns : Nat) : Nat := (windowCycles s ns - 256) / slotsFor s k ns

/-- The 32 banks that the slot of pointer value `q` holds: the upper half of every layer where it is odd (R289). -/
def slotHigh (q : Nat) : Bool := q % 2 == 1

/-- Row group of the slot of pointer value `q` (R289). -/
def slotRowGroup (q : Nat) : Nat := q / 2

/-- The start of slot `j` of the frame in a slice, and whether it holds the upper banks; none past the last (R289, R293). -/
def slotAt (s : State) (i j : Nat) : Option (Nat × Bool) :=
  let v := s.slice i
  let k := stackOf i
  let ns := s.frame.lengthNs
  if slotsFor s k ns ≤ j then none
  else some (frameCycles s + j * slotSpacing s k ns, slotHigh (v.refreshPtr + 16384 * 64 + j - v.slotsFrame))

/-- REFRESH_SLOT: in cycle `c` of the frame the next slot of slice `i` starts, at its place in the service window (R293). A frame
performs exactly S. -/
def execRefreshSlot (m : Moment) (s : State) : Result :=
  .next (
    if !dramOn s m.unit || !windowOpen s || selfTimed s (stackOf m.unit) then s
    else match slotAt s m.unit (s.slice m.unit).slotsFrame with
      | some (t, _) => if m.cycle = t then refreshOnce m.unit s else s
      | none => s)

/-- SELF_TIMED_REFRESH_SLOT: a slot of the slice controller's own timer, the mode judged at it (R295). -/
def execSelfTimedRefreshSlot (i : Nat) (s : State) : Result :=
  .next (
    let k := stackOf i
    if !dramOn s i || !selfTimed s k then s else inOneCycle (judgeMode k) (refreshOnce i s))

/-! Scrubbing. -/

/-- One word of a scrubbed row (R338). -/
def scrubWord (i o : Nat) (s : State) : State :=
  let (c, d, s) := readRaw .scrubber i o s
  match c with
  | .clean => s
  | .poisoned => s
  | .corrected _ => storeWord .scrubber i o d false s
  | _ => raiseOnce 0x0E14 i o (storeWord .scrubber i o d true s)

/-- The slice offset of the row that pointer value `u` names in the lower or upper half of the banks (R337). -/
def scrubRow (u : Nat) (high : Bool) : Nat :=
  bits u 0 3 * 2 ^ 26 + (bits u 3 2 + 4 * b2n high) * 2 ^ 23 + bits u 5 14 * 512

/-- The number of the slot that has started by cycle `c` of the frame, last of all (R293). -/
def slotBefore (s : State) (i c : Nat) : Nat :=
  let k := stackOf i
  let sigma := slotSpacing s k s.frame.lengthNs
  Nat.min ((c - frameCycles s) / Nat.max 1 sigma) (slotsFor s k s.frame.lengthNs - 1)

/-- Whether a half of the banks is free of slots for `n` cycles from cycle `c` of the frame on: the slot in progress is on the other
half, and so is each that starts within them (R290, R339). -/
def halfFree (s : State) (i c n : Nat) (high : Bool) : Bool :=
  let j := slotBefore s i c
  (List.range (n + 2)).all (fun d =>
    match slotAt s i (j + d) with
    | some (t, h) => h != high || decide (t + 90 ≤ c) || decide (c + n ≤ t)
    | none => true)

/-- The half that a scrub step takes in cycle `c` of the frame: the one refresh is not holding, and else each in turn (R339). -/
def scrubHalf (s : State) (i c : Nat) : Bool :=
  match slotAt s i (slotBefore s i c) with
  | some (t, h) => if c < t + 90 then !h else (s.slice i).scrubHigh
  | none => (s.slice i).scrubHigh

/-- Whether a scrub step may start in cycle `c` of the frame: the one before has ended, and its 48 cycles lie before the boundary
reserve and clear of the slots on its half (R336, R339). -/
def scrubFits (s : State) (i c : Nat) : Bool :=
  windowHolds s c 48 && decide ((s.slice i).scrubFree ≤ c) && halfFree s i c 48 (scrubHalf s i c)

/-- SCRUB_STEP: a step of slice `i` in cycle `c` of the frame, or between self-timed slots (R336 to R339). -/
def execScrubStep (i c : Nat) (s : State) : Result :=
  .next (
    let v := s.slice i
    let self := selfTimed s (stackOf i)
    if !dramOn s i || v.filling || (!self && !scrubFits s i c) then s
    else
      let high := if self then v.scrubHigh else scrubHalf s i c
      let ptr := if high then R.SLC_SCRUB_PTR_H.at [i] else R.SLC_SCRUB_PTR_L.at [i]
      let u := s.get ptr
      let base := scrubRow u high
      let s := (List.range 16).foldl (fun t w => scrubWord i (base + 32 * w) t) s
      let s := if high && u + 1 == 2 ^ 19 then s.count (R.SLC_SCRUB_PASSES.at [i]) else s
      (s.count ptr).modSlice i (fun v => { v with scrubHigh := !high, scrubFree := if self then v.scrubFree else c + 48 }))

/-- Stored bits of lagoon words turn: each word by its number, and the bits of its data (0 to 63) and its check (64 to 71). -/
def upsetLagoon (i : Nat) (ups : List (Nat × Nat)) (s : State) : State :=
  ups.foldl (fun t u =>
    let a := u.1 % 2 ^ 17 * 8
    setLagoonErr i a ((KMap.get 0 t.lagoonErr (lagoonWord i a)).xor (u.2 % 2 ^ 72)) t) s

/-- One word of a lagoon as its scrubber finds it: a corrected one is rewritten and counted, an uncorrectable one is left and counted
(R226, R310). -/
def scrubLagoonWord (i : Nat) (s : State) (a : Nat) : State :=
  match lagoonOutcomeAt s i a with
  | .clean _ => s
  | .corrected _ => noteMarks i [(0, .lagCe, 1)] (settleWord i a s)
  | .bad _ => raiseOnce 0x0D04 i 0 (noteMarks i [(0, .lagUe, 1)] s)

/-- The words with bits in error of a lagoon's descriptor table and resident area (R115). -/
def residentErrors (s : State) (i : Nat) : List Nat :=
  (s.lagoonErr.filter (fun e => e.1 / 2 ^ 17 == i && decide (e.1 % 2 ^ 17 * 8 < 0x2000 + (s.isle i).residentBytes))).map
    (fun e => e.1 % 2 ^ 17 * 8)

/-- LAGOON_SCRUB: the descriptor table and the resident area of a lagoon are walked in the service window of an isle that is not OFF
(R131, R310); `upsets` are stored bits that have turned since the walk before. -/
def execLagoonScrub (i : Nat) (upsets : List (Nat × Nat)) (s : State) : Result :=
  .next (
    let s := if (s.isle i).state = .off then s else upsetLagoon i upsets s
    if !windowOpen s || (s.isle i).state = .off || (s.isle i).filling then s
    else (residentErrors s i).foldl (scrubLagoonWord i) s)

/-! Fills. -/

/-- A slice and its scrub pointers after a fill (R333, R335, R337). -/
def sliceFilled (i : Nat) (s : State) : State :=
  let s := sliceFill i (s.modSlice i (fun v => { v with filling := false, scrubHigh := false }))
  ((s.set (R.SLC_SCRUB_PTR_L.at [i]) 0).set (R.SLC_SCRUB_PTR_H.at [i]) 0).set (R.SLC_SCRUB_PASSES.at [i]) 0

/-- STACK_FILL_END: a stack whose memory came back on after release has been filled again (R335). -/
def execStackFillEnd (k : Nat) (s : State) : Result :=
  .next (
    if k ≥ 4 || !domainOn s (6 + k) || !released s then s
    else (List.range 64).foldl (fun t j =>
      if (t.slice (64 * k + j)).filling then sliceFilled (64 * k + j) t else t) s)

/-! Windows of error rates. -/

/-- CE_WINDOW_END: a corrected-error window of slice `i` ends, once its frames have passed (R350). `now` is in ms of the AON
reference. -/
def execCeWindowEnd (i now : Nat) (s : State) : Result :=
  .next (
    let n := (s.slice i).winCount
    let limit := s.get (R.SLC_CE_RATE_CE_THRESH.at [i])
    let expired := decide (2 ^ s.get (R.SLC_CE_RATE_RATE_WIN_LOG2.at [i]) ≤ (s.slice i).winFrames)
    let s := if expired then s.modSlice i (fun v => { v with winCount := 0, winFrames := 0 }) else s
    if !expired || limit = 0 || n < limit then s
    else inOneCycle (fun s => ckpTrigger 1 now (raise 0x0E10 i 0 (s.set (R.SLC_CE_RATE_CROSSED.at [i]) 1))) s)

/-- FEC_WINDOW_END: an FEC window of port `p` ends, once its rack frames have passed (R519). -/
def execFecWindowEnd (p now : Nat) (s : State) : Result :=
  .next (
    let n := (s.port p).fecWindow
    let limit := s.get (R.HAR_FEC_RATE_FEC_THRESH.at [p])
    let expired := decide (2 ^ s.get (R.HAR_FEC_RATE_WIN_LOG2.at [p]) ≤ (s.port p).fecFrames)
    let s := if expired then s.modPort p (fun v => { v with fecWindow := 0, fecFrames := 0 }) else s
    if !expired || limit = 0 || n < limit then s
    else inOneCycle (fun s =>
      let s := ckpTrigger 3 now (raise 0x0408 p 0 (s.set (R.HAR_FEC_RATE_CROSSED.at [p]) 1))
      if s.flag (R.HAR_CTRL_RETRAIN_ON_FEC.at [p]) then requestRetrain p s else s) s)

/-! Key slots. -/

/-- The 64 bytes of SLC_KEY_DATA, and the words cleared (R329). -/
def keyData (s : State) (i : Nat) : List Nat :=
  ((List.range 16).map (fun w => le 4 (s.get (R.SLC_KEY_DATA_BYTES.at [i, w])))).flatten
def clearKeyData (i : Nat) (s : State) : State :=
  (List.range 16).foldl (fun t w => t.set (R.SLC_KEY_DATA_BYTES.at [i, w]) 0) s

/-- A slot filled or emptied, and LOADED of SLC_KEY_STATE with it. -/
def setKey (i k : Nat) (key : List Nat) (s : State) : State :=
  let f := R.SLC_KEY_STATE_LOADED.at [i]
  (s.modSlice i (fun v => { v with keys := KMap.put [] v.keys k key })).set f (setBits (s.get f) k 1 (b2n (key != [])))

/-- The command of an isle's key slots applied (R326 to R329). -/
def applyKey (i : Nat) (s : State) : State :=
  match (s.slice i).keyCmd with
  | none => s
  | some (op, k) =>
    let data := keyData s i
    let s := (s.modSlice i (fun v => { v with keyCmd := none })).set (R.SLC_KEY_CMD_PENDING.at [i]) 0
    let s := clearKeyData i s
    if op = 2 then setKey i k [] s
    else if (keyOf s i k).isSome || data.take 32 == data.drop 32 then
      raise 0x0E16 i 0 (s.set (R.SLC_KEY_CMD_REFUSED.at [i]) 1)
    else setKey i k data s

/-- Every key command waiting, applied in step 3 of a boundary (R327). -/
def applyKeys (s : State) : State :=
  (s.slices.map (fun e => e.1)).foldl (fun t i => applyKey i t) s

/-- Whether an isle runs local frames: the module does, and the isle is not OFF (R131). -/
def runsFrames (s : State) (i : Nat) : Bool := s.frame.running && isleState s i != .off

/-- SLC_KEY_CMD of an isle written: the command waits for the boundary, and replaces one that waits; where the isle runs no local
frames it is applied at once (R327). -/
def keyCommand (i w op : Nat) (s : State) : State :=
  if !decodes s 0 || i ≥ 256 || !dramOn s i then s
  else
    let s := writeRest 0 (R.SLC_KEY_CMD_SLOT.at [i]).addr w s
    let s := s.modSlice i (fun v => { v with keyCmd := some (op, bits w 0 6) })
    let s := s.set (R.SLC_KEY_CMD_PENDING.at [i]) 1
    if runsFrames s i then s else applyKey i s

/-- KEY_LOAD: SLC_KEY_CMD written with OP = LOAD (R326, R328). -/
def execKeyLoad (i w : Nat) (s : State) : Result := .next (keyCommand i w 1 s)
/-- KEY_ZEROIZE: SLC_KEY_CMD written with OP = ZEROIZE (R325, R326). -/
def execKeyZeroize (i w : Nat) (s : State) : Result := .next (keyCommand i w 2 s)

/-- FLIP_ARM: SLC_FLIP_CTRL written with ARM = 1 (R344). -/
def execFlipArm (i w : Nat) (s : State) : Result :=
  .next (
    if !decodes s 0 || i ≥ 256 || !dramOn s i then s
    else (writeRest 0 (R.SLC_FLIP_CTRL_ARM.at [i]).addr w s).set (R.SLC_FLIP_CTRL_ARM.at [i]) 1)

end Sys2Proof.Machine
end

