-- ==== Sys2Proof/Machine/Facility.lean ====
section
/-!
DEFINITION. The facility interface: stop channels (R686 to R697), switched outputs (R698 to R705), the LOOP output (R706 to
R709), and what they tell the thermal controller (R681, R682).
-/
namespace Sys2Proof.Machine

/-- The physical function reaches FAC (R711). -/
def facReach (s : State) : Bool := decodes s 0 && domainOn s 17

/-! Stop channels. -/

/-- PD2 to PD15 go off for a stop demand, every wet or replay frame void with one v (R688). -/
def stopDomains (v : Nat) (s : State) : State :=
  [10, 11, 12, 13, 2, 3, 4, 5, 6, 7, 8, 9, 14, 15].foldl (fun t d => domainOff d v 3 t) (voidAll v 3 s)

/-- A stop becomes demanded (R602, R688). Before release it ends what POWER_UP began, and bring-up waits. -/
def stopDemand (v : Nat) (s : State) : State :=
  let s := { s with fac := { s.fac with demanded := true } }
  if released s then
    let s := stopDomains v s
    let s := (s.set R.FAC_STOP_STOP_LATCHED 1).set R.FAC_STOP_TIME_LT (s.get R.LHT_LT_LT)
    wearCount 4 1 (raise 0x0701 noUnit 0 (s.bump R.FAC_STOP_COUNT_DEMANDS))
  else if bootPowerUp ≤ bootState s && decide (bootState s ≤ bootFill) then
    raise 0x0007 noUnit 0 (setBoot bootWaitStop (stopDomains v s))
  else s

/-- The discrepancy timer starts and stops with the channels (R692, R693). -/
def noteDiscrepancy (s : State) : State :=
  if s.fac.aRun != s.fac.bRun then
    if domainOn s 17 then { s with fac := { s.fac with timing := true } } else s
  else if s.fac.timing then
    raise 0x0703 noUnit 0 (({ s with fac := { s.fac with timing := false } }).bump R.FAC_STOP_COUNT_TRANSIENTS)
  else s

/-- STOP_CHANNEL_CHANGE: a channel's filtered state changes (R686 to R692); channel 0 is STOPA. -/
def execStopChannelChange (b run : Bool) (v : Nat) (s : State) : Result :=
  .next (
    if (if b then s.fac.bRun else s.fac.aRun) == run then s
    else inOneCycle (fun s =>
      let was := stopDemanded s
      let s := { s with fac := if b then { s.fac with bRun := run } else { s.fac with aRun := run } }
      let s := noteDiscrepancy (facMirror s)
      if !was && stopDemanded s then stopDemand v s
      else if !stopDemanded s && s.fac.demanded then
        raise 0x0702 noUnit 0 { s with fac := { s.fac with demanded := false } }
      else s) s)

/-- DISCREPANCY_EXPIRY: the channels have disagreed for DISC_MS (R694). -/
def execDiscrepancyExpiry (s : State) : Result :=
  .next (
    if s.fac.timing then
      raise 0x0704 noUnit 0 (({ s with fac := { s.fac with timing := false } }).set R.FAC_STOP_CHANNEL_FAULT 1)
    else s)

/-- FAC_STOP written: CHANNEL_FAULT is cleared first (R696, R697). -/
def facStopWrite (w : Nat) (s : State) : State :=
  if !facReach s then s
  else
    let s := writeRest 0 0x700000 w s
    let runs := s.fac.aRun && s.fac.bRun
    let s :=
      if bit w 4 && s.flag R.FAC_STOP_CHANNEL_FAULT then
        if runs then s.set R.FAC_STOP_CHANNEL_FAULT 0 else s.set R.FAC_STOP_CLEAR_REFUSED 1
      else s
    if bit w 3 && s.flag R.FAC_STOP_STOP_LATCHED then
      if runs && !s.flag R.FAC_STOP_CHANNEL_FAULT then raise 0x0705 noUnit 0 (s.set R.FAC_STOP_STOP_LATCHED 0)
      else s.set R.FAC_STOP_CLEAR_REFUSED 1
    else s

/-- STOP_LATCH_CLEAR: FAC_STOP written with STOP_LATCHED = 1 (R696). -/
def execStopLatchClear (w : Nat) (s : State) : Result := .next (facStopWrite (withBit w 3 true) s)
/-- CHANNEL_FAULT_CLEAR: FAC_STOP written with CHANNEL_FAULT = 1 (R696). -/
def execChannelFaultClear (w : Nat) (s : State) : Result := .next (facStopWrite (withBit w 4 true) s)

/-! Switched outputs. -/

def swoOff : Nat := 0
def swoOn : Nat := 1
def swoWaitRetry : Nat := 2
def swoTripped : Nat := 3
def swoBackfeed : Nat := 4

/-- The fields of an output. -/
def swoCmd (n : Nat) : Field := if n = 0 then R.FAC_SWO1_CTRL_CMD else R.FAC_SWO2_CTRL_CMD
def swoRetry (n : Nat) : Field := if n = 0 then R.FAC_SWO1_CTRL_RETRY else R.FAC_SWO2_CTRL_RETRY
def swoStateField (n : Nat) : Field := if n = 0 then R.FAC_SWO1_CTRL_STATE else R.FAC_SWO2_CTRL_STATE
def swoOver (n : Nat) : Field := if n = 0 then R.FAC_SWO1_CTRL_OVERCURRENT else R.FAC_SWO2_CTRL_OVERCURRENT
def swoLatch (n : Nat) : Field := if n = 0 then R.FAC_SWO1_CTRL_BACKFEED else R.FAC_SWO2_CTRL_BACKFEED
def swoRefused (n : Nat) : Field := if n = 0 then R.FAC_SWO1_CTRL_CLEAR_REFUSED else R.FAC_SWO2_CTRL_CLEAR_REFUSED
def swoUsed (n : Nat) : Field := if n = 0 then R.FAC_SWO1_CTRL_RETRIES_USED else R.FAC_SWO2_CTRL_RETRIES_USED
def swoTrips (n : Nat) : Field := if n = 0 then R.FAC_SWO1_CTRL_TRIPS else R.FAC_SWO2_CTRL_TRIPS

def swoState (s : State) (n : Nat) : Nat := s.get (swoStateField n)

/-- Whether the image in force commands an output on; before the first image, bring-up's values do (R601). -/
def imageOn (s : State) (n : Nat) : Bool :=
  match s.image with
  | some im => bit (if n = 0 then im.swo1 else im.swo2) 0
  | none => n == 0

/-- What the thermal controller is told of an output that trips, latches, or is off against the image (R682). -/
def pumpNotice (n : Nat) (failed : Bool) (s : State) : State :=
  if pumpOutput s == some n && (failed || (swoState s n == swoOff && imageOn s n)) then pumpFault s else s

/-- A write of CMD (R699). -/
def swoCommand (n : Nat) (on : Bool) (s : State) : State :=
  let s := s.setFlag (swoCmd n) on
  if swoState s n = swoBackfeed then s
  else if on then
    if swoState s n = swoOn then s.set (swoUsed n) 0 else (s.set (swoStateField n) swoOn).set (swoUsed n) 0
  else pumpNotice n false (s.set (swoStateField n) swoOff)

/-- SWO_COMMAND: FAC_SWO_CTRL of output `n` written, with 0 in BACKFEED (R699). -/
def execSwoCommand (n w : Nat) (s : State) : Result :=
  .next (
    if !facReach s || n ≥ 2 then s
    else inOneCycle (swoCommand n (bit w 0)) (writeRest 0 (0x700010 + 8 * n) w s))

/-- SWO_TRIP: output `n` has stayed above 2.0 A for 10 ms (R700, R701). -/
def execSwoTrip (n : Nat) (s : State) : Result :=
  .next (
    if n ≥ 2 || !domainOn s 17 || swoState s n != swoOn then s
    else inOneCycle (fun s =>
      let s := raise 0x0706 n 0 ((s.set (swoOver n) 1).bump (swoTrips n))
      let s :=
        if s.flag (swoRetry n) && decide (s.get (swoUsed n) < 3) then s.set (swoStateField n) swoWaitRetry
        else raise 0x0708 n 0 (s.set (swoStateField n) swoTripped)
      pumpNotice n true s) s)

/-- SWO_RETRY: 1 s after its trip, an output in WAIT_RETRY returns to ON (R701). -/
def execSwoRetry (n : Nat) (s : State) : Result :=
  .next (
    if n ≥ 2 || !domainOn s 17 || swoState s n != swoWaitRetry then s
    else raise 0x0707 n 0 ((s.set (swoStateField n) swoOn).bump (swoUsed n)))

/-- SWO_RETRY_RESET: an output has stayed ON for 10 s without a trip (R702). -/
def execSwoRetryReset (n : Nat) (s : State) : Result :=
  .next (if n < 2 && domainOn s 17 && swoState s n == swoOn then s.set (swoUsed n) 0 else s)

/-- BACKFEED_LATCH: the pin of an output that is off stays above 2.0 V (R703). -/
def execBackfeedLatch (n : Nat) (s : State) : Result :=
  .next (
    if n ≥ 2 || !domainOn s 17 || swoState s n == swoOn || swoState s n == swoBackfeed then s
    else inOneCycle (fun s =>
      pumpNotice n true (raise 0x0709 n 0 ((s.set (swoStateField n) swoBackfeed).set (swoLatch n) 1))) s)

/-- BACKFEED_CLEAR: FAC_SWO_CTRL of output `n` written with BACKFEED = 1 while its pin reads `mv` (R699, R705). -/
def execBackfeedClear (n w mv : Nat) (s : State) : Result :=
  .next (
    if !facReach s || n ≥ 2 then s
    else inOneCycle (fun s =>
      let s := swoCommand n (bit w 0) (writeRest 0 (0x700010 + 8 * n) w s)
      if !s.flag (swoLatch n) then s
      else if mv > 2000 then s.set (swoRefused n) 1
      else
        let s := s.set (swoLatch n) 0
        if s.flag (swoCmd n) then (s.set (swoStateField n) swoOn).set (swoUsed n) 0
        else pumpNotice n false (s.set (swoStateField n) swoOff)) s)

/-- PUMP_FAULT_CLEAR: the pump output has been on without fault for 1 s (R682). -/
def execPumpFaultClear (s : State) : Result :=
  .next (
    match pumpOutput s with
    | some n =>
      if domainOn s 17 && swoState s n == swoOn && s.flag R.THM_COOL_STAT_PUMP_FAULT then
        inOneCycle noteThermal (s.set R.THM_COOL_STAT_PUMP_FAULT 0)
      else s
    | none => s)

/-- VAUX_LOSS: without VAUX the pump output is off while it is commanded on (R682). -/
def execVauxLoss (s : State) : Result :=
  .next (
    match pumpOutput s with
    | some n => if imageOn s n || s.flag (swoCmd n) then inOneCycle pumpFault s else s
    | none => s)

/-! LOOP. -/

/-- A commanded current as applied (R706). -/
def loopApplied (ua : Nat) : Nat := if ua = 0 then 0 else if ua < 4000 then 4000 else Nat.min ua 20000

/-- LOOP_COMMAND: FAC_LOOP_CTRL written (R706). -/
def execLoopCommand (w : Nat) (s : State) : Result :=
  .next (if facReach s then s.set R.FAC_LOOP_CTRL_CMD_UA (loopApplied (bits w 0 15)) else s)

/-- LOOP_HEADROOM_MEASURE: every 1 ms, VAUX, the pin and the current are measured, in mV and µA (R707); `swo` are the current in
mA and the pin in mV of each switched output. -/
def execLoopHeadroomMeasure (vaux pin ua : Nat) (swo : List (Nat × Nat)) (s : State) : Result :=
  .next (
    if !domainOn s 17 then s
    else
      let room := vaux - pin
      let (a, b) := (nth swo 0 (0, 0), nth swo 1 (0, 0))
      let s := (s.set R.FAC_SWO1_MEAS_CURRENT_MA a.1).set R.FAC_SWO1_MEAS_PIN_MV a.2
      let s := (s.set R.FAC_SWO2_MEAS_CURRENT_MA b.1).set R.FAC_SWO2_MEAS_PIN_MV b.2
      let s := ((s.set R.FAC_VAUX_VAUX_MV vaux).set R.FAC_LOOP_MEAS_PIN_MV pin).set R.FAC_LOOP_MEAS_CURRENT_UA ua
      let s := s.set R.FAC_LOOP_STATUS_HEADROOM_MV room
      let low := s.get R.FAC_LOOP_CTRL_CMD_UA != 0 && decide (room < 1500)
      let was := s.flag R.FAC_LOOP_STATUS_COMPLIANCE
      let s := s.setFlag R.FAC_LOOP_STATUS_COMPLIANCE low
      let quiet := Nat.min 100 (s.fac.loopQuiet + 1)
      if low && !was && quiet == 100 then
        raise 0x070A noUnit 0 { s with fac := { s.fac with loopQuiet := 0 } }
      else { s with fac := { s.fac with loopQuiet := quiet } })

/-- COMPLIANCE_LOST: COMPLIANCE has stayed as it is for 500 ms (R681, R708). -/
def execComplianceLost (s : State) : Result :=
  .next (
    let low := s.flag R.FAC_LOOP_STATUS_COMPLIANCE
    if !domainOn s 17 || s.flag R.FAC_LOOP_STATUS_COMPLIANCE_LOST == low then s
    else valveSuspect low (s.setFlag R.FAC_LOOP_STATUS_COMPLIANCE_LOST low))

/-- LOOP_OPEN: the measured current has stayed on its side of 3,600 µA for 10 ms (R709). -/
def execLoopOpen (s : State) : Result :=
  .next (
    let low := decide (s.get R.FAC_LOOP_MEAS_CURRENT_UA < 3600)
    let was := s.flag R.FAC_LOOP_STATUS_LOOP_OPEN
    if !domainOn s 17 then s
    else if low && !was && decide (4000 ≤ s.get R.FAC_LOOP_CTRL_CMD_UA) then
      raise 0x070B noUnit 0 (s.set R.FAC_LOOP_STATUS_LOOP_OPEN 1)
    else if !low && was then s.set R.FAC_LOOP_STATUS_LOOP_OPEN 0
    else s)

end Sys2Proof.Machine
end

