-- ==== Sys2Proof/Machine/Keel.lean ====
section
/-!
DEFINITION. The keel store: the journal's writer (R721 to R724), snapshots and compaction (R725 to R731), the mount (R732 to
R736), wear (R737, R738) and the host's commands (R740).
-/
namespace Sys2Proof.Machine

def State.setKeel (s : State) (k : Keel) : State := { s with keel := k }

/-- Blocks of the ring, and of 4 KiB (R714). -/
def ringBlocks : Nat := 60672
def blockBytes : Nat := 4096

/-- The record types of R719. -/
def recRepair : Nat := 1
def recCandidate : Nat := 2
def recCalib : Nat := 3
def recImage : Nat := 4
def recWear : Nat := 5
def recEvent : Nat := 6
def recHost : Nat := 7
def recRetired : Nat := 8

/-! The current snapshot and the live journal. -/

def keelSlot (s : State) : Nat := s.get R.KEL_STATUS_SLOT
def currentSnap (s : State) : KeelSnap := if keelSlot s = 0 then s.keel.snapA else s.keel.snapB
def setSnap (slot : Nat) (v : KeelSnap) (s : State) : State :=
  s.setKeel (if slot = 0 then { s.keel with snapA := v } else { s.keel with snapB := v })

def keelBlock (s : State) (b : Nat) : KeelBlock := KMap.get {} s.keel.ring b
def setBlock (b : Nat) (v : KeelBlock) (s : State) : State :=
  s.setKeel { s.keel with ring := KMap.put {} s.keel.ring b v }

/-- The next usable block after one (R738). -/
def usableFrom (retired : List Nat) : Nat → Nat → Nat
  | 0, b => b
  | n + 1, b => if retired.contains b then usableFrom retired n ((b + 1) % ringBlocks) else b
def nextBlock (s : State) (b : Nat) : Nat := usableFrom s.keel.retired ringBlocks ((b + 1) % ringBlocks)

/-- The live blocks, from RING_START to the block of the newest record, in ring order (R726, R730). -/
def liveCount (s : State) : Nat :=
  match s.keel.newest with
  | none => 0
  | some b =>
    let a := (currentSnap s).ringStart
    let span := (b + ringBlocks - a) % ringBlocks + 1
    span - (s.keel.retired.filter (fun r => decide ((r + ringBlocks - a) % ringBlocks < span))).length

def isLive (s : State) (b : Nat) : Bool :=
  match s.keel.newest with
  | none => false
  | some e =>
    let a := (currentSnap s).ringStart
    decide ((b + ringBlocks - a) % ringBlocks ≤ (e + ringBlocks - a) % ringBlocks)

/-- OCCUPANCY in percent (R726). -/
def keelOccupancy (s : State) : Nat := Nat.min 100 (liveCount s * 100 / 2048)

/-- The STATE codes of KEL_STATUS. -/
def keelUnmounted : Nat := 0
def keelMounted : Nat := 1
def keelCompacting : Nat := 2
def keelFull : Nat := 3
def keelFailed : Nat := 4
def keelState (s : State) : Nat := s.get R.KEL_STATUS_STATE

/-- Appends wait (R731). -/
def keelIsFull (s : State) : Bool := decide (2048 ≤ liveCount s) || s.keel.blocked

/-- KEL_STATUS follows the store; 0x0806 when it becomes FULL (R731, R738). -/
def noteKeel (s : State) : State :=
  if keelState s = keelUnmounted then s
  else
    let full := keelIsFull s
    let st := if s.keel.failed then keelFailed else if full then keelFull
      else if s.keel.compaction.isSome then keelCompacting else keelMounted
    let s := if st = keelFull && keelState s != keelFull then raise 0x0806 noUnit 0 s else s
    ((s.set R.KEL_STATUS_STATE st).set R.KEL_STATUS_OCCUPANCY (keelOccupancy s)).set R.KEL_COUNT_RETIRED s.keel.retired.length

/-! Bytes of records. -/

/-- A record's header, payload and CRC (R716). -/
def KeelRecord.bytes (r : KeelRecord) : List Nat :=
  let body := le 2 0x4B52 ++ [r.kind, 0] ++ le 4 r.seq ++ le 2 r.payload.length ++ [0, 0] ++ le 4 r.boot ++ r.payload
  body ++ le 4 (crc32c body)

/-! Snapshots. -/

/-- The newest record of a type, by SEQ order in a list in which later records come later. -/
def newestOf (kind : Nat) (rs : List KeelRecord) : List KeelRecord :=
  match (rs.filter (fun r => r.kind == kind)).reverse with
  | [] => []
  | r :: _ => [r]

/-- The entries of a CALIB record, as (SENSOR, bytes). -/
def calibEntries (r : KeelRecord) : List (Nat × List Nat) :=
  (List.range (r.payload.length / 16)).map (fun k => let e := (r.payload.drop (16 * k)).take 16; (leAt e 0 2, e))

/-- The records of a list with only the newest entry of each sensor kept. -/
def newestCalib (rs : List KeelRecord) : List KeelRecord :=
  let rs := (rs.filter (fun r => r.kind == recCalib)).reverse
  let step := fun (acc : List Nat × List KeelRecord) (r : KeelRecord) =>
    let es := (calibEntries r).filter (fun e => !acc.1.contains e.1)
    if es.isEmpty then acc
    else (acc.1 ++ es.map (fun e => e.1), { r with payload := (es.map (fun e => e.2)).flatten } :: acc.2)
  (rs.foldl step ([], [])).2

/-- The newest HOST record of each KEY, up to 256 keys. -/
def newestHost (rs : List KeelRecord) : List KeelRecord :=
  let rs := (rs.filter (fun r => r.kind == recHost)).reverse
  let step := fun (acc : List Nat × List KeelRecord) (r : KeelRecord) =>
    let key := leAt r.payload 0 2
    if acc.1.contains key || decide (256 ≤ acc.1.length) then acc else (acc.1 ++ [key], r :: acc.2)
  (rs.foldl step ([], [])).2

/-- The newest EVENT records, up to 16,384 entries. -/
def newestEvents (rs : List KeelRecord) : List KeelRecord :=
  let rs := (rs.filter (fun r => r.kind == recEvent)).reverse
  let step := fun (acc : Nat × List KeelRecord) (r : KeelRecord) =>
    let n := acc.1 + leAt r.payload 0 2
    if n ≤ 16384 then (n, r :: acc.2) else (16385, acc.2)
  (rs.foldl step (0, [])).2

/-- The IMAGE record kept: the newest, with the highest SEC_FLOOR (R719, R720). -/
def newestImage (rs : List KeelRecord) : List KeelRecord :=
  let is := rs.filter (fun r => r.kind == recImage)
  let floor := (is.map (fun r => leAt r.payload 32 4)).foldl Nat.max 0
  match is.reverse with
  | [] => []
  | r :: _ => [{ r with payload := r.payload.take 32 ++ le 4 floor ++ r.payload.drop 36 }]

/-- Candidates not yet bound by a repair of the same part. -/
def openCandidates (rs : List KeelRecord) : List KeelRecord :=
  let bound := (rs.filter (fun r => r.kind == recRepair)).map (fun r => r.payload.take 8)
  rs.filter (fun r => r.kind == recCandidate && !bound.contains (r.payload.take 8))

/-- What a snapshot keeps of records in SEQ order (R719, R725). -/
def snapshotBody (rs : List KeelRecord) : List KeelRecord :=
  newestOf recRetired rs ++ rs.filter (fun r => r.kind == recRepair) ++ openCandidates rs ++ newestCalib rs ++ newestImage rs ++
    newestOf recWear rs ++ newestHost rs ++ newestEvents rs

/-- The journal's records above COVERS_SEQ, in SEQ order (R733): from a block on, with the SEQ expected. The first block may
hold none of them; a later one must begin with the record expected. The answer is the records, the last block scanned and the
torn slots passed over. -/
def scanRing (s : State) : Nat → Bool → Nat → Nat → Nat → List KeelRecord → Nat → List KeelRecord × Nat × Nat
  | 0, _, _, _, last, acc, torn => (acc, last, torn)
  | n + 1, first, b, seq, last, acc, torn =>
    let blk := keelBlock s b
    let rs := blk.records.filter (fun r => laterSeq r.seq (currentSnap s).covers)
    let good := match rs.head? with
      | some r => r.seq == seq
      | none => false
    if good then scanRing s n false (nextBlock s b) ((seq + rs.length) % 2 ^ 32) b (acc ++ rs) (torn + b2n blk.torn)
    else if first then scanRing s n false (nextBlock s b) seq b acc (torn + b2n blk.torn)
    else (acc, last, torn)

/-- The journal as a mount finds it. -/
def journalOf (s : State) : List KeelRecord × Nat × Nat :=
  let c := currentSnap s
  scanRing s 2050 true c.ringStart ((c.covers + 1) % 2 ^ 32) c.ringStart [] 0

/-- Every record the store holds, the snapshot's first, in SEQ order. -/
def keelRecords (s : State) : List KeelRecord := (currentSnap s).body ++ (journalOf s).1

/-! Compaction (R727 to R730). -/

/-- A compaction starts (R728). -/
def startCompaction (s : State) : State :=
  if s.keel.compaction.isSome then s
  else
    let covers := s.get R.KEL_SEQ_DURABLE_SEQ
    let snap : KeelSnap :=
      ⟨true, ((currentSnap s).gen + 1) % 2 ^ 32, covers, s.keel.block, snapshotBody (keelRecords s)⟩
    noteKeel (raise 0x0804 noUnit 0 (s.setKeel { s.keel with compaction := some ⟨snap, 0, 0, 0⟩ }))

/-- A compaction starts when the occupancy has reached 75 % (R727). -/
def judgeOccupancy (s : State) : State := if keelOccupancy s ≥ 75 && !s.keel.failed then startCompaction s else s

/-- COMPACTION_START (R727). -/
def execCompactionStart (s : State) : Result :=
  .next (if keelState s = keelUnmounted then s else inOneCycle judgeOccupancy s)

/-- Chunks of a snapshot's body, and the blocks of its slot that the body takes. -/
def KeelSnap.bodyChunks (v : KeelSnap) : Nat := (v.body.map (fun r => r.size / 32)).sum
def KeelSnap.bodyBlocks (v : KeelSnap) : Nat := cdiv v.bodyChunks 128

/-- Whether every chunk of a compaction, header last, has been programmed. -/
def Compaction.written (c : Compaction) : Bool := decide (c.chunks ≥ c.snap.bodyChunks + 2)

/-- COMPACTION_END: the whole snapshot has been read back (R728 to R730). -/
def execCompactionEnd (ok : Bool) (s : State) : Result :=
  .next (
    match s.keel.compaction with
    | none => s
    | some c =>
      if !c.written then s
      else inOneCycle (fun s =>
        if ok then
          let slot := 1 - keelSlot s
          let s := setSnap slot c.snap s
          let above := match s.keel.newest with
            | some b => if (keelBlock s b).records.any (fun r => laterSeq r.seq c.snap.covers) then some b else none
            | none => none
          let s := s.setKeel { s.keel with
            compaction := none, newest := above, failed := decide (512 ≤ s.keel.retired.length), blocked := false }
          let s := (s.set R.KEL_STATUS_SLOT slot).set R.KEL_SNAP_GENERATION c.snap.gen
          noteKeel (raise 0x0805 noUnit 0 ((s.set R.KEL_SNAP_COVERS_SEQ c.snap.covers).count R.KEL_COUNT_COMPACTIONS))
        else if c.failures ≥ 2 then
          noteKeel (raise 0x0808 noUnit 0 (s.setKeel { s.keel with compaction := none, failed := true }))
        else s.setKeel { s.keel with compaction := some { c with chunks := 0, erased := 0, failures := c.failures + 1 } }) s)

/-! Transfers (R722 to R724, R738, R741, R783). -/

/-- The words of KEL_RD_BUF. -/
def setReadBuffer (bs : List Nat) (s : State) : State :=
  (List.range 1024).foldl (fun t k => t.set (R.KEL_RD_BUF_WORD.at [k]) (leAt bs (4 * k) 4)) s

/-- Cycles charged: those of R722, and for a read its bytes over four data lines at 133 MHz, in cycles of 1,500 MHz (R713). -/
def chargedCycles : KeelTransfer → Nat
  | .status => 180
  | .program _ => 1020
  | .erase _ => 300
  | .read n => cdiv (n * 2 * 1500) 133

/-- A ring block whose erase or program failed is retired (R738). -/
def retireBlock (b : Nat) (s : State) : State :=
  let list := KMap.insert b () ((s.keel.retired.filter (fun r => r != b)).map (fun r => (r, ()))) |>.map (fun e => e.1)
  let s := s.setKeel { s.keel with retired := list, failed := s.keel.failed || decide (512 ≤ list.length) }
  let s := keelAppend recRetired ((list.map (fun r => le 4 r)).flatten) s
  noteKeel (raise 0x0808 noUnit 0 s)

/-- The block to be erased for the journal: the one entered, or the one after it. -/
def eraseTarget (s : State) : Nat := if s.keel.fresh then nextBlock s s.keel.block else s.keel.block

/-- The writer moves to the next block. -/
def enterBlock (s : State) : State :=
  s.setKeel { s.keel with
    block := nextBlock s s.keel.block, used := 0, chunks := 0, fresh := s.keel.nextErased, nextErased := false }

/-- Whether the record at the head of the queue may be programmed now (R721, R731, R739). -/
def mayAppend (s : State) (r : KeelRecord) : Bool :=
  !keelIsFull s && (!s.keel.failed || r.kind == recRepair || r.kind == recCandidate || r.kind == recImage)

/-- A record programmed whole and read back is durable (R723). -/
def recordDurable (r : KeelRecord) (s : State) : State :=
  let k := s.keel
  let blk := keelBlock s k.block
  let s := setBlock k.block { blk with records := blk.records ++ [r] } s
  let s := { s with keelQueue := s.keelQueue.drop 1 }
  let s := s.setKeel { s.keel with used := k.used + r.size, chunks := 0, newest := some k.block }
  let s := s.set R.KEL_SEQ_DURABLE_SEQ r.seq
  let s :=
    if s.keel.hostSeq = some r.seq then
      (((s.setKeel { s.keel with hostSeq := none }).set R.KEL_CMD_BUSY 0).set R.KEL_CMD_RESULT 0).set R.KEL_ARG_SEQ r.seq
    else s
  noteKeel (judgeOccupancy s)

/-- One chunk of the journal programmed. -/
def programRing (ok : Bool) (s : State) : State :=
  match s.keelQueue.head? with
  | none => s
  | some r =>
    if !mayAppend s r then s
    else
      let s := if s.keel.chunks = 0 && decide (blockBytes < s.keel.used + r.size) then enterBlock s else s
      if !s.keel.fresh then s
      else
        let s := s.setKeel { s.keel with ready := false, working := true }
        if !ok then
          let b := s.keel.block
          let s := setBlock b { keelBlock s b with torn := true } s
          retireBlock b (enterBlock s)
        else if s.keel.chunks + 1 < r.size / 32 then s.setKeel { s.keel with chunks := s.keel.chunks + 1 }
        else recordDurable r s

/-- One chunk of the snapshot being written, in a block of the slot already erased. -/
def programSnap (ok : Bool) (s : State) : State :=
  match s.keel.compaction with
  | none => s
  | some c =>
    let need := if c.chunks < c.snap.bodyChunks then c.chunks / 128 + 1 else c.snap.bodyBlocks + 1
    if c.erased < need || c.written then s
    else
      let c := if ok then { c with chunks := c.chunks + 1 } else c
      s.setKeel { s.keel with ready := false, working := true, compaction := some c }

/-- A ring block erased for the journal, unless it is live (R724, R731). -/
def eraseRing (ok : Bool) (s : State) : State :=
  let b := eraseTarget s
  if s.keel.fresh && s.keel.nextErased then s
  else if isLive s b then noteKeel (s.setKeel { s.keel with blocked := true })
  else
    let s := wearCount 7 1 (s.setKeel { s.keel with ready := false, working := true, blocked := false })
    if !ok then
      let s := if s.keel.fresh then s else enterBlock s
      retireBlock b s
    else
      let s := setBlock b {} s
      s.setKeel (if s.keel.fresh then { s.keel with nextErased := true } else { s.keel with fresh := true, used := 0 })

/-- A block of the slot being written erased; the slot holds no valid snapshot from then on. -/
def eraseSnap (ok : Bool) (s : State) : State :=
  match s.keel.compaction with
  | none => s
  | some c =>
    if c.erased > c.snap.bodyBlocks then s
    else
      let s := setSnap (1 - keelSlot s) {} s
      s.setKeel { s.keel with ready := false, working := true, compaction := some (if ok then { c with erased := c.erased + 1 } else c) }

/-- Whether a journal append is ready to use the QSPI: firmware writes give way to it (R783). -/
def appendWaits (s : State) : Bool :=
  match s.keelQueue with
  | r :: _ => mayAppend s r
  | [] => false

/-- A chunk of the firmware slot being written, in a block of it already erased (R783, R787). -/
def programFirmware (ok : Bool) (s : State) : State :=
  match s.pil.fw with
  | none => s
  | some w =>
    if appendWaits s || w.chunks ≤ w.written || w.erased ≤ w.written / 128 then s
    else
      let s := s.setKeel { s.keel with ready := false, working := true }
      { s with pil := { s.pil with fw := some (if ok then { w with written := w.written + 1 } else w) } }

/-- A block of the firmware slot being written erased. -/
def eraseFirmware (ok : Bool) (s : State) : State :=
  match s.pil.fw with
  | none => s
  | some w =>
    if appendWaits s || w.blocks ≤ w.erased then s
    else
      let s := s.setKeel { s.keel with ready := false, working := true }
      { s with pil := { s.pil with fw := some (if ok then { w with erased := w.erased + 1 } else w) } }

/-- The next bytes of the record that a READ fetches; with the last, the command ends (R740, R741). -/
def readTransfer (n : Nat) (s : State) : State :=
  match s.keel.reading with
  | none => s
  | some (bs, got) =>
    if got + n < bs.length then s.setKeel { s.keel with reading := some (bs, got + n) }
    else (((setReadBuffer bs s).setKeel { s.keel with reading := none }).set R.KEL_CMD_BUSY 0).set R.KEL_CMD_RESULT 0

/-- Whether a transfer may start in cycle `c` of the frame: the QSPI is free of the transfer before; a write lies in the service window,
before the boundary reserve (R722), and a read ends before the window (R741). -/
def keelFits (t : KeelTransfer) (c : Nat) (s : State) : Bool :=
  !s.frame.running ||
    (decide (s.keel.busyTo ≤ c) &&
      match t with
      | .read _ => !s.frame.window && decide (c + chargedCycles t ≤ frameCycles s)
      | _ => windowHolds s c (chargedCycles t))

/-- Whether the device takes a transfer: a write once a status read has shown it ready (R723), a read unless it works and cannot
suspend that (R741). -/
def keelTakes (t : KeelTransfer) (s : State) : Bool :=
  match t with
  | .status => true
  | .read _ => s.keel.reading.isSome && (!s.keel.working || s.keel.suspends)
  | _ => s.keel.ready

/-- What a transfer does. -/
def keelTransfer (t : KeelTransfer) (ok : Bool) (s : State) : State :=
  match t with
  | .status => s.setKeel { s.keel with ready := ok, working := s.keel.working && !ok }
  | .program .ring => inOneCycle (programRing ok) s
  | .program .snapshot => inOneCycle (programSnap ok) s
  | .program .firmware => programFirmware ok s
  | .erase .ring => inOneCycle (eraseRing ok) s
  | .erase .snapshot => inOneCycle (eraseSnap ok) s
  | .erase .firmware => eraseFirmware ok s
  | .read n => readTransfer n s

/-- KEEL_WRITE_TRANSFER: a transfer starts in cycle `c` of the frame, if it fits, and succeeds or not; a status read succeeds when the
device is ready (R722, R723, R741, R783). -/
def execKeelWriteTransfer (t : KeelTransfer) (c : Nat) (ok : Bool) (s : State) : Result :=
  .next (
    if keelState s = keelUnmounted || !keelFits t c s || !keelTakes t s then s
    else keelTransfer t ok (if s.frame.running then s.setKeel { s.keel with busyTo := c + chargedCycles t } else s))

/-! Records appended by command. -/

/-- KEEL_APPEND: a record of a type of R719, but for those of the host and of events, joins the queue (R721). -/
def execKeelAppend (kind : Nat) (payload : List Nat) (s : State) : Result :=
  .next (
    if keelState s = keelUnmounted || kind = 0 || kind > 8 || kind = recHost || kind = recEvent || payload.length > 4076 then s
    else keelAppend kind payload s)

/-- The payload of a WEAR record (R737). -/
def wearPayload (s : State) : List Nat := (s.keel.wear.map (fun c => le 8 c)).flatten

/-- WEAR_RECORD: 3,600 s more powered (R719, R737). -/
def execWearRecord (s : State) : Result :=
  .next (
    if keelState s = keelUnmounted then s
    else
      let s := wearCount 1 3600 s
      keelAppend recWear (wearPayload s) s)

/-! The host's commands (R740). -/

/-- KEL_CMD written with an OP: ignored while BUSY, with OVERRUN. -/
def keelCommand (w : Nat) (act : State → State) (s : State) : State :=
  if !decodes s 0 || !domainOn s 0 then s
  else
    let s := writeRest 0 0x800018 w s
    if s.flag R.KEL_CMD_BUSY then s.set R.KEL_CMD_OVERRUN 1 else act s

/-- KEEL_READ: the record with the SEQ of KEL_ARG is to be fetched, if the store holds it (R740, R741). -/
def execKeelRead (w : Nat) (s : State) : Result :=
  .next (keelCommand w (fun s =>
    let seq := s.get R.KEL_ARG_SEQ
    match (if keelState s = keelUnmounted then none else (keelRecords s).find? (fun r => r.seq == seq)) with
    | some r => (s.setKeel { s.keel with reading := some (r.bytes, 0) }).set R.KEL_CMD_BUSY 1
    | none => s.set R.KEL_CMD_RESULT 1) s)

/-- The bytes of KEL_WR_BUF. -/
def writeBuffer (s : State) (n : Nat) : List Nat :=
  (((List.range 256).map (fun k => le 4 (s.get (R.KEL_WR_BUF_WORD.at [k])))).flatten).take n

/-- KEEL_HOST_APPEND: a HOST record, OK once it is durable. -/
def execKeelHostAppend (w : Nat) (s : State) : Result :=
  .next (keelCommand w (fun s =>
    let n := s.get R.KEL_CMD_LENGTH
    let st := keelState s
    if st = keelFull || st = keelFailed || st = keelUnmounted || n = 0 || n > 1024 then s.set R.KEL_CMD_RESULT 2
    else
      let seq := s.get R.KEL_SEQ_NEXT_SEQ
      let s := keelAppend recHost (le 2 (s.get R.KEL_CMD_KEY) ++ [0, 0] ++ writeBuffer s n) s
      (s.setKeel { s.keel with hostSeq := some seq }).set R.KEL_CMD_BUSY 1) s)

/-- KEEL_COMPACT: a compaction starts, unless one runs. -/
def execKeelCompact (w : Nat) (s : State) : Result :=
  .next (keelCommand w (fun s =>
    if keelState s = keelUnmounted then s else inOneCycle startCompaction (s.set R.KEL_CMD_RESULT 0)) s)

/-! Mount (R732 to R736) and loss of power. -/

/-- The pilots lose their memory: the queue is gone, and a program in progress leaves a torn slot (R733, R734). -/
def keelPowerLoss (s : State) : State :=
  let k := s.keel
  let s := if k.chunks = 0 then s else setBlock k.block { keelBlock s k.block with torn := true } s
  { s with
    keelQueue := []
    keel := { s.keel with
      newest := none, used := 0, fresh := false, nextErased := false, ready := false, chunks := 0, compaction := none,
      failed := false, blocked := false, hostSeq := none, working := false, busyTo := 0, reading := none } }

/-- The calibration records of a list of records (R657, R719). -/
def calibrations (rs : List KeelRecord) : List (Nat × Int × Nat × Int × Nat) :=
  ((newestCalib rs).map (fun r => (calibEntries r).map (fun e =>
    (e.1, toSigned 16 (leAt e.2 2 2), leAt e.2 6 4, toSigned 16 (leAt e.2 4 2), leAt e.2 10 4)))).flatten

/-- The security floor and the last good digest (R720). -/
def securityFloor (rs : List KeelRecord) : Nat :=
  ((rs.filter (fun r => r.kind == recImage)).map (fun r => leAt r.payload 32 4)).foldl Nat.max 0
def lastDigest (rs : List KeelRecord) : List Nat :=
  match newestOf recImage rs with
  | r :: _ => r.payload.take 32
  | [] => []

/-- The highest SEQ of the persisted entries, if there are any (R819). -/
def lastEventSeq (rs : List KeelRecord) : Option Nat :=
  match newestOf recEvent rs with
  | r :: _ => some (leAt r.payload (4 + 32 * (leAt r.payload 0 2 - 1) + 8) 4)
  | [] => none

/-- The wear counters as the newest WEAR record has them. -/
def wearOf (rs : List KeelRecord) : List Nat :=
  match newestOf recWear rs with
  | r :: _ => (List.range 8).map (fun k => leAt r.payload (8 * k) 8)
  | [] => List.replicate 8 0

/-- The journal is mounted: none where neither snapshot slot is valid (R732 to R736). -/
def keelMount (s : State) : Option State :=
  let a := s.keel.snapA
  let b := s.keel.snapB
  if !a.valid && !b.valid then none
  else
    let slot := if !b.valid then 0 else if !a.valid then 1 else if laterSeq b.gen a.gen then 1 else 0
    let s := s.set R.KEL_STATUS_SLOT slot
    let s := if a.valid && b.valid then s else raise 0x0803 noUnit 0 s
    let c := currentSnap s
    let s := s.setKeel { s.keel with retired := ((newestOf recRetired c.body).map (fun r =>
      (List.range (r.payload.length / 4)).map (fun k => leAt r.payload (4 * k) 4))).flatten }
    let (rs, last, torn) := journalOf s
    let all := c.body ++ rs
    let seq := match rs.getLast? with
      | some r => r.seq
      | none => c.covers
    let retired := match newestOf recRetired all with
      | r :: _ => (List.range (r.payload.length / 4)).map (fun k => leAt r.payload (4 * k) 4)
      | [] => []
    let s := s.setKeel { s.keel with
      retired := retired, failed := decide (512 ≤ retired.length), wear := wearOf all, block := nextBlock s last, used := 0,
      newest := if rs.isEmpty then none else some last }
    let s := { s with thermal := { s.thermal with cal := calibrations all } }
    let s := (s.set R.KEL_SEQ_NEXT_SEQ (seq + 1)).set R.KEL_SEQ_DURABLE_SEQ seq
    let s := (s.set R.KEL_SNAP_GENERATION c.gen).set R.KEL_SNAP_COVERS_SEQ c.covers
    let s := (List.range torn).foldl (fun t _ => raise 0x0802 noUnit 0 (t.bump R.KEL_COUNT_TORN)) s
    let s := s.set R.FRV_SEC_FLOOR_FLOOR (Nat.max (s.get R.FRV_SEC_FLOOR_FLOOR) (securityFloor all))
    some (judgeOccupancy (noteKeel (raise 0x0801 noUnit 0 (s.set R.KEL_STATUS_STATE keelMounted))))

end Sys2Proof.Machine
end

