-- ==== Sys2Proof/Machine/ImageFile.lean ====
section
/-!
DEFINITION. The Fervo image as bytes: its layout (R545 to R549, R554 to R568) and the loader's checks in order (R551, R553,
R572), each as the list of its breaches, in the order in which the loader meets them.
-/
namespace Sys2Proof.Machine

/-- A breach: the check's code, and SECTION, ENTRY and BYTE of FRV_IMG_DETAIL. -/
structure ImgBreach where
  code : Nat
  sec : Nat
  entry : Nat
  byte : Nat
  deriving DecidableEq, Repr

/-- One breach where a condition of refusal holds. -/
def breachIf (c : Bool) (code sec entry byte : Nat) : List ImgBreach := if c then [⟨code, sec, entry, byte⟩] else []

/-- Breaches of one entry, from pairs of a condition and a byte offset. -/
def breaches (code sec entry : Nat) (l : List (Bool × Nat)) : List ImgBreach :=
  (l.map (fun x => breachIf x.1 code sec entry x.2)).flatten

/-- Whether bytes are not all 0. -/
def nonZero (d : List Nat) (o n : Nat) : Bool := leAt d o n != 0

/-! Layout. -/

/-- A directory entry (R546). -/
structure ImgSec where
  type : Nat
  off : Nat
  len : Nat
  count : Nat
  deriving DecidableEq, Repr

/-- The bytes of an entry of a section type, and the least and largest number of entries (R547). -/
def secSize : Nat → Nat
  | 1 => 64
  | 2 => 16
  | 3 => 144
  | 4 => 48
  | 5 => 16
  | 6 => 32
  | 7 => 24
  | 8 => 16
  | _ => 32
def secRange : Nat → Nat × Nat
  | 3 => (1, 32)
  | 4 => (0, 4096)
  | 5 => (0, 2048)
  | 6 => (0, 64)
  | 7 => (0, 32768)
  | _ => (1, 1)

def imgLength (d : List Nat) : Nat := leAt d 8 4
def imgPartial (d : List Nat) : Bool := leAt d 6 1 == 1
def imgSections (d : List Nat) : List ImgSec :=
  (List.range (leAt d 0x0C 1)).map (fun e =>
    let o := 0x80 + 16 * e
    ⟨leAt d o 1, leAt d (o + 4) 4, leAt d (o + 8) 4, leAt d (o + 12) 4⟩)
def imgSection (d : List Nat) (t : Nat) : Option ImgSec := (imgSections d).find? (fun x => x.type == t)
def carries (d : List Nat) (t : Nat) : Bool := (imgSection d t).isSome

/-- The offsets of a section's entries; of the slot records, in HARBOUR. -/
def secEntries (d : List Nat) (t : Nat) : List Nat :=
  match imgSection d t with
  | some x => (List.range x.count).map (fun e => x.off + (if t = 7 then 128 else 0) + secSize t * e)
  | none => []

/-- The offset of a section. -/
def secOff (d : List Nat) (t : Nat) : Nat := ((imgSection d t).map (fun x => x.off)).getD d.length

/-- A PARTITION entry (R556). -/
def partAt (d : List Nat) (o : Nat) : PartEntry where
  arch := leAt d o 1
  isles := (List.range 256).filter (fun i => bit (leAt d (o + 4 + i / 8) 1) (i % 8))
  admission := (List.range (leAt d (o + 1) 1)).map (fun k =>
    let w := leAt d (o + 0x24 + 8 * k) 8
    (bits w 0 12, bit w 15, bits w 32 32))
  ends := (List.range (leAt d (o + 2) 1)).map (fun k =>
    let w := leAt d (o + 0x64 + 4 * k) 4
    (bits w 0 12, bits w 16 16))

/-- A ROUTES entry (R558). -/
def routeAt (d : List Nat) (o : Nat) : Route where
  index := leAt d o 2
  src := leAt d (o + 4) 2
  dst := leAt d (o + 6) 2
  segs := (List.range (leAt d (o + 2) 1)).map (fun k => leAt d (o + 8 + 2 * k) 2)

def regionAt (d : List Nat) (o : Nat) : RegionEntry := ⟨leAt d o 1, leAt d (o + 1) 1, leAt d (o + 8) 8⟩

/-- A QUAY entry (R562). -/
def quayAt (d : List Nat) (o : Nat) : QuayBind where
  quay := leAt d o 1
  toHost := bit (leAt d (o + 1) 1) 0
  func := bits (leAt d (o + 1) 1) 1 5
  arch := leAt d (o + 2) 1
  isle := leAt d (o + 3) 1
  winBase := leAt d (o + 4) 4
  winLimit := leAt d (o + 8) 4
  bolBase := leAt d (o + 0xC) 2
  bolCount := leAt d (o + 0xE) 2
  outlet := leAt d (o + 0x10) 4
  outWords := leAt d (o + 0x14) 1
  emitOffset := leAt d (o + 0x18) 4

def slotRecAt (d : List Nat) (o : Nat) : SlotRec := ⟨leAt d o 1, leAt d (o + 2) 2, leAt d (o + 8) 16⟩

/-- The image digest (R550). -/
def imgDigest (d : List Nat) : List Nat :=
  (digestBytes (sha256 ((d.take (imgLength d - 64)).map (fun b => BitVec.ofNat 8 b)))).map (fun b => b.toNat)

/-- The image that bytes hold, signed by the key slot given. -/
def imageOf (d : List Nat) (signer : Nat) : Image :=
  let f := secOff d 1
  let c := secOff d 2
  let h := secOff d 7
  let e := secOff d 8
  let a := secOff d 9
  { digest := imgDigest d, signer := signer, secVersion := leAt d 0x18 4, activateFn := leAt d 0x10 8
    partialArch := if imgPartial d then some (leAt d 7 1) else none
    baseDigest := (d.drop 0x20).take 32, moduleId := leAt d 0x0D 1
    periodUs := leAt d f 4, dBase := leAt d (f + 4) 1, master := leAt d (f + 5) 1, backup := leAt d (f + 6) 1
    wImg := leAt d (f + 8) 4, rdvPeriod := leAt d (f + 0xC) 2, transitNs := leAt d (f + 0xE) 2
    isleMhz := leAt d c 2, avsEn := leAt d (c + 2) 1 == 1, pcapW := leAt d (c + 4) 2
    parts := (secEntries d 3).map (partAt d), routes := (secEntries d 4).map (routeAt d)
    regions := (secEntries d 5).map (regionAt d), quays := (secEntries d 6).map (quayAt d)
    roles := (List.range 8).map (fun p => leAt d (h + 16 * p) 1), slots := (secEntries d 7).map (slotRecAt d)
    envDramMax := leAt d e 1, stopDiscMs := leAt d a 2, swo1 := leAt d (a + 2) 1, swo2 := leAt d (a + 3) 1
    loopUa := leAt d (a + 4) 2 }

/-- C and F of an image's own plan (R31, R35). -/
def Image.cycles (im : Image) : Nat := im.periodUs * im.isleMhz
def Image.fore (im : Image) : Nat := im.dBase * im.cycles - im.wImg

/-- The isles of an archipelago, and the archipelago of an isle, in an image. -/
def Image.islesIn (im : Image) (a : Nat) : List Nat :=
  match im.parts.find? (fun p => p.arch == a) with
  | some p => p.isles
  | none => []
def Image.archHas (im : Image) (i : Nat) : Option Nat := (im.parts.find? (fun p => p.isles.contains i)).map (fun p => p.arch)

/-! Checks 0x01 to 0x03. -/

/-- HEADER (R545). -/
def headerBreaches (d : List Nat) : List ImgBreach :=
  let l := imgLength d
  let n := leAt d 0x0C 1
  breaches 1 0 0 [
    (leAt d 0 4 != 0x56524546, 0), (leAt d 4 2 != 1, 4), (decide (1 < leAt d 6 1), 6),
    (l % 16 != 0 || decide (l < 288) || decide (2 ^ 24 < l) || decide (d.length < l), 8),
    (if imgPartial d then n == 0 || decide (5 < n) else n != 9, 0x0C)]

/-- The key slot that verifies an image (R549 to R552). -/
def imgSigner (s : State) (d : List Nat) : Option Nat :=
  let l := imgLength d
  let be := fun o => (((d.drop o).take 32)).foldl (fun a b => a * 256 + b) 0
  let e := sha256 ((d.take (l - 64)).map (fun b => BitVec.ofNat 8 b))
  if ecdsaVerify (be (l - 128)) (be (l - 96)) e (be (l - 64)) (be (l - 32)) then
    let h := (digestBytes (sha256 (((d.drop (l - 128)).take 64).map (fun b => BitVec.ofNat 8 b)))).map (fun b => b.toNat)
    (List.range 4).find? (fun k => !bit s.fuses.revoked k && nth s.fuses.keys k [] == h)
  else none

/-! FORMAT: the directory, the sections and the field ranges that no later check states. -/

/-- The header's other fields (R545, R548). -/
def headerRanges (d : List Nat) : List ImgBreach :=
  let p := imgPartial d
  breaches 4 0 0 [
    (if p then decide (31 < leAt d 7 1) else leAt d 7 1 != 0, 7), (decide (63 < leAt d 0x0D 1), 0x0D),
    (nonZero d 0x0E 2, 0x0E), (nonZero d 0x1C 4, 0x1C), (!p && nonZero d 0x20 32, 0x20), (nonZero d 0x40 64, 0x40)]

/-- The directory (R546 to R548); its entry e is reported as entry e + 1. -/
def directoryBreaches (d : List Nat) : List ImgBreach :=
  let secs := imgSections d
  let first := 0x80 + 16 * secs.length
  let last := imgLength d - 128
  ((enum secs).map (fun (e, x) =>
    let before := secs.take e
    let prev := match before.getLast? with
      | some y => y.off + y.len
      | none => first
    let (lo, hi) := secRange x.type
    let known := if imgPartial d then 3 ≤ x.type && decide (x.type ≤ 7) else 1 ≤ x.type && decide (x.type ≤ 9)
    breaches 4 0 (e + 1) [
      (!known || before.any (fun y => y.type == x.type), 0), (nonZero d (0x80 + 16 * e + 1) 3, 1),
      (x.off % 16 != 0 || decide (x.off < prev) || decide (last < x.off + x.len), 4),
      (x.len != secSize x.type * x.count + (if x.type = 7 then 128 else 0), 8),
      (decide (x.count < lo) || decide (hi < x.count) || (imgPartial d && x.type == 3 && x.count != 1), 0xC)])).flatten

def frameBreaches (d : List Nat) (e o : Nat) : List ImgBreach :=
  breaches 4 1 e [(nonZero d (o + 7) 1, 7), (nonZero d (o + 0x10) 48, 0x10)]

def clockBreaches (d : List Nat) (e o : Nat) : List ImgBreach :=
  breaches 4 2 e [(nonZero d (o + 3) 1, 3), (nonZero d (o + 6) 10, 6)]

/-- PARTITION (R556). -/
def partBreaches (d : List Nat) (e o : Nat) : List ImgBreach :=
  let na := leAt d (o + 1) 1
  let ne := leAt d (o + 2) 1
  breaches 4 3 e ([
    (decide (31 < leAt d o 1) || ((secEntries d 3).take e).any (fun q => leAt d q 1 == leAt d o 1), 0),
    (decide (8 < na), 1), (decide (8 < ne), 2), (nonZero d (o + 3) 1, 3), (!nonZero d (o + 4) 32, 4)] ++
    ((List.range na).map (fun k =>
      let q := o + 0x24 + 8 * k
      [(bits (leAt d q 2) 12 3 != 0, 0x24 + 8 * k), (nonZero d (q + 2) 2, 0x26 + 8 * k),
        (!nonZero d (q + 4) 4, 0x28 + 8 * k)])).flatten ++
    ((List.range ne).map (fun k =>
      let q := o + 0x64 + 4 * k
      [(decide (4095 < leAt d q 2), 0x64 + 4 * k), (!nonZero d (q + 2) 2, 0x66 + 4 * k)])).flatten ++
    [(nonZero d (o + 0x84) 12, 0x84)])

/-- Whether a segment code is one that R559 lays down. -/
def segmentOk (c : Nat) : Bool :=
  bits c 0 4 == 0 &&
    (bits c 14 2 == 0 || (bits c 14 2 == 1 && decide (bits c 11 3 ≤ 6) && decide (bits c 4 3 ≤ 6)))

/-- ROUTES (R558, R559). -/
def routeBreaches (d : List Nat) (e o : Nat) : List ImgBreach :=
  let n := leAt d (o + 2) 1
  let src := leAt d (o + 4) 2
  let dst := leAt d (o + 6) 2
  breaches 4 4 e ([
    (decide (4095 < leAt d o 2) || ((secEntries d 4).take e).any (fun q => leAt d q 2 == leAt d o 2), 0),
    (n == 0 || decide (16 < n), 2), (nonZero d (o + 3) 1, 3), (decide (0x101 < src), 4),
    (decide (0x101 < dst) || (decide (0x100 ≤ src) && decide (0x100 ≤ dst)), 6)] ++
    (List.range 16).map (fun k =>
      let c := leAt d (o + 8 + 2 * k) 2
      (if k < n then !segmentOk c else c != 0, 8 + 2 * k)) ++
    [(nonZero d (o + 0x28) 8, 0x28)])

/-- REGION (R561). -/
def regionBreaches (d : List Nat) (e o : Nat) : List ImgBreach :=
  breaches 4 5 e ([
    (((secEntries d 5).take e).any (fun q => leAt d q 2 == leAt d o 2), 0), (decide (7 < leAt d (o + 1) 1), 1),
    (nonZero d (o + 2) 6, 2)] ++
    [(0, 0xC0), (1, 0xC0), (4, 0x80), (5, 0x80), (6, 0xFF), (7, 0xFF)].map (fun x =>
      ((leAt d (o + 8 + x.1) 1).land x.2 != 0, 8 + x.1)))

/-- QUAY (R562). -/
def quayBreaches (d : List Nat) (e o : Nat) : List ImgBreach :=
  let b := quayAt d o
  let own := [
    (decide (63 < b.quay) || ((secEntries d 6).take e).any (fun q => leAt d q 1 == b.quay), 0),
    (decide (3 < leAt d (o + 1) 1 / 16) || decide (16 < b.func), 1)]
  breaches 4 6 e (own ++
    (if b.toHost then [
      (decide (31 < b.arch), 2), (b.winBase != 0, 4), (b.winLimit != 0, 8), (b.bolBase != 0, 0xC), (b.bolCount != 0, 0xE),
      (b.outlet % 64 != 0, 0x10), (b.outWords == 0, 0x14), (nonZero d (o + 0x15) 3, 0x15),
      (decide (2 ^ 28 ≤ b.emitOffset), 0x18)]
    else [
      (decide (31 < b.arch) && b.arch != 0xFF, 2), (b.isle != 0, 3), (decide (2 ^ 21 ≤ b.winBase), 4),
      (decide (2 ^ 21 ≤ b.winLimit) || decide (b.winLimit < b.winBase), 8), (decide (4095 < b.bolBase), 0xC),
      (b.bolCount == 0 || decide (4096 < b.bolBase + b.bolCount), 0xE), (b.outlet != 0, 0x10), (b.outWords != 0, 0x14),
      (nonZero d (o + 0x15) 3, 0x15), (b.emitOffset != 0, 0x18)]) ++
    [(nonZero d (o + 0x1C) 4, 0x1C)])

/-- HARBOUR (R565); a port header p is reported as entry p. -/
def harbourBreaches (d : List Nat) : List ImgBreach :=
  match imgSection d 7 with
  | none => []
  | some x =>
    let recs := secEntries d 7
    let heads := (List.range 8).map (fun p =>
      let o := x.off + 16 * p
      let n := (recs.filter (fun q => leAt d q 1 == p)).length
      breaches 4 7 p [
        (decide (2 < leAt d o 1), 0), (nonZero d (o + 1) 1, 1), (leAt d (o + 2) 2 != n, 2), (nonZero d (o + 4) 12, 4)])
    let rank := fun o => leAt d o 1 * 65536 + leAt d (o + 2) 2
    let body := (enum recs).map (fun (e, o) =>
      breaches 4 7 e [
        (decide (7 < leAt d o 1) || (decide (0 < e) && decide (rank o ≤ rank (nth recs (e - 1) 0))), 0),
        (nonZero d (o + 1) 1, 1), (decide (4095 < leAt d (o + 2) 2), 2), (nonZero d (o + 4) 4, 4)])
    heads.flatten ++ body.flatten

def envelopeBreaches (d : List Nat) (e o : Nat) : List ImgBreach := breaches 4 8 e [(nonZero d (o + 1) 15, 1)]

/-- FACILITY (R568). -/
def facilityBreaches (d : List Nat) (e o : Nat) : List ImgBreach :=
  let ms := leAt d o 2
  let ua := leAt d (o + 4) 2
  breaches 4 9 e [
    (decide (ms < 10) || decide (1000 < ms), 0), (decide (3 < leAt d (o + 2) 1), 2), (decide (3 < leAt d (o + 3) 1), 3),
    (ua != 0 && (decide (ua < 4000) || decide (20000 < ua)), 4), (nonZero d (o + 6) 26, 6)]

def eachEntry (d : List Nat) (t : Nat) (f : Nat → Nat → List ImgBreach) : List ImgBreach :=
  ((enum (secEntries d t)).map (fun x => f x.1 x.2)).flatten

/-- FORMAT, with R584 at its end: a change of period or clock while local frames run names its rack frame. -/
def formatBreaches (s : State) (d : List Nat) : List ImgBreach :=
  let im := imageOf d 0
  headerRanges d ++ directoryBreaches d ++ eachEntry d 1 (frameBreaches d) ++ eachEntry d 2 (clockBreaches d) ++
    eachEntry d 3 (partBreaches d) ++ eachEntry d 4 (routeBreaches d) ++ eachEntry d 5 (regionBreaches d) ++
    eachEntry d 6 (quayBreaches d) ++ harbourBreaches d ++ eachEntry d 8 (envelopeBreaches d) ++
    eachEntry d 9 (facilityBreaches d) ++
    (match s.image with
    | some old =>
      if s.frame.running && !imgPartial d && im.activateFn == 0 then
        breachIf (im.periodUs != old.periodUs) 4 1 0 0 ++ breachIf (im.isleMhz != old.isleMhz) 4 2 0 0
      else []
    | none => [])

/-! PARTIAL (R588, R589). -/

/-- Whether a route has an isle of a set as an endpoint. -/
def Route.touches (r : Route) (isles : List Nat) : Bool := isles.contains r.src || isles.contains r.dst

/-- The isles that PART_ARCH has under a partial image. -/
def partialIsles (old im : Image) (a : Nat) : List Nat := if im.parts.isEmpty then old.islesIn a else im.islesIn a

/-- R588; `d` the partial image's bytes, `im` what they hold. -/
def partialBreaches (s : State) (d : List Nat) (im : Image) : List ImgBreach :=
  match im.partialArch, s.image with
  | none, _ => []
  | some _, none => [⟨5, 0, 0, 0x20⟩]
  | some a, some old =>
    let mine := old.islesIn a
    let isles := partialIsles old im a
    breachIf (im.baseDigest != old.digest) 5 0 0 0x20 ++
    ((enum im.parts).map (fun (e, p) =>
      breaches 5 3 e [
        (p.arch != a, 0), (p.isles.any (fun i => (old.archHas i).any (fun b => b != a)), 4)])).flatten ++
    ((enum im.routes).map (fun (e, r) =>
      let ends := [r.src, r.dst].filter (fun i => decide (i < 256))
      breaches 5 4 e [
        (old.routes.any (fun x => x.index == r.index && !x.touches mine), 0),
        (ends.isEmpty || ends.any (fun i => !isles.contains i), 4)])).flatten ++
    ((enum im.regions).map (fun (e, r) => breachIf (!isles.contains r.isle) 5 5 e 0)).flatten ++
    ((enum im.quays).map (fun (e, q) =>
      breaches 5 6 e [(old.quays.any (fun x => x.quay == q.quay && x.arch != a), 0), (q.arch != a, 2)])).flatten ++
    (if carries d 7 then
      ((List.range 8).map (fun p => breachIf (nth im.roles p 0 != nth old.roles p 0) 5 7 p 0)).flatten ++
      ((enum im.slots).map (fun (e, r) =>
        breaches 5 7 e [
          (old.slots.any (fun x => x.port == r.port && x.slot == r.slot && !mine.contains (bits x.entry 16 8)), 2),
          (!isles.contains (bits r.entry 16 8), 0xA)])).flatten
    else [])

/-- The image that a partial image puts in force: its entries replace those of PART_ARCH in the sections it carries, and
everything else stays (R589). The entries it carries come first. -/
def mergedImage (old : Image) (d : List Nat) (im : Image) : Image :=
  match im.partialArch with
  | none => im
  | some a =>
    let mine := old.islesIn a
    { old with
      digest := im.digest, signer := im.signer, secVersion := im.secVersion, activateFn := im.activateFn
      partialArch := some a, baseDigest := im.baseDigest, moduleId := im.moduleId
      parts := if carries d 3 then im.parts ++ old.parts.filter (fun p => p.arch != a) else old.parts
      routes := if carries d 4 then im.routes ++ old.routes.filter (fun r => !r.touches mine) else old.routes
      regions := if carries d 5 then im.regions ++ old.regions.filter (fun r => !mine.contains r.isle) else old.regions
      quays := if carries d 6 then im.quays ++ old.quays.filter (fun q => q.arch != a) else old.quays
      slots := if carries d 7 then im.slots ++ old.slots.filter (fun r => !mine.contains (bits r.entry 16 8)) else old.slots }

/-! Checks 0x06 to 0x0F, of the image that would be in force. -/

/-- CLOCK (R3, R555). -/
def planBreaches (s : State) (im : Image) : List ImgBreach :=
  breachIf (im.isleMhz % 50 != 0 || decide (im.isleMhz < 500) || decide (s.get R.GLB_FUSE_FMAX_MHZ < im.isleMhz)) 7 2 0 0

/-- FRAME (R36, R554). -/
def frameRanges (im : Image) : List ImgBreach :=
  breaches 8 1 0 [
    (decide (im.periodUs < 20) || decide (50000 < im.periodUs), 0), (im.dBase == 0 || decide (8 < im.dBase), 4),
    (decide (63 < im.master), 5), (decide (63 < im.backup) || im.master == im.backup, 6),
    (decide (im.wImg < 256) || decide (2 ^ 28 < im.fore) || decide (im.dBase * im.cycles ≤ im.wImg), 8),
    (decide (4096 < im.rdvPeriod) || (im.rdvPeriod != 0 && im.rdvPeriod % im.dBase != 0), 0xC),
    (decide (im.transitNs < 100) || decide (5000 < im.transitNs), 0xE)]

/-- ENVELOPE (R95 to R97). -/
def envelopeRanges (im : Image) : List ImgBreach :=
  let pr := if im.envDramMax ≤ 85 then 32000 else 16000
  let slots := cdiv (16384 * im.dBase * im.periodUs) pr
  breachIf (decide (im.envDramMax < 40) || decide (95 < im.envDramMax) || decide (16000 * im.isleMhz < im.fore)
    || decide (im.wImg < 90 * slots + 1280)) 9 8 0 0

/-- PARTITION (R557); the records beyond the counts are those of the bytes loaded. -/
def partitionBreaches (d : List Nat) (im : Image) : List ImgBreach :=
  ((enum im.parts).map (fun (e, p) =>
    breachIf (p.isles.any (fun i => (im.parts.take e).any (fun q => q.isles.contains i))) 0x0A 3 e 4)).flatten ++
  ((enum (secEntries d 3)).map (fun (e, o) =>
    breaches 0x0A 3 e (((List.range 8).map (fun k =>
        (decide (leAt d (o + 1) 1 ≤ k) && nonZero d (o + 0x24 + 8 * k) 8, 0x24 + 8 * k))) ++
      (List.range 8).map (fun k =>
        (decide (leAt d (o + 2) 1 ≤ k) && nonZero d (o + 0x64 + 4 * k) 4, 0x64 + 4 * k))))).flatten

/-- Where a path stands: a die, and on an isle die a position (R559). -/
def endpoint (c : Nat) : Nat × Nat := if c < 256 then (c / 64, c % 64) else (4 + c % 2, 0)

/-- A segment followed from a place: none where it does not leave that place or leaves the mesh (R559, R560). -/
def followSeg (at_ : Nat × Nat) (c : Nat) : Option (Nat × Nat) :=
  if bits c 14 2 = 0 then
    let q := bits c 6 6
    let x := q % 8
    let y := q / 8
    if at_ != (bits c 12 2, q) then none
    else match bits c 4 2 with
      | 0 => if x = 7 then none else some (at_.1, q + 1)
      | 1 => if y = 7 then none else some (at_.1, q + 8)
      | 2 => if x = 0 then none else some (at_.1, q - 1)
      | _ => if y = 0 then none else some (at_.1, q - 8)
  else
    let place := fun die => (die, if die < 4 then 56 + bits c 7 4 / 2 else 0)
    if at_ != place (bits c 11 3) then none else some (place (bits c 4 3))

/-- The number of the first segment that breaks a path, or the number of segments when it ends elsewhere. -/
def brokenAt (dst : Nat × Nat) : Nat × Nat → Nat → List Nat → Option Nat
  | p, k, [] => if p = dst then none else some k
  | p, k, c :: cs =>
    match followSeg p c with
    | some q => brokenAt dst q (k + 1) cs
    | none => some k

/-- ROUTE (R560). -/
def pathBreaches (im : Image) : List ImgBreach :=
  ((enum im.routes).map (fun (e, r) =>
    let split := decide (r.src < 256) && decide (r.dst < 256) &&
      (im.archHas r.src != im.archHas r.dst || (im.archHas r.src).isNone)
    breachIf split 0x0B 4 e 4 ++
    (match brokenAt (endpoint r.dst) (endpoint r.src) 0 r.segs with
    | some k => [⟨0x0B, 4, e, if k < r.segs.length then 8 + 2 * k else 6⟩]
    | none => []))).flatten

/-- The fields of a region entry. -/
def RegionEntry.valid (r : RegionEntry) : Bool := bit r.value 0
def RegionEntry.layers (r : RegionEntry) : Nat := bits r.value 16 8
def RegionEntry.banks (r : RegionEntry) : Nat := bits r.value 24 8
def RegionEntry.first (r : RegionEntry) : Nat := bits r.value 32 7
def RegionEntry.last (r : RegionEntry) : Nat := bits r.value 40 7

def regionsOverlap (a b : RegionEntry) : Bool :=
  a.valid && b.valid && a.isle == b.isle && a.layers.land b.layers != 0 && a.banks.land b.banks != 0 &&
    decide (a.first ≤ b.last) && decide (b.first ≤ a.last)

/-- REGION (R312). -/
def regionRanges (im : Image) : List ImgBreach :=
  ((enum im.regions).map (fun (e, r) =>
    if !r.valid then []
    else breaches 0x0C 5 e [
      ((im.regions.take e).any (fun q => regionsOverlap q r) || (bit r.value 2 && bit r.value 1), 8),
      (r.layers == 0, 0xA), (r.banks == 0, 0xB), (decide (r.last < r.first), 0xC)])).flatten

/-- The value of the region entry that covers a slice offset, with the values of R313 where none does. -/
def imageRegion (im : Image) (i o : Nat) : Nat :=
  let unit := bits o 16 7
  match im.regions.find? (fun r => r.valid && r.isle == i && bit r.layers (bits o 26 3) && bit r.banks (bits o 23 3) &&
      decide (r.first ≤ unit) && decide (unit ≤ r.last)) with
  | some r => r.value
  | none => 0x30

/-- QUAY (R562 to R564). -/
def bindingBreaches (im : Image) : List ImgBreach :=
  ((enum im.quays).map (fun (e, b) =>
    if b.toHost then
      let top := b.outlet + 64 * b.outWords
      breaches 0x0D 6 e [
        (!(im.islesIn b.arch).contains b.isle, 3),
        (decide (2 ^ 29 < top) || !bit (imageRegion im b.isle b.outlet) 4 || !bit (imageRegion im b.isle (top - 1)) 4, 0x10),
        (decide (im.fore ≤ b.emitOffset), 0x18)]
    else
      let first := b.winBase / 8192
      breachIf (b.arch != 0xFF && ((List.range (b.winLimit / 8192 + 1 - first)).any (fun k =>
        !(im.islesIn b.arch).contains (first + k)))) 0x0D 6 e 4)).flatten

/-! HARBOUR (R492 to R497). Times in cycles are held as numerators over 100,000. -/

/-- T of R494: the cycle of a flit position. -/
def posTime (im : Image) (x : Nat) : Nat := x * 512 * im.isleMhz

/-- Whether a slot overlaps the positions kept for time transfer and control (R497). -/
def meetsTimeRegion (im : Image) (v : SlotEntry) : Bool :=
  let p := im.periodUs * 3125
  let j := v.start * 16 / Nat.max 1 p
  [j, j + 1].any (fun j =>
    let b := j * p / 16
    decide (v.start ≤ b + 96) && decide (b ≤ v.start + v.len))

/-- When a slot's data is held in its buffer. -/
def slotHeld (im : Image) (v : SlotEntry) : Nat × Nat :=
  if v.kind = 1 then ((v.cycle + v.lines + 96) * 100000, posTime im (v.start + v.len))
  else (posTime im v.start, (v.cycle + v.lines + b2n v.stat + 96) * 100000)

/-- A slot's own breaches; `before` the port's slots of the same kind recorded before it. -/
def slotBreaches (im : Image) (e : Nat) (r : SlotRec) (before : List SlotEntry) : List ImgBreach :=
  let v := slotEntryOf r.entry
  let field := fun o n => bits r.entry (8 * o) (8 * n)
  if v.kind = 0 then []
  else breaches 0x0E 7 e [
    (decide (2 < v.kind) || nth im.roles r.port 0 != 1, 8),
    (bit r.entry 15 || (v.stat && v.kind == 1) || v.peer == im.moduleId, 9), ((im.archHas v.isle).isNone, 0xA),
    (field 3 1 != 0, 0xB),
    (decide (2 ^ 24 ≤ v.start) || meetsTimeRegion im v || before.any (fun u =>
      decide (u.start < v.start + v.len) && decide (v.start < u.start + u.len)), 0xC),
    (v.lines == 0 || decide (960 < v.lines), 0x10), (field 0xA 2 != 0, 0x12),
    (field 0xC 4 != v.cycle ||
      (v.kind == 1 && decide (posTime im v.start / 100000 < v.cycle + v.lines + 128)) ||
      (v.kind == 2 && decide (v.cycle < cdiv (posTime im (v.start + v.len + 1) + im.transitNs * im.isleMhz * 100) 100000 + 32)),
      0x14)]

/-- A slot at whose first instant its port's buffer holds more than 1 MiB. -/
def bufferFull (im : Image) (v : SlotEntry) (same : List SlotEntry) : Bool :=
  let t := (slotHeld im v).1
  let held := same.filter (fun u => decide ((slotHeld im u).1 ≤ t) && decide (t < (slotHeld im u).2))
  decide (2 ^ 20 < (held.map SlotEntry.bytes).sum)

def slotTableBreaches (im : Image) : List ImgBreach :=
  let slots := im.slots.map (fun r => (r, slotEntryOf r.entry))
  let like := fun (l : List (SlotRec × SlotEntry)) (x : SlotRec × SlotEntry) =>
    (l.filter (fun y => y.1.port == x.1.port && y.2.kind == x.2.kind)).map (fun y => y.2)
  ((enum slots).map (fun (e, x) => slotBreaches im e x.1 (like (slots.take e) x))).flatten ++
  ((enum slots).map (fun (e, x) => breachIf (x.2.kind != 0 && bufferFull im x.2 (like slots x)) 0x0E 7 e 0x10)).flatten

/-- LATE. -/
def lateBreaches (s : State) (im : Image) : List ImgBreach :=
  breachIf (im.activateFn != 0 && s.lh.hasOrigin && decide (im.activateFn ≤ s.get R.LHT_FN_FN)) 0x0F 0 0 0x10

/-! The checks in order. -/

/-- What the loader finds in the bytes it fetched, none where the fetch failed: the first breach, or the image that would be in
force (R572). -/
def checkImage (s : State) (fetched : Option (List Nat)) : Except ImgBreach Image :=
  match fetched with
  | none => .error ⟨1, 0, 0, 0⟩
  | some d =>
    match headerBreaches d with
    | x :: _ => .error x
    | [] =>
      match imgSigner s d with
      | none => .error ⟨2, 0, 0, 0⟩
      | some k =>
        let im := imageOf d k
        match breachIf (decide (im.secVersion < s.get R.FRV_SEC_FLOOR_FLOOR)) 3 0 0 0x18 ++ formatBreaches s d ++
            partialBreaches s d im with
        | x :: _ => .error x
        | [] =>
          let m := match s.image with
            | some old => mergedImage old d im
            | none => im
          match breachIf (m.moduleId != moduleNumber s) 6 0 0 0x0D ++ planBreaches s m ++
              breachIf (decide (1 < leAt d (secOff d 2 + 2) 1)) 7 2 0 2 ++ frameRanges m ++ envelopeRanges m ++
              partitionBreaches d m ++ pathBreaches m ++ regionRanges m ++ bindingBreaches m ++ slotTableBreaches m ++
              lateBreaches s m with
          | x :: _ => .error x
          | [] => .ok m

end Sys2Proof.Machine
end

