-- ==== Sys2Proof/Machine/Image.lean ====
section
/-!
DEFINITION. The image loader (R569 to R574), an image taking effect (R575 to R587), and key revocation (R552).
-/
namespace Sys2Proof.Machine

/-! Archipelagos touched (R579). -/

/-- The same entries, in whatever order. -/
def sameEntries {α : Type} [DecidableEq α] (a b : List α) : Bool := a.all (fun x => b.contains x) && b.all (fun x => a.contains x)

/-- The FRAME and CLOCK sections of an image. -/
def Image.plan (im : Image) : List Nat :=
  [im.periodUs, im.dBase, im.master, im.backup, im.wImg, im.rdvPeriod, im.transitNs, im.isleMhz, b2n im.avsEn, im.pcapW]

/-- What of an image concerns an archipelago. -/
def Image.routesIn (im : Image) (isles : List Nat) : List Route := im.routes.filter (fun r => r.touches isles)
def Image.regionsIn (im : Image) (isles : List Nat) : List RegionEntry := im.regions.filter (fun r => isles.contains r.isle)
def Image.slotsIn (im : Image) (isles : List Nat) : List SlotRec := im.slots.filter (fun r => isles.contains (bits r.entry 16 8))
def Image.quaysIn (im : Image) (a : Nat) : List QuayBind := im.quays.filter (fun q => q.arch == a)

/-- Whether an image touches an archipelago; the first image touches every one. -/
def touchedBy (old : Option Image) (im : Image) (a : Nat) : Bool :=
  match old with
  | none => true
  | some o =>
    let is := im.islesIn a
    o.plan != im.plan || o.parts.find? (fun p => p.arch == a) != im.parts.find? (fun p => p.arch == a)
      || !sameEntries (o.routesIn is) (im.routesIn is) || !sameEntries (o.regionsIn is) (im.regionsIn is)
      || !sameEntries (o.slotsIn is) (im.slotsIn is) || !sameEntries (o.quaysIn a) (im.quaysIn a)

/-! Local frames stopping outside a boundary. -/

/-- Every isle in progress at cycle `v`: what is due by then is done, and the rest but for what runs to its end is cut off (R85). -/
def cutAll (v : Nat) (s : State) : State :=
  (s.isles.map (fun e => e.1)).foldl (fun t i => land i (2 ^ 28) (cutFlights i v (land i v t))) s

/-- Local frames stop at cycle `v`: nothing of the frames in progress is left (R585, R586, R615, R618). -/
def stopFrames (v : Nat) (s : State) : State :=
  let s := (archNumbers s).foldl (fun t a => t.modArch a (fun r => { r with
    frame := .none_, next := .none_, transfers := [], voidAt := none, voidDue := none, replayNext := false, ended := false, bends := [],
    inPlace := [], skip := [] })) (cutAll v s)
  { s with frame := { s.frame with running := false, rdv := false, window := false, stretched := false, closed := false } }

/-- An open CAUSE of ISL_VOID: the spec gives no code for a void at a compute reset or at a change of period or clock. -/
def openCause (s : State) : Nat × State :=
  let (n, s) := s.draw
  ((Config.freeWord 7 n).toNat % 16, s)

/-- The frame of every archipelago in a wet or replay frame is void at cycle `v`, with no replay to follow, and local frames
stop (R585, R615). -/
def haltFrames (v : Nat) (s : State) : State :=
  if !s.frame.running then s
  else
    let (cause, s) := openCause s
    stopFrames v (voidAll v cause s)

/-! What an image loads. -/

def setBytes (f : Nat → Field) (bs : List Nat) (s : State) : State :=
  (List.range 8).foldl (fun t w => t.set (f w) (leAt bs (4 * w) 4)) s

/-- The region tables filled (R311, R561), in the slices whose domain is ON. -/
def loadRegions (im : Image) (s : State) : State :=
  let isTable := fun a => decide (2 ^ 25 ≤ a) && decide (a < 3 * 2 ^ 24) && decide (0x100 ≤ a % 2 ^ 16) && decide (a % 2 ^ 16 < 0x140)
  let s := { s with regs := s.regs.filter (fun e => !isTable (e.1 / 64)) }
  im.regions.foldl (fun t r =>
    if dramOn t r.isle then
      [R.SLC_REGION_VALID, R.SLC_REGION_KIND, R.SLC_REGION_ENC, R.SLC_REGION_ECC_MODE, R.SLC_REGION_HOST_RD,
        R.SLC_REGION_HOST_WR, R.SLC_REGION_KEY_SLOT, R.SLC_REGION_LAYER_MASK, R.SLC_REGION_BANK_MASK,
        R.SLC_REGION_FIRST_64K, R.SLC_REGION_LAST_64K].foldl
        (fun u f => u.set (f.at [r.isle, r.entry]) (bits r.value f.lo f.width)) t
    else t) s

/-- Quays whose binding changes are disabled, and the binding fields loaded (R382, R414); the old image is still in force. -/
def loadQuays (im : Image) (s : State) : State :=
  let s := quaysOff (fun b => im.quays.find? (fun q => q.quay == b.quay) != some b) s
  (List.range 64).foldl (fun t q =>
    match im.quays.find? (fun b => b.quay == q) with
    | some b => ((t.set (R.QUA_STATUS_BOUND.at [q]) 1).setFlag (R.QUA_STATUS_DIR.at [q]) b.toHost).set (R.QUA_STATUS_FUNC.at [q]) b.func
    | none => ((t.set (R.QUA_STATUS_BOUND.at [q]) 0).set (R.QUA_STATUS_DIR.at [q]) 0).set (R.QUA_STATUS_FUNC.at [q]) 0) s

/-- Roles of the ports: one whose role changes enters OFF and trains in its new role while enabled (R582). -/
def loadRoles (im : Image) (s : State) : State :=
  (List.range 8).foldl (fun t p =>
    let role := nth im.roles p 0
    if !domainOn t (portDomain p) || t.get (R.HAR_STATUS_ROLE.at [p]) == role then t
    else portTrain p ((portLeave p portOff t).set (R.HAR_STATUS_ROLE.at [p]) role)) s

/-- The frame plan (R554): the registers, TICK_ORIGIN so that FN runs on through a change of period at a rack tick (R587), and
D_MIN at or above D_base (R38). -/
def loadFrame (im : Image) (first atTick : Bool) (fn : Nat) (s : State) : State :=
  let changed := s.get R.LHT_FRAME_CFG_PERIOD_US != im.periodUs
  let s := (s.set R.LHT_FRAME_CFG_PERIOD_US im.periodUs).set R.LHT_FRAME_CFG_D_BASE im.dBase
  let s := (s.set R.LHT_RDV_CFG_RDV_PERIOD im.rdvPeriod).set R.LHT_SVC_W_IMG im.wImg
  let s := s.set R.LHT_DPOLICY_D_MIN (if first then im.dBase else Nat.max im.dBase (s.get R.LHT_DPOLICY_D_MIN))
  let s := (s.set R.GLB_RACK_MASTER_ID im.master).set R.GLB_RACK_BACKUP_ID im.backup
  let s := s.setFlag R.GLB_RACK_ID_MATCH (im.moduleId == moduleNumber s)
  if !changed || !s.lh.hasOrigin then s
  else if atTick then
    setOrigin ((s.get R.LHT_LT_LT + 2 ^ 64 - fn * im.periodUs * 1000 % 2 ^ 64) % 2 ^ 64) s
  else s.set R.LHT_FN_FN (fnOf s (s.get R.LHT_LT_LT))

/-- The clock plan (R555, R586, R598, R599, R645, R648): the isle clocks lose lock while they change. -/
def loadClock (im : Image) (s : State) : State :=
  let mhz := if im.isleMhz ≤ s.get R.GLB_FUSE_FMAX_MHZ then im.isleMhz else s.get R.PWR_CLK_FREQ_ISLE_MHZ
  let changed := s.get R.PWR_CLK_FREQ_ISLE_MHZ != mhz
  let s := (s.set R.PWR_CLK_FREQ_ISLE_MHZ mhz).set R.PWR_CLK_FREQ_SLICE_MHZ (mhz * 4 / 5)
  let s := (List.range 4).foldl (fun t k => t.setFlag (R.PWR_AVS_EN.at [k]) im.avsEn) s
  let s := if changed || !im.avsEn then nominalRails s else s
  if !changed then s
  else
    let s := (List.range 4).foldl (fun t k =>
      let t := if domainOn t (2 + k) then setLocks ((List.range 9).map (fun o => 11 * k + o)) false t else t
      if domainOn t (6 + k) then setLocks [11 * k + 9] false t else t) s
    { s with frame := { s.frame with relock := true } }

/-- The FACILITY section of a full image (R568, R695, R710); `old` the image it replaces. -/
def loadFacility (old : Option Image) (im : Image) (s : State) : State :=
  let differs := match old with
    | none => true
    | some o => o.stopDiscMs != im.stopDiscMs || o.swo1 != im.swo1 || o.swo2 != im.swo2 || o.loopUa != im.loopUa
  if !domainOn s 17 then s
  else
    let s := s.set R.FAC_STOP_DISC_MS im.stopDiscMs
    if !differs then s
    else
      let s := (s.setFlag (swoRetry 0) (bit im.swo1 1)).setFlag (swoRetry 1) (bit im.swo2 1)
      swoCommand 1 (bit im.swo2 0) (swoCommand 0 (bit im.swo1 0) (s.set R.FAC_LOOP_CTRL_CMD_UA (loopApplied im.loopUa)))

/-- The lighthouse role that the new image gives (R29, R583). -/
def loadRole (im : Image) (s : State) : State :=
  let own := im.master == moduleNumber s
  let st := lhState s
  if st = lhFree then takeRole s
  else if st = lhMaster then s
  else if own && (st = lhLocked || st = lhHoldover) then promote s
  else
    let s := s.modLh (fun l => { l with masterOnLock := own, listening := l.listening && own })
    if own then s else startLt s

/-! Activation. -/

/-- Schedules that come off, and digests, of every archipelago touched (R106, R108, R318, R580). -/
def touchArchs (im : Image) (s : State) : State :=
  let touched := (List.range 32).filter (touchedBy s.image im)
  let s := touched.foldl (fun t a =>
    let t := if (partOf t a).isSome then idleIsles a (uninstall a t) else t
    let t := moveIsles ((islesOf t a).filter (fun i => (im.parts.filter (fun p => p.isles.contains i)).isEmpty)) [.faulted] .idle t
    setBytes (fun w => R.FRV_ARCH_DIGEST_BYTES.at [a, w]) im.digest t) s
  match s.sched with
  | some j => if touched.contains j.arch then { s with sched := some { j with touched := true } } else s
  | none => s

/-- The staged image takes effect as rack frame `fn` begins, or in step 3 of the boundary that begins it (R575 to R587).
`atTick` says that it does so at a rack tick, `late` that `fn` exceeds its ACTIVATE_FN. -/
def activate (fn : Nat) (atTick late : Bool) (s : State) : State :=
  match s.staged with
  | none => s
  | some im =>
    inOneCycle (fun s =>
      let old := s.image
      let full := im.partialArch.isNone
      let replan := match old with
        | some o => o.periodUs != im.periodUs || o.isleMhz != im.isleMhz
        | none => false
      let s := if replan && s.frame.running then
          haltFrames ((fn - s.get R.LHT_LOCAL_FN_FN_S) * (s.get R.LHT_FRAME_CFG_PERIOD_US * s.get R.PWR_CLK_FREQ_ISLE_MHZ)) s
        else s
      let s := loadQuays im (touchArchs im s)
      let s := { s with image := some im, staged := none }
      let s := loadRoles im (loadRegions im s)
      let s := loadClock im (loadFrame im old.isNone atTick fn s)
      let s := if full then loadFacility old im (setHostCap im.pcapW s) else s
      let s := setBytes (fun w => R.FRV_DIGEST_BYTES.at [w]) im.digest (s.set R.FRV_KEYS_SIGNER im.signer)
      let s := if full then
          s.set R.FRV_SEC_FLOOR_FLOOR (Nat.max im.secVersion (s.get R.FRV_SEC_FLOOR_FLOOR))
        else s
      let s := (s.set R.FRV_IMG_STATUS_STATE 0).set R.FRV_IMG_STATUS_LOADED 1
      let s := s.set R.FRV_IMG_ACTIVE_FN_FN fn
      let s := keelAppend recImage (im.digest ++ le 4 (s.get R.FRV_SEC_FLOOR_FLOOR) ++ le 8 fn) s
      let s := loadRole im (raise 0x0B03 noUnit 0 s)
      if late then raise 0x0B04 noUnit 0 (s.set R.FRV_IMG_STATUS_LATE_ACT 1) else s) s

/-- Whether the staged image changes PERIOD_US or ISLE_MHZ, and so waits for its own rack tick (R585). -/
def stagedReplans (s : State) : Bool :=
  match s.staged, s.image with
  | some im, some o => o.periodUs != im.periodUs || o.isleMhz != im.isleMhz
  | _, _ => false

/-- Step 3 of a boundary that begins `fn`: the staged image takes effect (R575, R576). -/
def activateAtBoundary (fn : Nat) (s : State) : State :=
  match s.staged with
  | some im =>
    if stagedReplans s || decide (fn < im.activateFn) then s
    else activate fn false (im.activateFn != 0 && decide (im.activateFn < fn)) s
  | none => s

/-- The rack tick that begins `fn`: an image that changes the plan takes effect at its ACTIVATE_FN (R585), and any image while
no local frames run and the lighthouse state allows (R577). -/
def activateAtTick (fn : Nat) (s : State) : State :=
  match s.staged with
  | some im =>
    if fn < im.activateFn || (s.frame.running && !stagedReplans s) then s else activate fn true false s
  | none => s

/-- An image that needs no tick takes effect as soon as it is staged (R577). -/
def activateNow (s : State) : State :=
  if s.frame.running || meetsRendezvous s then s else activate (s.get R.LHT_FN_FN) false false s

/-! Commands. -/

/-- Whether the physical function reaches the loader's registers. -/
def frvReach (s : State) : Bool := decodes s 0 && domainOn s 0

/-- CANCEL, of a staged image (R571). -/
def cancelImage (s : State) : State :=
  if s.get R.FRV_IMG_STATUS_STATE = 2 then
    raise 0x0B05 noUnit 0 (({ s with staged := none }.set R.FRV_IMG_STATUS_STATE 0).set R.FRV_IMG_STATUS_RESULT 3)
  else s

/-- START (R569, R570): the fetch begins with the header. -/
def startImage (s : State) : State :=
  if s.get R.FRV_IMG_STATUS_STATE != 0 then s.set R.FRV_IMG_STATUS_OVERRUN 1
  else
    let s := ((s.set R.FRV_IMG_STATUS_STATE 1).set R.FRV_IMG_STATUS_RESULT 0).set R.FRV_IMG_STATUS_REFUSAL 0
    let s := ((s.set R.FRV_IMG_DETAIL_SECTION 0).set R.FRV_IMG_DETAIL_ENTRY 0).set R.FRV_IMG_DETAIL_BYTE 0
    let s := { s with imageAddr := s.get R.FRV_IMG_ADDR_ADDR * 2 ^ 12 }
    s.emit (.hostRead 0 s.imageAddr 128)

/-- The rest of an image is read from host memory, once its header is found in order (R569). -/
def fetchImage (fetched : Option (List Nat)) (s : State) : State :=
  match fetched with
  | some d => if (headerBreaches d).isEmpty then s.emit (.hostRead 0 (s.imageAddr + 128) (imgLength d - 128)) else s
  | none => s

/-- FRV_IMG_CMD written: START judged before CANCEL. -/
def imageCommand (w : Nat) (s : State) : State :=
  if !frvReach s then s
  else
    let s := if bit w 0 then startImage s else s
    if bit w 1 then cancelImage s else s

/-- IMAGE_LOAD_START: FRV_IMG_CMD written with START (R569, R570). -/
def execImageLoadStart (w : Nat) (s : State) : Result := .next (imageCommand (setBits w 0 1 1) s)
/-- IMAGE_CANCEL: FRV_IMG_CMD written with CANCEL (R571). -/
def execImageCancel (w : Nat) (s : State) : Result := .next (imageCommand (setBits w 1 1 1) s)

/-- IMAGE_CHECK_END: the checks end on the bytes fetched; none says that the fetch failed (R572 to R574, R577). -/
def execImageCheckEnd (fetched : Option (List Nat)) (s : State) : Result :=
  .next (
    if s.get R.FRV_IMG_STATUS_STATE != 1 then s
    else
      let s := fetchImage fetched s
      match checkImage s fetched with
      | .error x =>
        let s := ((s.set R.FRV_IMG_STATUS_STATE 0).set R.FRV_IMG_STATUS_RESULT 2).set R.FRV_IMG_STATUS_REFUSAL x.code
        let s := ((s.set R.FRV_IMG_DETAIL_SECTION x.sec).set R.FRV_IMG_DETAIL_ENTRY x.entry).set R.FRV_IMG_DETAIL_BYTE x.byte
        raise 0x0B02 noUnit x.code s
      | .ok im =>
        inOneCycle (fun s =>
          let s := ({ s with staged := some im }.set R.FRV_IMG_STATUS_STATE 2).set R.FRV_IMG_STATUS_RESULT 1
          activateNow (raise 0x0B01 noUnit 0 (s.set R.FRV_IMG_ACT_ACTIVATE_FN im.activateFn))) s)

/-- One key slot revoked: not the signer of the image in force, and not the last that is enrolled and not revoked. -/
def revokeSlot (k : Nat) (s : State) : State :=
  let live := (List.range 4).filter (fun j => !bit s.fuses.revoked j && decide (nth s.fuses.keys j [] ≠ []))
  let signs := match s.image with
    | some im => im.signer == k
    | none => false
  if bit s.fuses.revoked k || signs || live == [k] then s
  else
    let m := s.fuses.revoked.lor (2 ^ k)
    let s := { s with fuses := { s.fuses with revoked := m } }
    raise 0x0B06 noUnit 0 ((s.set R.FRV_KEYS_REVOKED m).set R.FRV_KEY_REVOKE_REVOKE m)

/-- KEY_REVOKE: FRV_KEY_REVOKE written (R552). -/
def execKeyRevoke (w : Nat) (s : State) : Result :=
  .next (
    if frvReach s then inOneCycle (fun s => (List.range 4).foldl (fun t k => if bit w k then revokeSlot k t else t) s) s
    else s)

end Sys2Proof.Machine
end

