-- ==== Sys2Proof/Machine/Schedule.lean ====
section
/-!
DEFINITION. The schedule loader: the start of a load (R103, R104), its end, the takeover at a boundary and the install (R105 to
R110).
-/
namespace Sys2Proof.Machine

/-- Where a check failed, as FRV_SCHED_DETAIL reports it, and the code of R100. -/
structure SchedBreach where
  code : Nat
  isle : Nat := 0
  index : Nat := 0
  cycle : Nat := 0
  resource : Nat := 0
  deriving DecidableEq, Repr

def setSchedDetail (x : SchedBreach) (s : State) : State :=
  let s := (s.set R.FRV_SCHED_DETAIL_ISLE x.isle).set R.FRV_SCHED_DETAIL_INDEX x.index
  (s.set R.FRV_SCHED_DETAIL_CYCLE x.cycle).set R.FRV_SCHED_DETAIL_RESOURCE x.resource

/-- A load ends refused (R105, R106). -/
def refuseLoad (a : Nat) (x : SchedBreach) (s : State) : State :=
  let s := (({ s with sched := none }.set R.FRV_SCHED_STATUS_BUSY 0).set R.FRV_SCHED_STATUS_RESULT 2).set
    R.FRV_SCHED_STATUS_REFUSAL x.code
  raise 0x0B21 a x.code (setSchedDetail x s)

/-- The digest of an archipelago, as FRV_ARCH_DIGEST holds it. -/
def archDigest (s : State) (a : Nat) : List Nat :=
  ((List.range 8).map (fun w => le 4 (s.get (R.FRV_ARCH_DIGEST_BYTES.at [a, w])))).flatten

/-- SCHEDULE_LOAD_START: FRV_SCHED_CMD written with START = 1 (R103, R104). -/
def execScheduleLoadStart (w : Nat) (s : State) : Result :=
  .next (
    if !frvReach s then s
    else
      let s := writeRest 0 R.FRV_SCHED_CMD_ARCH.addr w s
      if s.flag R.FRV_SCHED_STATUS_BUSY then s.set R.FRV_SCHED_STATUS_OVERRUN 1
      else
        let a := bits w 0 5
        let s := ((s.set R.FRV_SCHED_STATUS_RESULT 0).set R.FRV_SCHED_STATUS_REFUSAL 0).set R.FRV_SCHED_STATUS_BUSY 1
        let s := setSchedDetail { code := 0 } (s.set R.FRV_SCHED_STATUS_ARCH a)
        let s := { s with sched := some { arch := a, addr := s.get R.FRV_SCHED_ADDR_ADDR * 2 ^ 12, image := s.image, digest := archDigest s a } }
        s.emit (.hostRead 0 (s.get R.FRV_SCHED_ADDR_ADDR * 2 ^ 12) 128))

/-- An accepted package takes over: the old schedule comes off, and the isles go to INSTALL (R106, R132). -/
def takeOver (s : State) : State :=
  match s.sched with
  | some j =>
    if j.accepted.isNone || j.installing then s
    else if j.touched then refuseLoad j.arch { code := 3 } s
    else
      let s := uninstall j.arch s
      let s := moveIsles (islesOf s j.arch) [.idle, .run, .quiesced, .faulted] .install s
      { s with sched := some { j with installing := true } }
  | none => s

/-- The bytes of a descriptor table. -/
def descBytes (ds : List Nat) : List Nat := ((ds.map (fun d => le 32 d)).flatten ++ List.replicate 8192 0).take 8192

/-- A resident area that shrinks leaves its bytes, as `s` has them, in the working area. -/
def keepBytes (i lo hi : Nat) (s t : State) : State :=
  if (s.isle i).undefined.isNone then t
  else (List.range (Nat.min hi (2 ^ 20) - lo)).foldl (fun t k =>
    { t with lagoon := KMap.insert (lagoonKey i (lo + k)) (lagoonHeld s i (lo + k)) (KMap.erase t.lagoon (lagoonKey i (lo + k))) }) t

/-- The programs, descriptors and resident area of one isle written (R99, R109, R110). What the resident area grows over is
written whole, so nothing of it stays listed before. -/
def installIsle (p : PkgIsle) (s : State) : State :=
  if isleState s p.isle != .install then s
  else
    let top := 0x2000 + p.resident.length
    let old := 0x2000 + (s.isle p.isle).residentBytes
    let t := { s with lagoon := s.lagoon.dropRange (p.isle * 2 ^ 20 + old) (p.isle * 2 ^ 20 + Nat.min top (2 ^ 20)) }
    let t := t.modIsle p.isle (fun v => { v with
      program := p.words, descs := p.descs, residentBytes := p.resident.length, hostInts := p.hostInts, pc := 0, loops := [] })
    let t := t.modSlice p.isle (fun v => { v with reserved := ferryUses p.words p.descs })
    let t := keepBytes p.isle top old s t
    lagoonWrite p.isle 0x2000 p.resident (lagoonWrite p.isle 0 (descBytes p.descs) t)

/-- SCHEDULE_INSTALL_END: everything is written; the load ends accepted and the archipelago waits for its first frame
(R87, R106, R652). Where the isles have left INSTALL meanwhile nothing is written. -/
def execScheduleInstallEnd (s : State) : Result :=
  .next (
    match s.sched with
    | none => s
    | some j =>
      if !j.installing then s
      else
        let a := j.arch
        let live := (islesOf s a).any (fun i => isleState s i == .install)
        let s :=
          if !live then s
          else
            let s := (j.accepted.getD []).foldl (fun t p => installIsle p t) s
            let s := s.modArch a (fun r => { r with gen := false, waiting := true, fresh := true, replayNext := false, skip := [] })
            clearMeter ((s.set (R.FRV_ARCH_STATE_VOID_RUN.at [a]) 0).set (R.FRV_ARCH_STATE_INSTALLED.at [a]) 1)
        ({ s with sched := none }.set R.FRV_SCHED_STATUS_BUSY 0).set R.FRV_SCHED_STATUS_RESULT 1)

end Sys2Proof.Machine
end

