-- ==== Sys2Proof/Machine/Sensors.lean ====
section
/-!
DEFINITION. The numeric sensors of the PLDM model (R795): live readings, thresholds, the shadows of step 2 of a boundary, and the
sensor events of R796.
-/
namespace Sys2Proof.Machine

/-- The sensors of R795 by number. -/
def sensorIds : List Nat := (List.range 18).map (fun k => k + 1)

/-- The domain or die a sensor reads, on or off. -/
def sensorPowered (s : State) (id : Nat) : Bool :=
  if id ≤ 4 then domainOn s (1 + id)
  else if id ≤ 8 then domainOn s (1 + id)
  else if id = 9 then domainOn s 14
  else if id = 10 then domainOn s 15
  else if 14 ≤ id && decide (id ≤ 17) then domainOn s 17
  else true

/-- A sensor's reading now, in the units of its resolution; none where its die has no sensor in service. -/
def sensorNow (s : State) (id : Nat) : Option Int :=
  let nat := fun (f : Field) => some (s.get f : Int)
  if id = 0 then none
  else if id ≤ 4 then maxOf (dieReadings s (.isle (id - 1)))
  else if id ≤ 8 then dramTemp s (id - 5)
  else if id = 9 then maxOf (dieReadings s (.harbour 0))
  else if id = 10 then maxOf (dieReadings s (.harbour 1))
  else if id = 11 then maxOf (dieReadings s .pilot)
  else if id = 12 then nat R.PWR_MEAS_P_FRAME_W
  else if id = 13 then nat R.PWR_CAP_EFFECTIVE_W
  else if id = 14 then nat R.FAC_VAUX_VAUX_MV
  else if id = 15 then nat R.FAC_LOOP_MEAS_CURRENT_UA
  else if id = 16 then nat R.FAC_SWO1_MEAS_CURRENT_MA
  else if id = 17 then nat R.FAC_SWO2_MEAS_CURRENT_MA
  else if id = 18 then nat R.LHT_LOCAL_D_CUR
  else none

/-- A sensor's thresholds: upper warning, critical and fatal, and lower warning. -/
structure Limits where
  warn : Option Int := none
  crit : Option Int := none
  fatal : Option Int := none
  low : Option Int := none
  deriving DecidableEq, Repr

def sensorLimits (s : State) (id : Nat) : Limits :=
  let cls := fun dram => ({
    warn := some (classThreshold s dram .warn), crit := some (classThreshold s dram .throt),
    fatal := some (classThreshold s dram .shut) } : Limits)
  if id ≤ 4 then cls false
  else if id ≤ 8 then cls true
  else if id ≤ 11 then cls false
  else if id = 12 then { crit := some (s.get R.PWR_CAP_EFFECTIVE_W : Int) }
  else if id = 14 then { low := some 10800 }
  else if id = 16 || id = 17 then { warn := some 1800, crit := some 2000 }
  else if id = 18 then { warn := some ((s.get R.LHT_DPOLICY_D_MAX : Int) + 1) }
  else {}

/-- Whether a reading has reached an upper threshold. -/
def reaches (t : Option Int) (x : Int) : Bool :=
  match t with
  | some l => decide (l ≤ x)
  | none => false

/-- The threshold state of a reading: 1 normal, 5 lower warning, 8, 9 and 10 upper warning, critical and fatal. -/
def levelOf (l : Limits) (x : Int) : Nat :=
  if reaches l.fatal x then 10
  else if reaches l.crit x then 9
  else if reaches l.warn x then 8
  else match l.low with
    | some t => if x ≤ t then 5 else 1
    | none => 1

/-- One sensor at step 2 of a boundary: its shadow, and a sensor event where its threshold state has changed (R795, R796). -/
def sensorStep (s : State) (id : Nat) : State :=
  if !sensorPowered s id then s
  else
    match sensorNow s id with
    | none => s
    | some x =>
      let s := { s with pil := { s.pil with readings := KMap.put 0 s.pil.readings id x } }
      let l := levelOf (sensorLimits s id) x
      if s.pil.disabled.contains id || KMap.get 1 s.pil.levels id == l then s
      else
        pldmPut ⟨0, s.get R.LHT_FN_FN, some (id, l)⟩ { s with pil := { s.pil with levels := KMap.put 1 s.pil.levels id l } }

/-- The readings that the pilots report, taken in step 2 of a boundary. -/
def pldmShadows (s : State) : State := if domainOn s 0 then sensorIds.foldl sensorStep s else s

/-- A sensor's reading as reported: the shadow while local frames run (R795). -/
def sensorReading (s : State) (id : Nat) : Option Int :=
  if s.frame.running then some (KMap.get 0 s.pil.readings id) else sensorNow s id

end Sys2Proof.Machine
end

