-- ==== Sys2Proof/Machine/Frame.lean ====
section
/-!
DEFINITION. Rack ticks and local frames (R23, R32 to R48, R55): cycle F, the steps of a boundary, the tick that begins a frame,
and the relock of the isle clocks. `now` is a time in µs of the AON reference.
-/
namespace Sys2Proof.Machine

/-! Cycle F (R47, R87, R207, R403). -/

/-- The additions of an archipelago at cycle F: its frame-end list, then its BENDs. -/
def endAdds (s : State) (a : Nat) : List (Nat × Nat) :=
  ((partOf s a).map (fun p => p.ends)).getD [] ++ (s.arch a).bends

/-- The archipelagos whose frame has its effect at F: wet or replay, not void and with no void line rising. -/
def endingArchs (s : State) : List Nat :=
  (archNumbers s).filter (fun a => inWet s a && (s.arch a).voidDue.isNone)

/-- Cycle F of the frame: what instructions still have to do is done, since every occupancy ends by then (R41); additions, the
generation bits, and the emissions of TO_HOST quays. -/
def frameEnd (s : State) : State :=
  if !s.frame.running || s.frame.window then s
  else
    let s := (s.isles.map (fun e => e.1)).foldl (fun t i => land i (frameCycles s) t) s
    let live := endingArchs s
    let adds := (live.map (endAdds s)).flatten
    let t := closeCycle s.cycleOps (fun t => adds.foldl (fun acc x => applyOp acc ⟨0, x.1, some x.2⟩) ([], t)) s
    let t := live.foldl (fun t a => emissionsEnd a (t.modArch a (fun r => { r with gen := !r.gen, bends := [] }))) t
    let t := (archNumbers t).foldl (fun t a => t.modArch a (fun r => { r with ended := true })) t
    { t with frame := { t.frame with window := true } }

/-- FRAME_END: cycle F of the local frame. -/
def execFrameEnd (s : State) : Result := .next (inOneCycle frameEnd s)

/-! Step 2: shadows (R50). -/

/-- The per-frame registers of an isle, and the counts added to those that are read and cleared. -/
def isleShadow (i : Nat) (s : State) : State :=
  if !domainOn s (2 + i / 64) then s
  else
    let v := s.isle i
    let c := v.counts
    let gen := match archOf s i with
      | some a => (s.arch a).gen
      | none => false
    let top := fun (f : Field) (n : Nat) (t : State) => t.set (f.at [i]) (Nat.min n (2 ^ f.width - 1))
    let add := fun (f : Field) (n : Nat) (t : State) => t.bump (f.at [i]) n
    let s := (s.set (R.ISL_FRAME_OUTCOME.at [i]) v.outcome).setFlag (R.ISL_FRAME_GEN.at [i]) gen
    let s := (top R.ISL_FRAME_LAUNCHED c.launched s).set (R.ISL_FRAME_LAST_OFFSET.at [i]) c.lastOffset
    let s := top R.ISL_BUSY_SLICE_CYCLES c.sliceCycles (top R.ISL_BUSY_ARRAY_CYCLES c.arrayCycles s)
    let s := (s.set (R.ISL_VOID_CAUSE.at [i]) v.voidCause).set (R.ISL_VOID_SOURCE.at [i]) v.voidSource
    let s := add R.ISL_VOID_COUNT_COUNT c.voids s
    let s := top R.ISL_ARRAY_COUNT_COMPUTE_CYCLES c.computeCycles (top R.ISL_ARRAY_COUNT_PASSES c.passes s)
    let s := (s.set (R.ISL_ARRAY_ABORT_CYCLE.at [i]) v.abortCycle).set (R.ISL_ARRAY_ABORT_PHASE.at [i]) v.abortPhase
    let s := s.setFlag (R.ISL_ARRAY_ABORT_POISONED.at [i]) v.abortPoisoned
    let s := add R.ISL_ARRAY_SAT_OUT_SAT c.outSat (add R.ISL_ARRAY_SAT_ACC_SAT c.accSat s)
    let s := add R.ISL_VEC_STAT_NAN c.vecNan (add R.ISL_VEC_STAT_SAT c.vecSat (add R.ISL_ARRAY_NAN_COUNT c.nan s))
    let s := (s.set (R.ISL_SIEVE_NMS_KEPT.at [i]) c.nmsKept).set (R.ISL_SIEVE_NMS_ELIGIBLE.at [i]) c.nmsEligible
    let s := add R.ISL_SIEVE_STAT_BOX_SAT c.boxSat (add R.ISL_SIEVE_STAT_TRUNC c.trunc s)
    let s := add R.ISL_LAGOON_ERR_UE c.lagUe (add R.ISL_LAGOON_ERR_CE c.lagCe s)
    s.modIsle i (fun v => { v with counts := { lastOffset := c.lastOffset } })

/-- The refresh and host registers of a slice; what the frame counted starts again. -/
def sliceShadow (i : Nat) (s : State) : State :=
  let k := stackOf i
  if !dramOn s i then s
  else
    let v := s.slice i
    let self := selfTimed s k
    let slots := if self then 0 else slotsFor s k s.frame.lengthNs
    let sigma := if self then 0 else slotSpacing s k s.frame.lengthNs
    let s := (s.setFlag (R.SLC_REFRESH_HOT.at [i]) (s.refresh.hot.contains k)).setFlag (R.SLC_REFRESH_SELF_TIMED.at [i]) self
    let s := (s.setFlag (R.SLC_REFRESH_FLOOR.at [i]) s.refresh.floor).set (R.SLC_REFRESH_POINTER.at [i]) v.refreshPtr
    let s := (s.set (R.SLC_REFRESH_SLOTS_LAST.at [i]) slots).set (R.SLC_REFRESH_SPACING_SIGMA.at [i]) sigma
    let s := s.set (R.SLC_REFRESH_TOTAL_SLOTS.at [i]) v.slots
    let s := s.set (R.SLC_HOST_WORDS.at [i]) (Nat.min v.hostWords (2 ^ 24 - 1))
    let s := s.set (R.SLC_HOST_RMW.at [i]) (Nat.min v.hostRmw (2 ^ 20 - 1))
    let s := s.setFlag (R.SLC_HOST_PENDING.at [i]) (!v.hostq.isEmpty)
    s.modSlice i (fun v => { v with slotsFrame := 0, hostWords := 0, hostRmw := 0, winFrames := v.winFrames + 1 })

/-- An archipelago's frame is over: the run of void frames, and what follows a void frame (R48, R89). -/
def archOver (a : Nat) (s : State) : State :=
  let r := s.arch a
  let worked := r.frame == .wet || r.frame == .replay
  let s := recordOutcome a s
  let run := R.FRV_ARCH_STATE_VOID_RUN.at [a]
  if r.frame = .none_ then s
  else if r.voidAt.isSome then
    let n := Nat.min 3 (s.get run + 1)
    (s.set run n).modArch a (fun r => { r with
      toFault := r.toFault || n == 3, replayNext := r.replayNext || worked
      skip := if !worked then r.skip else if r.frame == .replay then r.skip ++ r.inPlace else r.inPlace })
  else (s.set run 0).modArch a (fun r => if worked then { r with replayNext := false, skip := [] } else r)

/-- The slots that the window has still to make (R293). -/
def finishSlots (i : Nat) (s : State) : State :=
  let k := stackOf i
  if !dramOn s i || selfTimed s k then s
  else s.modSlice i (fun v =>
    let n := slotsFor s k s.frame.lengthNs - v.slotsFrame
    { v with refreshPtr := (v.refreshPtr + n) % 16384, slots := (v.slots + n) % 2 ^ 64, slotsFrame := v.slotsFrame + n })

/-- Shadow copies, refresh modes and the measures of power (R50, R136, R291, R538, R651, R663). -/
def stepShadows (s : State) : State :=
  let worked := (archNumbers s).any (fun a => (s.arch a).frame == .wet || (s.arch a).frame == .replay)
  let s := (archNumbers s).foldl (fun t a => archOver a t) s
  let s := (archNumbers s).foldl (fun t a => t.setFlag (R.FRV_ARCH_STATE_GEN.at [a]) (t.arch a).gen) s
  let s := (List.range 256).foldl (fun t i => sliceShadow i (isleShadow i t)) s
  let s := thermalShadows (copyIsles s)
  let s := if s.frame.running then (List.range 4).foldl (fun t k => judgeMode k t) s else s
  let s := s.set R.GLB_RACK_ALIVE_ALIVE (aliveMap s)
  let s := if s.frame.running then meterFrame worked s else s
  pldmShadows { s with pwrShadow := s.regs.filter (fun e => e.1 / 64 / 2 ^ 20 == 5) }

/-! Step 3: requests, with what precedes and follows them. -/

/-- Pending management requests, an image and a schedule first, the cut last (R106, R135, R327, R575, R633, R759); the frame that
follows begins at `fn`. -/
def stepRequests (fn : Nat) (s : State) : State :=
  ckpCut fn (applyKeys (applyOnRequests (applyPending (takeOver (activateAtBoundary fn s)))))

/-! Step 4: D and k. -/

/-- Whether the window of a frame of `k` rack frames holds the refresh of every stack (R294). -/
def windowFits (s : State) (k : Nat) : Bool :=
  let ns := k * periodNs s
  let w := windowCycles s ns
  (List.range 4).all (fun st => decide (90 * slotsFor s st ns + 1280 ≤ w))

/-- D_ref (R294). -/
def dRef (s : State) : Nat :=
  (((List.range 17).filter (fun k => decide (dBase s ≤ k))).find? (windowFits s)).getD 16

/-- k for a frame that begins at `fn` with demand `d` (R39). -/
def snapped (s : State) (fn d : Nat) : Nat :=
  let r := s.get R.LHT_RDV_CFG_RDV_PERIOD
  let g := r - fn % r
  if r = 0 then d else if d ≤ g && decide (g ≤ Nat.min (2 * d - 1) 16) then g else d

/-- D of R677, from its parts, at most 16 (R38). -/
def chooseD (lo hi th host fused ref hot : Nat) : Nat :=
  Nat.min 16 ([Nat.min hi (Nat.max th host), fused, ref, hot].foldl Nat.max lo)

/-- R678. -/
def noteOverride (d hi hot ref fused : Nat) (s : State) : State :=
  if d ≤ hi then { s with thermal := { s.thermal with above := false } }
  else
    let cause := b2n (decide (hi < hot)) + b2n (decide (hi < ref)) * 2 + b2n (decide (hi < fused)) * 4
    let s := (s.set R.THM_STATUS_POLICY_OVERRIDDEN 1).set R.THM_STATUS_OVERRIDE_CAUSE cause
    let s := s.bump R.THM_OVERRIDE_FRAMES
    let s := if s.thermal.above then s else raise 0x0605 noUnit 0 s
    { s with thermal := { s.thermal with above := true } }

/-- D_th, D_pwr and D_ref, then D, and k for the frame that begins at `fn` (R39, R294, R652, R674, R677, R678). -/
def stepD (now fn : Nat) (s : State) : State :=
  let s := updateDTh now s
  let base := dBase s
  let ref := dRef s
  let s := { s with refresh := { s.refresh with floor := decide (base < ref) } }
  let s := if base < ref then raise 0x0E03 noUnit 0 s else s
  let hi := s.get R.LHT_DPOLICY_D_MAX
  let ((host, fused), s) := computeDPwr (frameCycles s) hi s
  let hot := if s.thermal.throttling then dTh s else base
  let lo := Nat.max base (s.get R.LHT_DPOLICY_D_MIN)
  let d := chooseD lo hi (dTh s) host fused ref hot
  let s := noteOverride d hi hot ref fused s
  { s.set R.LHT_LOCAL_D_CUR d with frame := { s.frame with nextK := snapped s fn d } }

/-! Step 5: admission. -/

/-- Whether a first frame may begin at `fn` (R40). -/
def startsAt (s : State) (fn : Nat) : Bool :=
  let r := s.get R.LHT_RDV_CFG_RDV_PERIOD
  if r = 0 then fn % dBase s == 0 else fn % r == 0

/-- An admission list is satisfied (R45). -/
def admits (s : State) (l : List (Nat × Bool × Nat)) : Bool :=
  l.all (fun e =>
    let consumed := ((l.filter (fun x => x.1 == e.1 && x.2.1)).map (fun x => x.2.2)).sum
    decide (e.2.2 ≤ bollard s e.1) && decide (consumed ≤ bollard s e.1))

/-- What a satisfied list consumes (R46). -/
def consumeList (l : List (Nat × Bool × Nat)) (s : State) : State :=
  l.foldl (fun t e => if e.2.1 then bolAdd e.1 (-(e.2.2 : Int)) t else t) s

/-- The kind of frame an archipelago runs next, from `fn` (R40, R46, R48, R55, R131). -/
def judgeAdmission (fn a : Nat) (s : State) : State :=
  let r := s.arch a
  let st := archState s a
  let put := fun (k : FrameKind) (t : State) => t.modArch a (fun r => { r with next := k })
  let in_ := lhState s != lhFree && (st == .run || st == .quiesced || st == .install) && s.flag (R.FRV_ARCH_STATE_INSTALLED.at [a])
    && (!r.waiting || startsAt s fn)
  if !in_ then put .none_ s
  else if st == .quiesced || lhState s == lhAcquire then put .dry s
  else if r.replayNext then put .replay s
  else
    let l := ((partOf s a).map (fun p => p.admission)).getD []
    if admits s l then put .wet (consumeList l s) else put .dry s

/-- Step 5: the archipelagos in ascending order, before the other operations of that cycle (R423). -/
def stepAdmission (fn : Nat) (s : State) : State :=
  closeCycle s.cycleOps (fun t => ([], (archNumbers s).foldl (fun t a => judgeAdmission fn a t) t)) s

/-! The boundary. -/

/-- The staged image changes the frame plan at the tick of `fn` or before (R585). -/
def replanDue (fn : Nat) (s : State) : Bool :=
  match s.staged with
  | some im => stagedReplans s && decide (im.activateFn ≤ fn)
  | none => false

/-- Steps 1 to 5 of R23, for the frame that ends at the next rack tick. -/
def boundary (now : Nat) (s : State) : State :=
  if !s.frame.running || s.frame.closed then s
  else
    let fn := s.frame.endFn
    let s := inOneCycle frameEnd s
    let s := (List.range 256).foldl (fun t i => finishSlots i t) s
    let s := inOneCycle stepShadows s
    let s := inOneCycle (stepRequests fn) s
    let s := inOneCycle (stepD now fn) s
    let s := if replanDue fn s then s else inOneCycle (stepAdmission fn) s
    { s with frame := { s.frame with closed := true } }

/-- LOCAL_FRAME_BOUNDARY: the boundary reserve of the frame's last rack frame (R23, R50). -/
def execLocalFrameBoundary (now : Nat) (s : State) : Result :=
  .next (if s.get R.LHT_FN_FN + 1 < s.frame.endFn then s else boundary now s)

/-! Step 6 and the rack tick. -/

/-- The frame of the event log ends: 0x0A03 tells what was turned away (R813). -/
def logFrameEnd (s : State) : State :=
  let turned := s.log.frameOver
  let s := if turned = 0 then s else raise 0x0A03 noUnit turned s
  { s with log := { s.log with frameEntered := 0, frameOver := 0, once := [] } }

/-- An isle at cycle 0 of a frame: from word 0, with an output buffer that holds nothing defined (R113, R174). -/
def isleFrame (draw i : Nat) (s : State) : State :=
  s.modIsle i (fun v => { v with pc := 0, loops := [], outBuf := { draw := draw }, pass := none, flight := [] })

/-- A slice at cycle 0 of a frame: its port and its ferry bus are free, and what its NBUs still hold is past its end. -/
def sliceFrame (i : Nat) (s : State) : State :=
  s.modSlice i (fun v => { v with
    portFree := 0, lastCommit := 0, scrubFree := 0, busFree := 0, hostGrant := none
    nbu := v.nbu.map (fun r => { r with bankEnd := 0, resultEnd := 0 }) })

/-- An archipelago at cycle 0: its frame begins as admitted; a schedule's first frame takes its isles to RUN (R107, R132). -/
def archFrame (draw a : Nat) (s : State) : State :=
  let k := (s.arch a).next
  let fresh := (s.arch a).fresh
  let s := (islesOf s a).foldl (fun t i => isleFrame draw i t) s
  let s := s.modArch a (fun r => { r with
    frame := k, next := .none_, voidAt := none, voidDue := none, transfers := [], bends := [], inPlace := [], ended := false
    waiting := r.waiting && k == .none_, fresh := r.fresh && k == .none_ })
  if k = .none_ then s
  else
    let s := moveIsles (islesOf s a) [.install] .run s
    if fresh then raise 0x0B20 a 0 s else s

/-- Stacks whose refresh stays on its own timer: their isle logic is off, or their isles are not yet out of HELD (R627). -/
def staysSelfTimed (s : State) (k : Nat) : Bool :=
  !domainOn s (2 + k) || (List.range 64).any (fun j => isleState s (64 * k + j) == .held)

/-- Step 6: a local frame begins at the FN and LT reached, after a step of LT if `stretched` (R23, R37, R55). -/
def beginFrame (stretched : Bool) (s : State) : State :=
  let fn := s.get R.LHT_FN_FN
  let lt := s.get R.LHT_LT_LT
  let k := s.frame.nextK
  let p := Nat.max 1 (periodNs s)
  let origin := s.get R.LHT_TICK_ORIGIN_ORIGIN
  let end_ := if stretched then cdiv ((lt + 2 ^ 64 - origin) % 2 ^ 64 + k * p) p else fn + k
  let ns := (tickLt s end_ + 2 ^ 64 - lt) % 2 ^ 64
  let (n, s) := s.draw
  let s := (archNumbers s).foldl (fun t a => archFrame n a t) ((s.slices.map (fun e => e.1)).foldl (fun t i => sliceFrame i t) s)
  let s := { s with thermal := { s.thermal with calFree := 0 }, keel := { s.keel with busyTo := 0 } }
  let wet := (archNumbers s).any (fun a => (s.arch a).frame == .wet || (s.arch a).frame == .replay)
  let s := (s.set R.LHT_LOCAL_FN_FN_S fn).setFlag R.LHT_LOCAL_WET wet
  let s := s.set R.LHT_LOCAL_K_CUR (cdiv ns p)
  { s with
    frame := { s.frame with
      running := true, rdv := false, window := false, closed := false, stretched := stretched, endFn := end_, lengthNs := ns, restart := false }
    refresh := { s.refresh with selfTimed := s.refresh.selfTimed.filter (staysSelfTimed s) } }

/-- Local frames stop at a tick, in FREE; installed schedules wait for the first frame of R40. -/
def endFrames (s : State) : State :=
  let s := stopFrames (frameCycles s) s
  (archNumbers s).foldl (fun t a =>
    if t.flag (R.FRV_ARCH_STATE_INSTALLED.at [a]) then t.modArch a (fun r => { r with waiting := true }) else t) s

/-- Whether some archipelago has a schedule to run, or a compute reset has frames to restart (R40, R624). -/
def wantsFrames (s : State) : Bool :=
  s.frame.restart || (archNumbers s).any (fun a => (s.arch a).waiting && s.flag (R.FRV_ARCH_STATE_INSTALLED.at [a]))

/-- A first local frame begins at the tick of `fn` (R40, R586, R619). -/
def firstFrame (fn : Nat) (s : State) : Bool :=
  wantsFrames s && startsAt s fn && lhState s != lhFree && !s.frame.relock && !s.flag R.GLB_CRESET_BUSY
    && 0 < periodNs s

/-- What a rendezvous FN brings: it is met, and its slots are filled, or it is missed (R43, R498, R619, R768). -/
def rendezvous (fn : Nat) (s : State) : State :=
  let r := s.get R.LHT_RDV_CFG_RDV_PERIOD
  if r = 0 || fn % r != 0 then s
  else
    let inside := s.frame.running && s.get R.LHT_LOCAL_FN_FN_S != fn
    let late := s.flag R.GLB_CRESET_BUSY || s.frame.restart
    let s := ckpPassed (ckpDiscard s)
    if inside || late || !meetsRendezvous s then
      raise 0x0107 noUnit 0 ((s.bump R.LHT_RDV_MISSED_COUNT).set R.LHT_RDV_LAST_FN fn)
    else
      let s := { s with frame := { s.frame with rdv := s.frame.running, met := some fn } }
      let s := (archNumbers s).foldl (fun t a => t.modArch a (fun r => { r with rdvVoid := false })) s
      let s := (List.range 8).foldl (fun t p =>
        t.modPort p (fun v => { v with tx := v.tx.filter (fun e => decide (3072 ≤ e.1)), backAt := none })) s
      ckpRendezvous s

/-- What a boundary does, done at a rack tick while no local frames run. -/
def idleTick (fn : Nat) (s : State) : State :=
  let s := inOneCycle stepShadows s
  let s := inOneCycle (fun s => ckpCut fn (applyKeys (applyOnRequests (applyPending (takeOver s))))) s
  let s := { s with refresh := { s.refresh with selfTimed := s.refresh.selfTimed.filter (staysSelfTimed s) } }
  inOneCycle logFrameEnd s

/-- The tick of a frame that ends: step 6, or the end of local frames. -/
def turnFrame (s : State) : State :=
  let s := inOneCycle logFrameEnd s
  if lhState s = lhFree then
    let s := endFrames (applyStep s)
    activateNow s
  else
    let stepped := s.lh.step.isSome && !s.flag R.LHT_STATUS_EVER_LOCKED
    beginFrame stepped (applyStep s)

/-- A rack tick without a frame that ends at it: an image may take effect, and a first frame begin. -/
def idleFrames (now fn : Nat) (s : State) : State :=
  let stepped := s.lh.step.isSome && !s.flag R.LHT_STATUS_EVER_LOCKED
  let s := activateAtTick fn (idleTick fn (applyStep s))
  let s := if s.frame.running then s else activateNow s
  if !stepped && firstFrame fn s then
    let s := inOneCycle (stepD now fn) (clearMeter s)
    let s := inOneCycle (stepAdmission fn) s
    inOneCycle (beginFrame false) s
  else s

/-- The rack tick that begins rack frame `fn`. -/
def rackTick (now fn : Nat) (s : State) : State :=
  let ends := s.frame.running && decide (s.frame.endFn ≤ fn)
  let s := if ends then boundary now s else s
  let s := lighthouseTick s
  let s := (List.range 8).foldl (fun t p => t.modPort p (fun v => { v with fecFrames := v.fecFrames + 1 })) s
  let s := (s.set R.LHT_LT_LT (tickLt s fn)).set R.LHT_FN_FN fn
  let s :=
    if s.frame.running && replanDue fn s then
      let cycles := (fn - s.get R.LHT_LOCAL_FN_FN_S) * (s.get R.LHT_FRAME_CFG_PERIOD_US * s.get R.PWR_CLK_FREQ_ISLE_MHZ)
      let s := if frameCycles s ≤ cycles then inOneCycle frameEnd s else s
      inOneCycle logFrameEnd (activateAtTick fn s)
    else if s.frame.running then
      if ends then inOneCycle turnFrame s else s
    else idleFrames now fn s
  inOneCycle (rendezvous fn) s

/-- RACK_TICK: the next rack frame begins (R32). -/
def execRackTick (now : Nat) (s : State) : Result :=
  .next (
    if !s.lh.running || !s.lh.hasOrigin || periodNs s = 0 then s
    else rackTick now (s.get R.LHT_FN_FN + 1) s)

/-- ISLE_CLOCK_RELOCK: the isle clocks have locked at the frequency of the plan (R586, R598). -/
def execIsleClockRelock (s : State) : Result :=
  .next (
    if !s.frame.relock then s
    else
      let s := (List.range 4).foldl (fun t k =>
        let t := if domainOn t (2 + k) then setLocks ((List.range 9).map (fun o => 11 * k + o)) true t else t
        if domainOn t (6 + k) then setLocks [11 * k + 9] true t else t) s
      { s with frame := { s.frame with relock := false } })

end Sys2Proof.Machine
end

