-- ==== Sys2Proof/Machine/BringUp.lean ====
section
/-!
DEFINITION. Bring-up (R593 to R611), the repair map (R299 to R301, R603 to R607), module and supply resets (R590 to R592, R842,
R848, R856), and the compute reset (R612 to R625).
-/
namespace Sys2Proof.Machine

/-! AON and PILOT. -/

/-- What the fuses and the strap give the registers (R13, R525, R552, R599, R600, R790, R857). -/
def loadFuses (s : State) : State :=
  let (v, f, p) := s.fuses.copyA
  ((s.set R.GLB_FUSE_VARIANT v).set R.GLB_FUSE_FMAX_MHZ f).set R.GLB_FUSE_PCAP_W p

/-- Bring-up stops where the two fuse copies differ (R597), and where VARIANT reads 0b11 (R13). A reset that clears GLB_BOOT does not lift
either: both are judged again as PD0 comes on (DESIGN CHOICE). Where the copies differ GLB_FUSE keeps its reset value (DESIGN CHOICE). -/
def judgeFuses (s : State) : State :=
  if bootState s = bootStopped then s
  else if s.fuses.copyA != s.fuses.copyB then stopBringUp 1 0 0 s
  else if s.get R.GLB_FUSE_VARIANT = 3 then stopBringUp 2 0 0 s
  else s

/-- AON_PHASE: the AON supply and REFCLK25 are good; the strap reads `strap` (R593, R597, R838). -/
def execAonPhase (strap : Nat) (s : State) : Result :=
  .next (
    if s.flag R.GLB_SUPPLY_MAIN_EN then s
    else
      let s := ((s.set R.GLB_SUPPLY_MAIN_EN 1).set R.GLB_SUPPLY_REFCLK25_OK 1).set R.GLB_RACK_MOD_STRAP strap
      judgeFuses (if s.fuses.copyA = s.fuses.copyB then loadFuses s else s))

/-- The registers of PD0 that fuses and the strap give, and the clock and cap of bring-up. -/
def loadPilotFuses (s : State) : State :=
  let enrolled := ((List.range 4).map (fun k => b2n (nth s.fuses.keys k [] != []) * 2 ^ k)).sum
  let s := (s.set R.FRV_KEYS_ENROLLED enrolled).set R.FRV_KEYS_REVOKED s.fuses.revoked
  let s := (s.set R.FRV_KEY_REVOKE_REVOKE s.fuses.revoked).set R.PIL_FW_FLOOR s.fuses.fwFloor
  let s := s.set R.PIL_MCTP_SMBUS_ADDR (0x30 + s.get R.GLB_RACK_MOD_STRAP % 2)
  let f := s.get R.GLB_FUSE_FMAX_MHZ
  let s := (s.set R.PWR_CLK_FREQ_ISLE_MHZ f).set R.PWR_CLK_FREQ_SLICE_MHZ (f * 4 / 5)
  setHostCap 0 (s.setFlag R.PIL_JTAG_STAT_TAP_ACTIVE s.pil.tap.active)

/-- The ROM's choice of a slot (R780): 0 A, 1 B. -/
def bootSlot (floor : Nat) (a b : Option Nat) : Option Nat :=
  let ok := fun (v : Option Nat) => match v with
    | some n => decide (floor ≤ n)
    | none => false
  if ok a && (!ok b || decide (b.getD 0 ≤ a.getD 0)) then some 0 else if ok b then some 1 else none

/-- The ROM verifies and boots a firmware slot (R780). -/
def bootFirmware (okA okB : Bool) (s : State) : State :=
  let a := if okA then s.pil.fwA else none
  let b := if okB then s.pil.fwB else none
  let s := { s with pil := { s.pil with fwA := a, fwB := b } }
  let s := (s.set R.PIL_FW_VERSION_A (a.getD 0xFFFF)).set R.PIL_FW_VERSION_B (b.getD 0xFFFF)
  match bootSlot s.fuses.fwFloor a b with
  | some k =>
    let s := { s with boot := { s.boot with slotFailed := (if k = 0 then b else a).isNone } }
    s.set R.PIL_FW_ACTIVE k
  | none => if bootState s = bootStopped then s else stopBringUp 3 0 0 s

/-- The ROM reads the keel device's JESD216 table (R712): bits 0 to 5 say that it declares a density of 2 Gbit, a 4 KiB erase type,
4-byte addressing, the 1-4-4 fast read, a quad-enable method and a page of at least 256 bytes; bit 6, program and erase suspend. -/
def readJesd (jesd : Nat) (s : State) : State :=
  let s := s.setKeel { s.keel with suspends := bit jesd 6 }
  if bits jesd 0 6 = 63 || bootState s = bootStopped then s else stopBringUp 3 0 0 s

/-- PILOT_PHASE: the AON phase has ended with MAIN_PG high: PD1 and PD0 are powered, and the ROM boots a slot, `okA` and `okB`
telling which images verify, from a keel device that declares `jesd` (R593, R594, R609, R712, R780, R841, R842). -/
def execPilotPhase (ok : Bool × Bool) (jesd : Nat) (s : State) : Result :=
  .next (
    if !s.flag R.GLB_SUPPLY_MAIN_EN || domainOn s 0 then s
    else
      let s := (s.set R.GLB_SUPPLY_MAIN_PG 1).set R.GLB_SUPPLY_REFCLK25_OK 1
      let up := fun d (t : State) => if domainOn t d then t else setLocks (clocksOf d) true (setDomState d .on .none_ t)
      let s := up 0 (up 1 s)
      let s := (List.range 18).foldl (fun t d => t.set (pwrStateField d) (t.dom d).state.code) s
      let s := loadPilotFuses s
      let s := if bootState s = bootStopped then s else setBoot bootPilot s
      bootFirmware ok.1 ok.2 (readJesd jesd (judgeFuses s)))

/-! KEEL, POWER_UP, SELF_TEST. -/

/-- NEXT_SEQ at the first mount after a power-on (R819). -/
def resumeSeq (s : State) : State :=
  match lastEventSeq (keelRecords s) with
  | some n => (s.set R.EVT_SEQ_NEXT_SEQ (n + 1)).set R.EVT_SEQ_OLDEST_SEQ (n + 1)
  | none => s

/-- What a mount counts: a power-on, or a module reset (R716, R737, R819). -/
def countBoot (s : State) : State :=
  if s.boot.cold then
    let s := { s with boot := { s.boot with cold := false }, keel := { s.keel with boot := (s.keel.boot + 1) % 2 ^ 32 } }
    wearCount 0 1 (resumeSeq s)
  else wearCount 3 1 s

/-- KEEL_PHASE: the journal is mounted (R593, R732). -/
def execKeelPhase (s : State) : Result :=
  .next (
    if bootState s != bootPilot then s
    else inOneCycle (fun s =>
      match keelMount s with
      | some t => setBoot bootKeel (countBoot t)
      | none => stopBringUp 3 0 0 s) s)

/-- POWER_UP_PHASE: PD2 to PD17 are powered in order, unless a stop is demanded (R593, R602, R835). -/
def execPowerUpPhase (s : State) : Result :=
  .next (
    if bootState s != bootKeel && bootState s != bootWaitStop then s
    else if stopDemanded s then
      if bootState s = bootKeel then raise 0x0007 noUnit 0 (setBoot bootWaitStop s) else s
    else if s.flag R.FAC_STOP_CHANNEL_FAULT then s
    else inOneCycle (fun s => powerUpNext (nominalRails (setBoot bootPowerUp s))) s)

/-- The stack a bit of GLB_DIE_HEALTH belongs to. -/
def stackOfBit (b : Nat) : Nat := if b < 4 then b else if b < 36 then (b - 4) / 8 else 0

/-- SELF_TEST_PHASE: every die tests itself. `dies` are the dies that fail beyond repair, by their GLB_DIE_HEALTH bits, and
`failed` the physical isles found failed, as stack × 68 + position (R28, R593, R605, R608). -/
def execSelfTestPhase (dies failed : List Nat) (s : State) : Result :=
  .next (
    if bootState s != bootPowerUp || !(List.range 16).all (fun d => domainOn s (d + 2)) then s
    else
      let bad := dies.filter (fun b => decide (b < 40))
      let good := (List.range 40).filter (fun b => !bad.contains b)
      let s := good.foldl (fun t b => setHealth b true t) s
      let s := { s with boot := { s.boot with failedNow := failed.filter (fun p => decide (p < 272)) } }
      match (List.range 40).find? (fun b => bad.contains b) with
      | some b => stopBringUp 4 (stackOfBit b) b s
      | none => setBoot bootSelfTest s)

/-! The repair map. -/

/-- The fields of a REPAIR or CANDIDATE record (R719). -/
def KeelRecord.repairKind (r : KeelRecord) : Nat := leAt r.payload 0 1
def KeelRecord.phys (r : KeelRecord) : Nat := leAt r.payload 1 1 * 68 + leAt r.payload 2 1
def KeelRecord.layer (r : KeelRecord) : Nat := leAt r.payload 3 1
def KeelRecord.bank (r : KeelRecord) : Nat := leAt r.payload 4 1
def KeelRecord.unit (r : KeelRecord) : Nat := leAt r.payload 6 2
def KeelRecord.part (r : KeelRecord) : List Nat := r.payload.take 8

/-- The records that stand: those of the store, and those still to be programmed. -/
def fieldRecords (s : State) : List KeelRecord := keelRecords s ++ s.keelQueue

def repairsOf (rs : List KeelRecord) : List KeelRecord := rs.filter (fun r => r.kind == recRepair)

/-- Parts of a kind replaced in a physical isle: each once, however often it is named (R603). -/
def partsOf (rs : List KeelRecord) (kind p : Nat) : List (Nat × Nat × Nat) :=
  ((repairsOf rs).filter (fun r => r.repairKind == kind && r.phys == p)).foldl (fun acc r =>
    let x := (r.layer, r.bank, r.unit)
    if acc.contains x then acc else acc ++ [x]) []

/-- Parts replaced in one bank, and of one layer. -/
def inBank (ps : List (Nat × Nat × Nat)) (l b : Nat) : Nat := (ps.filter (fun x => x.1 == l && x.2.1 == b)).length
def inLayer (ps : List (Nat × Nat × Nat)) (l : Nat) : Nat := (ps.filter (fun x => x.1 == l)).length

def maxNat (xs : List Nat) : Nat := xs.foldl Nat.max 0
def mostInBank (ps : List (Nat × Nat × Nat)) : Nat := maxNat (ps.map (fun x => inBank ps x.1 x.2.1))
def mostInLayer (ps : List (Nat × Nat × Nat)) : Nat := maxNat (ps.map (fun x => inLayer ps x.1))

/-- Whether a physical isle needs more row groups, lanes or bonds than it has spares (R299, R301, R606). -/
def overSpent (rs : List KeelRecord) (p : Nat) : Bool :=
  decide (32 < mostInBank (partsOf rs 2 p)) || decide (2 < mostInBank (partsOf rs 3 p))
    || decide (16 < mostInLayer (partsOf rs 4 p))

/-- SLC_SPARE of the isle placed at a physical isle. -/
def spareWord (rs : List KeelRecord) (p : Nat) : Nat :=
  let rows := partsOf rs 2 p
  let lanes := partsOf rs 3 p
  rows.length % 2 ^ 12 + lanes.length % 2 ^ 8 * 2 ^ 12 + (32 - mostInBank rows) * 2 ^ 20 + (2 - mostInBank lanes) * 2 ^ 26 +
    Nat.min 15 (16 - mostInLayer (partsOf rs 4 p)) * 2 ^ 28

/-- The assignment of one isle die as failures are taken in turn: the physical isles failed, and the spare position bound to
each failed position. -/
structure DieMap where
  failed : List Nat := []
  bound : List (Nat × Nat) := []
  deriving DecidableEq, Repr

/-- The lowest spare that is free and has not failed (R604). -/
def DieMap.free (m : DieMap) : Option Nat :=
  [64, 65, 66, 67].find? (fun q => !m.failed.contains q && !m.bound.any (fun x => x.2 == q))

def DieMap.bind (m : DieMap) (p : Nat) : DieMap :=
  match m.free with
  | some q => { m with bound := m.bound ++ [(p, q)] }
  | none => m

/-- One more failure: a position gets a spare; a spare that fails gives up the position it holds. -/
def DieMap.fail (m : DieMap) (p : Nat) : DieMap :=
  if m.failed.contains p then m
  else
    let m := { m with failed := m.failed ++ [p] }
    if p < 64 then m.bind p
    else
      match m.bound.find? (fun x => x.2 == p) with
      | some x => { m with bound := m.bound.filter (fun y => y.2 != p) }.bind x.1
      | none => m

/-- Failures of a die taken at once: spares first, then positions in ascending order (R604). -/
def failOrder (ps : List Nat) : List Nat :=
  [64, 65, 66, 67].filter ps.contains ++ (List.range 64).filter ps.contains

/-- The positions of stack `k` among physical isles. -/
def onDie (k : Nat) (ps : List Nat) : List Nat := (ps.filter (fun p => p / 68 == k)).map (fun p => p % 68)

/-- The map of stack `k`: the factory's failures, then field records in order, then the failures now found (R603 to R605). -/
def dieMap (s : State) (rs : List KeelRecord) (new : List Nat) (k : Nat) : DieMap :=
  let m := (failOrder (onDie k s.fuses.failedIsles)).foldl DieMap.fail ({} : DieMap)
  let m := (onDie k (((repairsOf rs).filter (fun r => r.repairKind == 1)).map KeelRecord.phys)).foldl DieMap.fail m
  (failOrder (onDie k new)).foldl DieMap.fail m

/-- The payload of a REPAIR record. -/
def repairPayload (kind p layer bank unit spare source : Nat) : List Nat :=
  [kind, p / 68, p % 68, layer, bank, 0] ++ le 2 unit ++ le 2 spare ++ [source, 0, 0, 0, 0, 0]

/-- A candidate bound to the next spare of its bank or layer; one that finds none makes its physical isle failed (R300, R301). -/
def bindCandidate (source : Nat) (acc : List Nat × List KeelRecord × State) (r : KeelRecord) :
    List Nat × List KeelRecord × State :=
  let (unfit, bound, s) := acc
  let rs := fieldRecords s
  let ps := partsOf rs r.repairKind r.phys
  let used := if r.repairKind = 4 then inLayer ps r.layer else inBank ps r.layer r.bank
  let room := if r.repairKind = 2 then 32 else if r.repairKind = 3 then 2 else 16
  if r.repairKind = 1 then (unfit ++ [r.phys], bound, s)
  else if room ≤ used then (unfit ++ [r.phys], bound, s)
  else (unfit, bound ++ [r],
    keelAppend recRepair (repairPayload r.repairKind r.phys r.layer r.bank r.unit used source) s)

/-- The logical isle of a physical isle that fails: its position, or the isle that the spare holds. -/
def logicalOf (old : KMap Nat) (p : Nat) : Nat :=
  if p % 68 < 64 then p / 68 * 64 + p % 68
  else ((List.range 64).map (fun j => p / 68 * 64 + j)).find? (fun i => KMap.get 0 old i == p % 68 - 63) |>.getD (p / 68 * 64)

/-- The map of the module after a repair: placements, isles not placed, and the row groups and lanes newly bound. -/
structure RepairResult where
  placed : KMap Nat
  unplaced : List Nat
  bound : List KeelRecord
  deriving DecidableEq, Repr

/-- A field record and event 0x0005 for each isle newly failed that a spare replaces (R605). -/
def appendIsles (source : Nat) (old : KMap Nat) (new : List Nat) (maps : List DieMap) (s : State) : State :=
  new.foldl (fun t p =>
    let i := logicalOf old p
    let m := nth maps (p / 68) {}
    match m.bound.find? (fun x => x.1 == i % 64) with
    | some x =>
      if p % 68 < 64 || KMap.get 0 old i != 0 then
        raise 0x0005 i 0 (keelAppend recRepair (repairPayload 1 p 0 0 0 (x.2 - 64) source) t)
      else t
    | none => t) s

/-- The repair map applied (R603 to R606): `source` is 0 at bring-up and 1 at a compute reset. -/
def applyRepairs (source : Nat) (s : State) : RepairResult × State :=
  let old := s.boot.placed
  let (unfit, bound, s) := (openCandidates (fieldRecords s)).foldl (bindCandidate source) ([], [], s)
  let rs := fieldRecords s
  let spent := (List.range 272).filter (overSpent rs)
  let known := s.fuses.failedIsles ++ ((repairsOf rs).filter (fun r => r.repairKind == 1)).map KeelRecord.phys
  let found := (List.range 272).filter (fun p => (s.boot.failedNow ++ unfit ++ spent).contains p && !known.contains p)
  let maps := (List.range 4).map (dieMap s rs found)
  let entries := ((List.range 4).zip maps).map (fun x => x.2.bound.map (fun y => (64 * x.1 + y.1, y.2 - 63)))
  let placed := entries.flatten.foldl (fun m e => KMap.put 0 m e.1 e.2) ([] : KMap Nat)
  let unplaced := (((List.range 4).zip maps).map (fun x =>
    ((x.2.failed.filter (fun p => decide (p < 64) && !x.2.bound.any (fun y => y.1 == p))).map (fun p => 64 * x.1 + p)))).flatten
  let s := appendIsles source old found maps s
  let rs := fieldRecords s
  let spares := (List.range 256).foldl (fun m i => KMap.put 0 m i (spareWord rs (physOf placed i))) ([] : KMap Nat)
  let s := { s with boot := { s.boot with placed := placed, unplaced := unplaced, spares := spares, failedNow := [] } }
  (⟨placed, unplaced, bound⟩, s.set R.GLB_INVENTORY_SPARES_FREE (16 - placed.length))

/-- SLC_SPARE of every slice whose memory is on. -/
def loadSpares (s : State) : State :=
  (List.range 256).foldl (fun t i =>
    if !dramOn t i then t
    else
      let w := KMap.get 0 t.boot.spares i
      [R.SLC_SPARE_ROWS_USED, R.SLC_SPARE_LANES_USED, R.SLC_SPARE_MIN_ROWS_FREE, R.SLC_SPARE_MIN_LANES_FREE,
        R.SLC_SPARE_MIN_BONDS_FREE].foldl (fun u f => u.set (f.at [i]) (bits w f.lo f.width)) t) s

/-- Bring-up stops for want of spares (R607): the stack of the lowest isle not placed, and how many of it are not. -/
def stopSpares (unplaced : List Nat) (s : State) : State :=
  let k := unplaced.headD 0 / 64
  stopBringUp 5 k (unplaced.filter (fun i => i / 64 == k)).length s

/-- REPAIR_PHASE (R603 to R607). -/
def execRepairPhase (s : State) : Result :=
  .next (
    if bootState s != bootSelfTest then s
    else inOneCycle (fun s =>
      let (r, s) := applyRepairs 0 s
      let s := loadSpares s
      if r.unplaced.isEmpty then setBoot bootRepair s else stopSpares r.unplaced s) s)

/-! FILL and RELEASE. -/

/-- FILL_PHASE: every slice and lagoon is filled; accesses wait until the fills end (R333, R593). -/
def execFillPhase (s : State) : Result :=
  .next (
    if bootState s != bootRepair then s
    else setBoot bootFill ((List.range 256).foldl (fun t i =>
      (lagoonFill i (sliceFill i t)).modSlice i (fun v => { v with filling := true })) s))

/-- What R610 asks before release. -/
def mayRelease (s : State) : Bool :=
  bootState s == bootFill && s.boot.unplaced.isEmpty && (List.range 40).all (health s)

/-- RELEASE: every fill has ended, `us` µs after the AON supply was good (R610, R780, R782, R842). -/
def execRelease (us : Nat) (s : State) : Result :=
  .next (
    if !mayRelease s then s
    else inOneCycle (fun s =>
      let s := (List.range 256).foldl (fun t i => t.modSlice i (fun v => { v with filling := false, refreshPtr := 0, slots := 0 })) s
      let s := { s with refresh := { s.refresh with selfTimed := s.refresh.selfTimed.filter (fun k => !domainOn s (2 + k)) } }
      let s := setBoot bootReleased (moveIsles (List.range 256) [.held] .idle s)
      let s := (s.set R.GLB_INVENTORY_LOGICAL_ISLES 256).set R.GLB_BOOT_TIME_RELEASE_US (Nat.min us (2 ^ 32 - 1))
      let s := raise 0x0001 noUnit 0 s
      let s := if s.boot.brownout then raise 0x0006 noUnit 0 s else s
      let s := match s.boot.watchdog with
        | some c => raise 0x0C04 c 0 s
        | none => s
      let s := if s.boot.slotFailed then raise 0x0C09 noUnit 0 s else s
      { s with boot := { s.boot with brownout := false, watchdog := none, slotFailed := false } }) s)

/-! Module, supply and link resets. -/

/-- The registers a module reset returns (R856). -/
def moduleRegisters (s : State) : State :=
  let s := ((List.range 17).map (fun k => if k = 0 then 0 else k + 1)).foldl (fun t d => resetDomain d t) s
  let s := { s with regs := s.regs.filter (fun e => e.1 / 64 / 2 ^ 20 != 1) }
  let s := [R.GLB_RACK_ID_MATCH, R.GLB_RACK_MASTER_ID, R.GLB_RACK_BACKUP_ID, R.GLB_RACK_FOREIGN].foldl (fun t f => t.set f f.reset) s
  let s := (List.range 64).foldl (fun t q =>
    [R.QUA_CTRL_ENABLE, R.QUA_STATUS_BOUND, R.QUA_STATUS_DIR, R.QUA_STATUS_FUNC].foldl (fun u f => u.set (f.at [q]) f.reset) t) s
  s.set R.EVT_SEQ_OLDEST_SEQ (s.get R.EVT_SEQ_NEXT_SEQ)

/-- A module reset, up to the PILOT phase (R590, R591, R819, R856). -/
def moduleReset (s : State) : State :=
  let s := (List.range 4).foldl (fun t k => if domainOn t (6 + k) then stackLost k t else t) s
  let s := keelPowerLoss (quaysOff (fun _ => true) s)
  let s := { s with
    log := {}, pldm := [], pldmTries := 0, lh := {}, frame := {}, avs := [], meter := {}, ckp := {}, thermal := {}, refresh := {},
    doms := s.doms.filter (fun e => e.1 == 1)
    boot := { brownout := s.boot.brownout, watchdog := s.boot.watchdog, cold := s.boot.cold }
    fac := { aRun := s.fac.aRun, bRun := s.fac.bRun, demanded := s.fac.demanded }
    pil := { fwA := s.pil.fwA, fwB := s.pil.fwB, tap := s.pil.tap }
    archs := [], requests := [], isles := [], slices := [], image := none, staged := none, sched := none, quays := [], ports := []
    lagoon := [], lagoonErr := [], stored := [] }
  moduleRegisters s

/-- MODULE_RESET: GLB_MRESET written (R591). -/
def execModuleReset (w : Nat) (s : State) : Result :=
  .next (
    if !decodes s 0 || !domainOn s 0 || bits w 0 16 != 0x5A3C || !bit w 16 then s
    else moduleReset (raise 0x0006 noUnit 0 s))

/-- PILOT_WATCHDOG_EXPIRY: the watchdog of a core expires (R782). -/
def execPilotWatchdogExpiry (core : Nat) (s : State) : Result :=
  .next (
    if !domainOn s 0 || core ≥ 8 then s
    else
      let s := moduleReset ((s.count R.PIL_WDOG_RESETS).set R.PIL_WDOG_LAST_PILOT core)
      { s with boot := { s.boot with watchdog := some core } })

/-- AON_SUPPLY_LOSS: everything is lost but the fuses, the keel store's contents and its firmware slots (R590, R831). -/
def execAonSupplyLoss (s : State) : Result :=
  let t := keelPowerLoss s
  .next { State.reset with
    pending := s.pending, out := s.out, draws := s.draws, fuses := s.fuses, keel := t.keel
    pil := { fwA := s.pil.fwA, fwB := s.pil.fwB } }

/-- A supply-loss reset (R842, R848, R856). -/
def supplyLoss (s : State) : State :=
  let s := moduleReset (pfReset false (linkDown s))
  let s := resetDomain 1 { s with doms := s.doms.filter (fun e => e.1 != 1), hif := {} }
  { s.count R.GLB_SUPPLY_BROWNOUTS with boot := { s.boot with brownout := true } }

/-- MAIN_PG_LOSS: MAIN_PG is low for 1 µs after the AON phase (R842). -/
def execMainPgLoss (s : State) : Result :=
  .next (
    if !s.flag R.GLB_SUPPLY_MAIN_PG then s
    else supplyLoss ((s.set R.GLB_SUPPLY_MAIN_PG 0).set R.GLB_SUPPLY_MAIN_LOST 1))

/-- REFCLK25_LOSS: REFCLK25 is absent for 10 µs (R848). -/
def execRefclk25Loss (s : State) : Result :=
  .next (
    if !s.flag R.GLB_SUPPLY_REFCLK25_OK then s
    else supplyLoss ((s.set R.GLB_SUPPLY_REFCLK25_OK 0).set R.GLB_SUPPLY_REFCLK_LOST 1))

/-- REFCLK100_LOSS (R846). -/
def execRefclk100Loss (s : State) : Result :=
  .next (if !s.flag R.GLB_SUPPLY_REFCLK100_OK then s else linkDown (s.set R.GLB_SUPPLY_REFCLK100_OK 0))

/-- HOST_LINK_RESET: PERST#, a Hot Reset or link down (R590, R592, R856). -/
def execHostLinkReset (s : State) : Result :=
  .next (
    if !domainOn s 1 then s
    else
      let s := pfReset false (linkDown s)
      { s with hif := { s.hif with d3hot := [] } })

/-! The compute reset. -/

/-- Whether a schedule is being written (R614). -/
def installing (s : State) : Bool :=
  match s.sched with
  | some j => j.installing
  | none => false

/-- A compute reset asked for, by the host or by a pilot (R612 to R614). -/
def requestCreset (s : State) : State :=
  if s.flag R.GLB_CRESET_BUSY then s
  else if bootState s != bootReleased then s.set R.GLB_CRESET_REFUSED 1
  else (s.set R.GLB_CRESET_BUSY 1).setFlag R.GLB_CRESET_DEFERRED (installing s)

/-- COMPUTE_RESET_REQUEST: GLB_CRESET written with START = 1 (R612). -/
def execComputeResetRequest (w : Nat) (s : State) : Result :=
  .next (if !decodes s 0 || !domainOn s 0 then s else requestCreset (writeRest 0 0x80 w s))

/-- Commands in the banks at the reset cycle: a host command stops after the index it is in; a FERRY runs to its end and sends
no result (R616). -/
def stopNbu (s : State) : State :=
  (s.slices.map (fun e => e.1)).foldl (fun t i => t.modSlice i (fun v => { v with
    merge := []
    nbu := v.nbu.map (fun r => if r.cmd.host then { r with stopped := true } else { r with result := none }) })) s

/-- The lighthouse at the reset cycle (R625). -/
def cresetLighthouse (s : State) : State :=
  let st := lhState s
  let s := s.setFlag R.LHT_STATUS_EVER_LOCKED (st == lhLocked || st == lhMaster)
  if st = lhUnlocked then (setLh lhAcquire s).modLh (fun l => { l with good := 0 }) else s

/-- COMPUTE_RESET_START: the reset cycle r, at cycle `v` of the local frame (R614 to R619, R625). -/
def execComputeResetStart (v : Nat) (s : State) : Result :=
  .next (
    if !s.flag R.GLB_CRESET_BUSY || s.boot.creset != .none_ || installing s then s
    else inOneCycle (fun s =>
      let s := { s with
        frame := { s.frame with restart := s.frame.running || s.frame.restart }
        boot := { s.boot with creset := .stopping, moved := [] } }
      let s := (setBoot bootCreset (haltFrames v s)).set R.GLB_CRESET_DEFERRED 0
      let s := raise 0x0003 noUnit 0 s
      let s := (List.range 64).foldl (fun t q => if (t.quay q).emission.isSome then quayDrop q t else t) s
      cresetLighthouse (stopNbu s)) s)

/-- COMPUTE_RESET_QUIESCENT: the quiescent cycle q (R618, R620). -/
def execComputeResetQuiescent (s : State) : Result :=
  .next (if s.boot.creset = .stopping then { s with boot := { s.boot with creset := .testing } } else s)

/-- The code words of a bank of a slice that are listed: every other word reads clean. -/
def listedWords (s : State) (i lo hi : Nat) : List Nat :=
  let keys := s.stored.dropRange 0 (storedKey i lo 0) |>.dropRange (storedKey i hi 0) ((s.stored.map (fun e => e.1)).foldl Nat.max 0 + 1)
  (keys.map (fun e => e.1 / 64 % 2 ^ 24 * 32)).eraseDups

/-- A word copied into a spare: read through correction, and poisoned where it is uncorrectable (R621). -/
def copyWord (i : Nat) (s : State) (o : Nat) : State :=
  let (c, d, s) := readRaw .scrubber i o s
  match c with
  | .clean => storeWord .scrubber i o d false s
  | .corrected _ => storeWord .scrubber i o d false s
  | _ => storeWord .scrubber i o d true s

/-- The words of [lo, hi) copied in ascending order: the first, which an armed flip mask takes (R344), and those listed, since a copy
of any other changes nothing. -/
def copyWords (i lo hi : Nat) (s : State) : State :=
  let ws := listedWords s i lo hi
  (if flipTakes s i .scrubber && !ws.contains lo then lo :: ws else ws).foldl (copyWord i) s

/-- The copies a newly bound row group or lane needs, in the slice of the isle placed there (R621). -/
def copyRepair (placed : KMap Nat) (s : State) (r : KeelRecord) : State :=
  match (List.range 256).find? (fun i => physOf placed i == r.phys) with
  | none => s
  | some i =>
    let bank := r.layer % 8 * 2 ^ 26 + r.bank % 8 * 2 ^ 23
    if !dramOn s i then s
    else if r.repairKind = 2 then
      copyWords i (bank + r.unit * 1024) (bank + r.unit * 1024 + 1024) s
    else if r.repairKind = 3 then copyWords i bank (bank + 2 ^ 23) s
    else s

/-- A logical isle on another physical isle: its slice and lagoon are filled again, its key slots are empty, and its
archipelago's schedule comes off (R622). -/
def moveIsle (s : State) (i : Nat) : State :=
  let s := if dramOn s i then
      let s := sliceFilled i s
      (s.modSlice i (fun v => { v with keys := [], keyCmd := none })).set (R.SLC_KEY_STATE_LOADED.at [i]) 0
    else s
  let s := lagoonFill i s
  match archOf s i with
  | some a => uninstall a s
  | none => s

/-- The working area of an isle that stays: zero, with valid checks (R623). -/
def clearWorking (draw : Nat) (s : State) (i : Nat) : State :=
  let top := 0x2000 + (s.isle i).residentBytes
  let s := { s with
    lagoon := s.lagoon.dropRange (lagoonKey i 0 + top) (lagoonKey i 0 + 2 ^ 20)
    lagoonErr := s.lagoonErr.dropRange (i * 2 ^ 17 + top / 8) ((i + 1) * 2 ^ 17) }
  let s := s.modIsle i (fun v => { v with undefined := none, outBuf := { draw := draw }, pass := none, ramping := none })
  let words := residentErrors s i
  let bad := words.any (fun a => match lagoonOutcomeAt s i a with
    | .bad _ => true
    | _ => false)
  let s := words.foldl (scrubLagoonWord i) s
  match archOf s i with
  | some a => if bad then uninstall a s else s
  | none => s

/-- COMPUTE_RESET_SELF_TEST_END: the self-test ends, with the physical isles found failed; the map is applied again, repairs are
copied, moved isles refilled and working areas cleared (R607, R620 to R623). -/
def execComputeResetSelfTestEnd (failed : List Nat) (s : State) : Result :=
  .next (
    if s.boot.creset != .testing then s
    else inOneCycle (fun s =>
      let old := s.boot.placed
      let s := { s with boot := { s.boot with failedNow := failed.filter (fun p => decide (p < 272)) } }
      let (r, s) := applyRepairs 1 s
      let s := loadSpares s
      if !r.unplaced.isEmpty then
        stopSpares r.unplaced ({ s with boot := { s.boot with creset := .none_ } }.set R.GLB_CRESET_BUSY 0)
      else
        let moved := (List.range 256).filter (fun i => physOf old i != physOf r.placed i)
        let s := (r.bound.filter (fun x => !moved.any (fun i => physOf r.placed i == x.phys))).foldl (copyRepair r.placed) s
        let s := moved.foldl moveIsle s
        let (n, s) := s.draw
        let s := ((List.range 256).filter (fun i => !moved.contains i && isleState s i != .off)).foldl (clearWorking n) s
        { s.setFlag R.GLB_CRESET_MOVED (!moved.isEmpty) with boot := { s.boot with creset := .restarting, moved := moved } }) s)

/-- The ISL registers that a compute reset returns, with what they count (R624, R856). -/
def resetIsleRegisters (s : State) : State :=
  let keep := fun (a : Nat) => decide (a % 2 ^ 16 < 12)
  let s := { s with regs := s.regs.filter (fun e =>
    let a := e.1 / 64
    decide (a < 2 ^ 24) || decide (2 ^ 25 ≤ a) || keep a) }
  (List.range 256).foldl (fun t i => t.modIsle i (fun v => { v with
    counts := {}, outcome := 0, voidCause := 0, voidSource := 0, abortCycle := 0, abortPhase := 3, abortPoisoned := false })) s

/-- An archipelago as the reset ends (R87, R624). -/
def restartArch (s : State) (a : Nat) : State :=
  let installed := s.flag (R.FRV_ARCH_STATE_INSTALLED.at [a])
  let s := (s.set (R.FRV_ARCH_STATE_GEN.at [a]) 0).set (R.FRV_ARCH_STATE_VOID_RUN.at [a]) 0
  let s := s.modArch a (fun r => { r with
    gen := false, toFault := false, replayNext := false, inPlace := [], skip := [], waiting := installed })
  if installed then moveIsles (islesOf s a) [.faulted] .run s
  else moveIsles (islesOf s a) [.run, .quiesced, .faulted] .idle s

/-- COMPUTE_RESET_END: every copy and fill has ended, `us` µs after r (R624, R719). -/
def execComputeResetEnd (us : Nat) (s : State) : Result :=
  .next (
    if s.boot.creset != .restarting then s
    else inOneCycle (fun s =>
      let s := (archNumbers s).foldl restartArch (resetIsleRegisters s)
      let s := { s with boot := { s.boot with creset := .none_ } }
      let s := (setBoot bootReleased s).set R.GLB_CRESET_BUSY 0
      let s := (s.count R.GLB_CRESET_COUNT).set R.GLB_BOOT_TIME_CRESET_US (Nat.min us (2 ^ 32 - 1))
      let s := wearCount 2 1 s
      raise 0x0004 noUnit 0 (keelAppend recWear (wearPayload s) s)) s)

end Sys2Proof.Machine
end

