-- ==== Sys2Proof/Machine/Link.lean ====
section
/-!
DEFINITION. The link unit of an isle: CSEND, CRECV, HSEND, HRECV, and the BEND of the bollard unit (R201 to R207, R247 to
R252).
-/
namespace Sys2Proof.Machine

def wSlot (w : Nat) : Nat := bits w 36 12
def wPort (w : Nat) : Nat := bits w 33 3
def wRoute (w : Nat) : Nat := bits w 20 12

/-- m: the cycles of a transfer of a tensor's bytes (R67). -/
def Tensor.transfer (t : Tensor) : Nat := cdiv t.desc.bytes 64

/-- CSEND: the source's bytes go out along the route (R247). -/
def csendEffect (l : Launch) (s : State) : State :=
  let src := l.tensor s 0
  let bytes := src.lagoonBytes s l.isle
  (noteTensors l [0] l.offset src.transfer s).modArch l.arch (fun a => { a with transfers := a.transfers ++ [(wRoute l.word, bytes)] })

def execCsend (i : Nat) (s : State) : Result := .next (launch 0x50 csendEffect i s)

/-- CRECV: the transfer sent along the route is written to the destination, readable at the end of its interval (R202, R248). -/
def crecvEffect (l : Launch) (s : State) : State :=
  let dst := l.tensor s 0
  match (s.arch l.arch).transfers.find? (fun t => t.1 == wRoute l.word) with
  | none => s
  | some t =>
    writeLater l dst l.offset dst.transfer t.2 [] (s.modArch l.arch (fun a => { a with transfers := a.transfers.erase t }))

def execCrecv (i : Nat) (s : State) : Result := .next (launch 0x60 crecvEffect i s)

/-- HSEND: the slot's payload goes to the transmit buffer of its port, which it has crossed its route to reach at t0 + m + 96; a port
that is not UP discards it (R250, R498, R518). -/
def hsendEffect (l : Launch) (s : State) : State :=
  let src := l.tensor s 0
  let bytes := src.lagoonBytes s l.isle
  let p := wPort l.word
  let slot := wSlot l.word
  let s := noteTensors l [0] l.offset src.transfer s
  if portState s p == portUp then
    enqueue l.isle { due := l.offset + src.transfer + 96, act := .sent p slot }
      (s.modPort p (fun v => { v with tx := KMap.put [] v.tx slot bytes }))
  else s

def execHsend (i : Nat) (s : State) : Result := .next (launch 0x51 hsendEffect i s)

/-- HRECV: the slot's payload, zeros for flits that are not intact, and the status line, are written, and the slot's
buffer is released when they are (R251, R252, R500 to R503). -/
def hrecvEffect (l : Launch) (s : State) : State :=
  let p := wPort l.word
  let slot := wSlot l.word
  match slotOf s p slot with
  | none => s
  | some e =>
    let data := slotPayload s p slot e
    let dst := l.tensor s 0
    let stop := l.offset + 96 + dst.transfer
    enqueue l.isle { due := stop, act := .release p slot }
      (writeLater l dst (l.offset + 96) dst.transfer data [] (judgeSlot p slot e s))

def execHrecv (i : Nat) (s : State) : Result := .next (launch 0x61 hrecvEffect i s)

/-- BEND: VALUE is added to its bollard at cycle F, if the frame is not void then (R207). -/
def bendEffect (l : Launch) (s : State) : State :=
  s.modArch l.arch (fun a => { a with bends := a.bends ++ [(bits l.word 16 12, bits l.word 0 16)] })

def execBend (i : Nat) (s : State) : Result := .next (launch 0x80 bendEffect i s)

end Sys2Proof.Machine
end

