-- ==== Sys2Proof/Machine/Sieve.lean ====
section
/-!
DEFINITION. The sieve unit (R256 to R275): argmax over channels, box decode, overlap suppression.
-/
namespace Sys2Proof.Machine

def wMode (w : Nat) : Nat := bits w 72 8
def wImm (w : Nat) : Nat := bits w 56 16

/-- The tensors a sieve instruction reads, in the order in which it touches them: DESC_P, DESC_AUX where it is used, DESC_IN (R243). -/
def sieveReads (op w : Nat) : List Nat := if op == 0x31 || (op == 0x32 && bit (wMode w) 3) then [3, 1, 0] else [3, 0]

/-- s_w − t0 of R243: the lines read, two in a cycle, and K + Q, for `n` rows of DESC_IN. -/
def sieveDelay (op lines n : Nat) : Nat :=
  cdiv lines 2 + (if op == 0x32 then cdiv (n * (n - 1)) 32 else 0) + (if op == 0x30 then 4 else if op == 0x31 then 10 else 12)

/-- A sieve instruction launched: its lines are read as one sequence, and DESC_OUT is written from s_w on, one line in a cycle (R243).
`counts` are made at addresses of DESC_OUT. -/
def sieveLaunch (l : Launch) (bytes : List Nat) (counts : List (Nat × Ctr × Nat)) (s : State) : State :=
  let op := wOpcode l.word
  let lines := ((sieveReads op l.word).map (fun k => (l.tensor s k).lines)).flatten
  let dst := l.tensor s 2
  let w := l.offset + sieveDelay op lines.length (l.tensor s 0).desc.rows
  writeLater l dst w dst.lines.length bytes counts (noteReads l false (touched l.offset (cdiv lines.length 2) lines) s)

/-- The bytes of the parameter block that DESC_P names (R257). -/
def paramBlock (l : Launch) (s : State) : List Nat := lagoonRead s l.isle (l.tensor s 3).base 64

/-! SARGMAX (R260 to R265). -/

/-- A comparable value of a sieve input format: 0 int8 signed, 1 int8 unsigned, 2 bfloat16, 3 binary16. -/
def sieveVal (mode raw : Nat) : Fl :=
  match mode % 4 with
  | 0 => flOfInt (toSigned 8 raw)
  | 1 => flOfInt (raw % 256 : Nat)
  | 2 => flDecode fmtBf16 raw
  | _ => flDecode fmtBinary16 raw

/-- Whether a ranks above b in the order of R262; integer zero is one value. -/
def sieveAbove (mode : Nat) (a b : Fl) : Bool :=
  if mode % 4 < 2 then decide (flToInt b < flToInt a) else flLess b a

/-- The winning channel of a row: its number and raw value; none when every value is NaN (R262, R263). -/
def argmaxRow (mode : Nat) (row : List Nat) : Option (Nat × Nat) :=
  ((List.range row.length).zip row).foldl (fun best e =>
    let v := sieveVal mode e.2
    if flIsNan v then best
    else
      match best with
      | none => some e
      | some b => if sieveAbove mode v (sieveVal mode b.2) then some e else best) none

/-- VALUE as 16 bits: an int8 value extended as MODE says (R261, R265). -/
def sieveValue16 (mode raw : Nat) : Nat :=
  match mode % 4 with
  | 0 => ofSigned 16 (toSigned 8 raw)
  | 1 => raw % 256
  | _ => raw

/-- FLOOR in the input format (R261, R264). -/
def floorVal (mode raw16 : Nat) : Fl :=
  match mode % 4 with
  | 0 => flOfInt (toSigned 16 raw16)
  | 1 => flOfInt (raw16 : Nat)
  | 2 => flDecode fmtBf16 raw16
  | _ => flDecode fmtBinary16 raw16

/-- VALUE and CLASS of one row (R262 to R264). -/
def argmaxResult (mode base floor : Nat) (floorEn : Bool) (row : List Nat) : Nat × Nat :=
  match argmaxRow mode row with
  | none => (flEncode (if mode % 4 == 2 then fmtBf16 else fmtBinary16) .nan, 0xFFFF)
  | some (j, raw) =>
    let below := floorEn && sieveAbove mode (floorVal mode floor) (sieveVal mode raw)
    (sieveValue16 mode raw, if below then 0xFFFF else base + j)

def sargmaxEffect (l : Launch) (s : State) : State :=
  let mode := wMode l.word
  let pb := paramBlock l s
  let src := l.tensor s 0
  let rows := (List.range src.desc.rows).map (fun r =>
    let row := (List.range src.desc.cols).map (src.elem s l.isle r)
    let (v, c) := argmaxResult mode (wImm l.word) (leAt pb 0 2) (leAt pb 2 1 == 1) row
    if bit mode 2 then [c % 256, c / 256 % 256]
    else ((leBytes 2 v ++ leBytes 2 c) ++ leBytes 4 (leAt pb 4 4 + r)).map (fun b => b.toNat))
  sieveLaunch l rows.flatten [] s

/-- SARGMAX: the winning channel of each row. -/
def execSargmax (i : Nat) (s : State) : Result := .next (launch 0x30 sargmaxEffect i s)

/-! SBOXDEC (R266 to R269). -/

/-- A Q12.3 value in pixels. -/
def q123 (v : Nat) : Fl :=
  let i := toSigned 16 v
  .num (i < 0) i.natAbs (-3)

/-- A coordinate converted to Q12.3: the 16 bits, and whether it was clamped or NaN (R269). -/
def toQ123 : Fl → Nat × Bool
  | .nan => (0, true)
  | .inf s => (if s then 0x8000 else 0x7FFF, true)
  | .num s m e =>
    let r := flToInt (.num s m (e + 3))
    let c := clampInt (-32768) 32767 r
    (ofSigned 16 c, decide (c ≠ r))

def flMin (a b : Fl) : Fl := if flIsNan a || flIsNan b then .nan else if flLess b a then b else a
def flMax (a b : Fl) : Fl := if flIsNan a || flIsNan b then .nan else if flLess a b then b else a

/-- One edge pair along one axis: centre, delta, size, scales, clamp and clip bound (R268). -/
def boxAxis (c d dsize size : Fl) (sc sd lim : Fl) (clip : Option Fl) : Fl × Fl :=
  let t := flMin (rnd32 (flMul dsize sd)) lim
  let b := rnd32 (flAdd c (rnd32 (flMul (rnd32 (flMul d sc)) size)))
  let w := rnd32 (flMul size (vfnFloat 0 t))
  let h := rnd32 (flMul w (.num false 1 (-1)))
  let lo := rnd32 (flSub b h)
  let hi := rnd32 (flAdd b h)
  match clip with
  | none => (lo, hi)
  | some m => (flMin (flMax lo (.num false 0 0)) m, flMin (flMax hi (.num false 0 0)) m)

def boxRow (mode : Nat) (pb anchor delta : List Nat) : List Nat × Nat :=
  let f := fun k => f32 (leAt pb k 4)
  let q := fun k => q123 (leAt pb k 2)
  let an := fun k => q123 (nth anchor k 0)
  let dl := fun k => flDecode (if bit mode 0 then fmtBf16 else fmtBinary16) (nth delta k 0)
  let clip := bit mode 1
  let (x0, x1) := boxAxis (flAdd (an 0) (q 0x14)) (dl 0) (dl 2) (an 2) (f 0x00) (f 0x08) (f 0x10)
    (if clip then some (q 0x18) else none)
  let (y0, y1) := boxAxis (flAdd (an 1) (q 0x16)) (dl 1) (dl 3) (an 3) (f 0x04) (f 0x0C) (f 0x10)
    (if clip then some (q 0x1A) else none)
  let cs := [toQ123 x0, toQ123 y0, toQ123 x1, toQ123 y1]
  ((cs.map (fun c => (leBytes 2 c.1).map (fun b => b.toNat))).flatten, (cs.map (fun c => b2n c.2)).sum)

def sboxdecEffect (l : Launch) (s : State) : State :=
  let pb := paramBlock l s
  let src := l.tensor s 0
  let aux := l.tensor s 1
  let row := fun (t : Tensor) r => (List.range 4).map (t.elem s l.isle r)
  let rows := (List.range src.desc.rows).map (fun r => boxRow (wMode l.word) pb (row aux r) (row src r))
  let dst := l.tensor s 2
  let counts := ((enum rows).filter (fun e => e.2.2 != 0)).map (fun e => (dst.row e.1, Ctr.boxSat, e.2.2))
  sieveLaunch l (rows.map (fun r => r.1)).flatten counts s

/-- SBOXDEC: anchors and deltas decoded into boxes. -/
def execSboxdec (i : Nat) (s : State) : Result := .next (launch 0x31 sboxdecEffect i s)

/-! SNMS (R270 to R275). -/

/-- A box record as SNMS ranks it (R259). -/
structure Box where
  row : Nat
  bytes : List Nat
  x0 : Int
  y0 : Int
  x1 : Int
  y1 : Int
  score : Fl
  cls : Nat
  index : Nat
  deriving DecidableEq, Repr

/-- SCORE in the format of MODE[1:0]: 0 binary16, 1 bfloat16, 2 int16 (R270). -/
def scoreVal (mode raw : Nat) : Fl :=
  match mode % 4 with
  | 0 => flDecode fmtBinary16 raw
  | 1 => flDecode fmtBf16 raw
  | _ => flOfInt (toSigned 16 raw)

def scoreLess (mode : Nat) (a b : Fl) : Bool :=
  if mode % 4 == 2 then decide (flToInt a < flToInt b) else flLess a b

def boxOf (mode row : Nat) (b : List Nat) : Box :=
  ⟨row, b, toSigned 16 (leAt b 0 2), toSigned 16 (leAt b 2 2), toSigned 16 (leAt b 4 2), toSigned 16 (leAt b 6 2),
    scoreVal mode (leAt b 8 2), leAt b 10 2, leAt b 12 4⟩

/-- R272. -/
def boxEligible (mode : Nat) (minEn : Bool) (min : Fl) (b : Box) : Bool :=
  b.cls != 0xFFFF && !flIsNan b.score && (!minEn || (!flIsNan min && !scoreLess mode b.score min))

/-- Whether a ranks before b (R273). -/
def boxBefore (mode : Nat) (a b : Box) : Bool :=
  if scoreLess mode b.score a.score then true
  else if scoreLess mode a.score b.score then false
  else if a.index != b.index then decide (a.index < b.index)
  else decide (a.row < b.row)

def insertBox (mode : Nat) (x : Box) : List Box → List Box
  | [] => [x]
  | b :: bs => if boxBefore mode x b then x :: b :: bs else b :: insertBox mode x bs

def span (a b : Int) : Int := if b > a then b - a else 0

def boxArea (b : Box) : Int := span b.x0 b.x1 * span b.y0 b.y1

def imin (a b : Int) : Int := if a < b then a else b
def imax (a b : Int) : Int := if a < b then b else a

/-- The intersection area of two boxes, each of positive size along both axes. -/
def boxInter (a b : Box) : Int :=
  if boxArea a = 0 ∨ boxArea b = 0 then 0
  else span (imax a.x0 b.x0) (imin a.x1 b.x1) * span (imax a.y0 b.y0) (imin a.y1 b.y1)

/-- Whether a kept record suppresses another (R274). -/
def boxSuppresses (aware : Bool) (thresh : Nat → Nat) (j i : Box) : Bool :=
  let n := boxInter j i
  let u := boxArea j + boxArea i - n
  (!aware || j.cls == i.cls) && decide (65536 * n > (thresh i.cls : Int) * u)

/-- The kept records in rank order (R274). -/
def keepBoxes (aware : Bool) (thresh : Nat → Nat) : List Box → List Box → List Box
  | kept, [] => kept
  | kept, b :: bs =>
    keepBoxes aware thresh (if kept.any (fun k => boxSuppresses aware thresh k b) then kept else kept ++ [b]) bs

def sentinelRecord : List Nat := List.replicate 10 0 ++ List.replicate 6 0xFF

def snmsEffect (l : Launch) (s : State) : State :=
  let mode := wMode l.word
  let pb := paramBlock l s
  let src := l.tensor s 0
  let dst := l.tensor s 2
  let table := lagoonRead s l.isle (l.tensor s 1).base 64
  let thresh := fun c => if bit mode 3 && decide (c < 32) then leAt table (2 * c) 2 else wImm l.word
  let all := (List.range src.desc.rows).map (fun r => boxOf mode r (lagoonRead s l.isle (src.row r) 16))
  let el := all.filter (boxEligible mode (leAt pb 2 1 == 1) (scoreVal mode (leAt pb 0 2)))
  let ranked := el.foldr (insertBox mode) []
  let kept := keepBoxes (bit mode 2) thresh [] ranked
  let n := dst.desc.rows
  let rows := (kept.take n).map (fun b => b.bytes) ++ List.replicate (n - kept.length) sentinelRecord
  let counts := [(dst.base, Ctr.nmsKept, kept.length), (dst.base, Ctr.nmsEligible, el.length)] ++
    (if n < kept.length then [(dst.base, Ctr.trunc, 1)] else [])
  sieveLaunch l rows.flatten counts s

/-- SNMS: overlapping records suppressed. -/
def execSnms (i : Nat) (s : State) : Result := .next (launch 0x32 snmsEffect i s)

end Sys2Proof.Machine
end

