-- ==== Sys2Proof/Machine/SlicePort.lean ====
section
/-!
DEFINITION. The slice port: LIFT, LOWER, and the merge buffer's triggers and commits (R67 to R77, R244 to R246).
-/
namespace Sys2Proof.Machine

/-- The code words that a run of slice bytes touches, in ascending order. -/
def runWords (a n : Nat) : List Nat :=
  if n = 0 then [] else (List.range ((a + n - 1) / 32 - a / 32 + 1)).map (fun k => (a / 32 + k) * 32)

def addWord (ws : List Nat) (w : Nat) : List Nat := if ws.contains w then ws else ws ++ [w]

/-- The code words that the rows of a slice tensor touch, each once (R68). -/
def Tensor.words (t : Tensor) : List Nat :=
  ((List.range t.desc.rows).map (fun r => runWords (t.row r) t.desc.rowLen)).flatten.foldl addWord []

/-- n of R67: five cycles for each 256 bytes of the fullest layer. -/
def portCycles (ws : List Nat) : Nat :=
  let per := (List.range 8).map (fun y => (ws.filter (fun o => bits o 26 3 == y)).length * 32)
  cdiv (5 * per.foldl Nat.max 0) 256

/-- The schedule holds the slice port for `n` cycles from cycle `t` on. -/
def notePort (i t n : Nat) (s : State) : State :=
  (s.modIsle i (fun v => { v with counts := { v.counts with sliceCycles := v.counts.sliceCycles + n } })).modSlice i (fun v =>
    { v with portFree := Nat.max v.portFree (t + n) })

/-- The cycle in which a LIFT that writes its rows over `d` cycles from cycle `t` on touches the first lagoon line that a code word
fills (R227). -/
def fillCycle (src dst : Tensor) (t d o : Nat) : Nat :=
  let hits := (List.range src.desc.rows).filterMap (fun r =>
    let a := src.row r
    if o + 32 ≤ a || a + src.desc.rowLen ≤ o then none
    else some (byteCycle dst.base dst.desc.span t d (dst.row r + (o - a))))
  hits.min?.getD t

/-- A slice byte from code words read. -/
def wordByte (m : KMap WordRead) (a : Nat) : Nat := nth (KMap.get ⟨false, []⟩ m (wordBase a)).data (a % 32) 0

/-- LIFT: row r of the slice tensor moves to row r of the lagoon tensor, readable at the ready cycle (R200, R244). -/
def liftEffect (l : Launch) (s : State) : State :=
  let i := l.isle
  let src := l.tensor s 0
  let dst := l.tensor s 1
  let ws := src.words
  let n := portCycles ws
  let t := if ws.any (fun o => (regionOf s i o).enc) then l.offset + 24 else l.offset
  let found := ws.map (fun o => (o, lookWord s i o))
  let m := found.map (fun f => (f.1, f.2.2))
  let bytes := ((List.range src.desc.rows).map (fun r =>
    (List.range src.desc.rowLen).map (fun k => wordByte m (src.row r + k)))).flatten
  let s := found.foldl (fun u f =>
    let c := fillCycle src dst t n f.1
    let u := if f.2.1 == .clean then u else enqueue i { due := c + 1, act := .look f.1 } u
    detectIf f.2.2.bad l.arch i c u) s
  writeLater l dst t n bytes [] (notePort i l.offset n s)

def execLift (i : Nat) (s : State) : Result := .next (launch 0x40 liftEffect i s)

/-- The bytes that the rows of a lower bring to one code word: its mask and its bytes, later rows over earlier ones. -/
def lowerWord (rows : List (Nat × List Nat)) (o : Nat) : Nat × List Nat :=
  rows.foldl (fun acc row =>
    let hit := fun k => decide (row.1 ≤ o + k ∧ o + k < row.1 + row.2.length)
    let mask := ((List.range 32).map (fun k => if hit k then 2 ^ k else 0)).sum
    (acc.1.lor mask,
      (List.range 32).map (fun k => if hit k then nth row.2 (o + k - row.1) 0 else nth acc.2 k 0)))
    (0, List.replicate 32 0)

/-- LOWER: row r of the lagoon tensor moves to row r of the slice tensor. Full words are written directly; partial words by
read-modify-write after them (MRG = 0) or into the merge buffer in cycle t0 (MRG = 1), in ascending order (R70 to R72, R245,
R246). A word built from an uncorrectable lagoon line is written poisoned (R229), and what is begun runs to its end (R85). -/
def lowerEffect (l : Launch) (s : State) : State :=
  let i := l.isle
  let t := l.offset
  let src := l.tensor s 0
  let dst := l.tensor s 1
  let mrg := bit l.word 16
  let rows := (List.range src.desc.rows).map (fun r => (dst.row r, lagoonRead s i (src.row r) src.desc.rowLen))
  let poison := fun o => (List.range src.desc.rows).any (fun r =>
    (List.range src.desc.rowLen).any (fun k =>
      wordBase (dst.row r + k) == o && (lineErrors s i ((src.row r + k) / 64)).2 != 0))
  let ws := dst.words.map (fun o => (o, lowerWord rows o))
  let full := ws.filter (fun w => w.2.1 == fullMask)
  let part := ws.filter (fun w => w.2.1 != fullMask)
  let n := portCycles ((if mrg then full else ws).map (fun w => w.1))
  let n := if mrg && full.isEmpty then 1 else n
  let bad := !s.lagoonErr.isEmpty
  let marked := fun o => bad && poison o
  let put := fun (due : Nat) (w : Nat × Nat × List Nat) (u : State) =>
    enqueue i { due := due, act := .word w.1 w.2.1 w.2.2 (marked w.1), keeps := true } u
  let s := noteReads l true (touched t n src.lines) s
  let s := full.foldl (fun u w => put (t + n) w u) s
  let s :=
    if mrg then part.foldl (fun u w => mergePut i t w.1 w.2.1 w.2.2 (marked w.1) u) s
    else (enum part).foldl (fun u w => put (t + n + 18 * w.1 + 18) w.2 u) s
  notePort i t (n + (if mrg then 0 else 18 * part.length)) s

def execLower (i : Nat) (s : State) : Result := .next (launch 0x41 lowerEffect i s)

/-! The merge buffer in time. -/

/-- Whether an isle is in a foreground zone in which merge entries move: its archipelago's frame is not void. -/
def mergeRuns (s : State) (i : Nat) : Bool :=
  match archOf s i with
  | some a => (s.arch a).frame != .none_ && (s.arch a).voidAt.isNone && !s.frame.window
  | none => false

/-- MERGE_ENTRY_TIMEOUT: 256 cycles have passed in cycle `c` since the first write of an entry that nothing has triggered (R74). -/
def execMergeEntryTimeout (m : Moment) (s : State) : Result :=
  .next (
    if !mergeRuns s m.unit then s
    else s.modSlice m.unit (fun v => { v with merge := v.merge.map (fun e =>
      if e.trig.isNone && decide (e.first + 256 ≤ m.cycle) then e.trigger (e.first + 256) else e) }))

/-- The launch cycle of the next slice-port instruction within a number of words of an isle's program, from its place on. -/
def nextPort : Nat → Isle → Option Nat
  | 0, _ => none
  | n + 1, v =>
    match v.program[v.pc]? with
    | none => none
    | some w =>
      if wOpcode w == 0x40 || wOpcode w == 0x41 then some (effOffset w v.loops)
      else nextPort n (if wOpcode w == 0x01 then enterLoop w v else advance v)

/-- Whether a commit of `len` cycles may start in cycle `c` (R75): after the one before, while the port is free for all of it, and
clear of every host interval, bank tail included. -/
def commitFits (s : State) (i c len : Nat) : Bool :=
  let v := s.slice i
  let x := s.isle i
  decide (v.lastCommit ≤ c) && decide (v.portFree ≤ c)
    && (match nextPort (x.program.length + 256) x with
      | some t => decide (c + len ≤ t)
      | none => true)
    && x.hostInts.all (fun h => decide (c + len + 16 ≤ h.1) || decide (h.2 ≤ c))

/-- MERGE_COMMIT: in cycle `c` the entry whose turn it is commits (R75, R76); an uncorrectable old word is detected in the last
cycle of the commit (R227). -/
def execMergeCommit (m : Moment) (s : State) : Result :=
  .next (
    match nextMerge m.unit m.cycle s with
    | none => s
    | some e =>
      if !mergeRuns s m.unit || !commitFits s m.unit m.cycle e.len then s
      else
        let (bad, s) := mergeCommit m.unit e (land m.unit m.cycle s)
        let s := notePort m.unit m.cycle e.len (s.modSlice m.unit (fun v => { v with lastCommit := m.cycle + e.len }))
        match archOf s m.unit with
        | some a => detectIf bad a m.unit (m.cycle + e.len - 1) s
        | none => s)

end Sys2Proof.Machine
end

