-- ==== Sys2Proof/Machine/Vector.lean ====
section
/-!
DEFINITION. The vector unit (R194 to R197, R231 to R242): compute types, operations, conversion, timing, and its twelve instructions.
-/
namespace Sys2Proof.Machine

/-- The parameters of a vector word (R194). -/
structure VecWord where
  func : Nat
  bcast : Nat
  sgn : Bool
  fin : Nat
  fout : Nat
  shift : Nat
  deriving DecidableEq, Repr

def vecWord (w : Nat) : VecWord :=
  ⟨bits w 81 6, bits w 79 2, bit w 78, bits w 75 3, bits w 72 3, bits w 56 5⟩

/-- A value in its compute type (R235): int32, or binary32. -/
inductive VVal where
  | int (v : Int)
  | fl (v : Fl)
  deriving DecidableEq, Repr

/-- A source element taken into its compute type (R235). -/
def vIn (p : VecWord) (raw : Nat) : VVal :=
  if fmtIsInt p.fin then .int (intOf (fmtBits p.fin) p.sgn raw) else .fl (flOf p.fin raw)

/-- A computed value with the clampings counted in SAT. -/
abbrev VRes := VVal × Nat

def vClamp (v : Int) : VRes :=
  let (c, b) := clampInt intMinV intMaxV v |> fun c => (c, decide (c ≠ v))
  (.int c, b2n b)
where
  intMinV : Int := -2147483648
  intMaxV : Int := 2147483647

/-- A two-operand operation on values of one compute type: exact then clamped, or rounded once (R236). -/
def vBin (fi : Int → Int → Int) (ff : Fl → Fl → Fl) : VVal → VVal → VRes
  | .int a, .int b => vClamp (fi a b)
  | .fl a, .fl b => (.fl (rnd32 (ff a b)), 0)
  | a, _ => (a, 0)

def vLess : VVal → VVal → Bool
  | .int a, .int b => decide (a < b)
  | .fl a, .fl b => flLess a b
  | _, _ => false

def vEqual : VVal → VVal → Bool
  | .int a, .int b => a == b
  | .fl a, .fl b => flEqual a b
  | _, _ => false

def vNan : VVal → Bool
  | .fl a => flIsNan a
  | _ => false

/-- The larger, or smaller; NaN if either is NaN (R238). -/
def vPick (big : Bool) (a b : VVal) : VVal :=
  if vNan a || vNan b then .fl .nan
  else if (if big then vLess a b else vLess b a) then b else a

/-- FUNC of VSEL (R195, R238). -/
def vCompare (func : Nat) (a b : VVal) : Bool :=
  match func with
  | 0 => vEqual a b
  | 1 => !vEqual a b
  | 2 => vLess a b
  | 3 => vLess a b || vEqual a b
  | 4 => vLess b a
  | _ => vLess b a || vEqual a b

/-- FUNC of VFN (R195, R232, R240). -/
def vFunc (func : Nat) : VVal → VRes
  | .int a => vClamp (if func == 6 then (a.natAbs : Int) else -a)
  | .fl a => (.fl (vfnFloat func a), 0)

/-- What one result is written as: its bits, and the SAT and NAN counts it makes (R241). -/
def vOut (fout shift : Nat) : VVal → Nat × Nat × Nat
  | .int a =>
    match flFormatOf fout with
    | some f =>
      let (v, o) := flPack f (flOfInt a)
      (v, b2n (o && f.e4m3), 0)
    | none =>
      let r := roundShiftInt a shift
      (satSigned (fmtBits fout) r, b2n (decide (toSigned (fmtBits fout) (satSigned (fmtBits fout) r) ≠ r)), 0)
  | .fl a =>
    match flFormatOf fout with
    | some f =>
      let (v, o) := flPack f a
      (v, b2n (o && f.e4m3), b2n (flIsNan a))
    | none =>
      match a with
      | .nan => (0, 0, 1)
      | .inf s => (if s then 2 ^ (fmtBits fout - 1) else 2 ^ (fmtBits fout - 1) - 1, 1, 0)
      | .num sg m e =>
        let r := flToInt (.num sg m (e - (shift : Nat)))
        (satSigned (fmtBits fout) r, b2n (decide (toSigned (fmtBits fout) (satSigned (fmtBits fout) r) ≠ r)), 0)

/-- The sources of one launch, as functions of a place in D. -/
structure VecSources where
  s1 : Nat → Nat → VVal
  s2 : Nat → Nat → VVal
  s3 : Nat → Nat → VVal

def vecSources (l : Launch) (s : State) (p : VecWord) : VecSources :=
  let i := l.isle
  let t1 := l.tensor s 1
  let t2 := l.tensor s 2
  let t3 := l.tensor s 3
  { s1 := fun r c => vIn p (t1.elem s i r c)
    s2 := fun r c =>
      vIn p (t2.elem s i (if p.bcast == 1 || p.bcast == 3 then 0 else r) (if p.bcast == 1 || p.bcast == 2 then 0 else c))
    s3 := fun r c => vIn p (t3.elem s i r c) }

/-- The descriptor fields a vector opcode reads: S1, S2, S3 at 1, 2, 3 (R194). -/
def vecReads (op : Nat) : List Nat :=
  if op == 0x23 || op == 0x2A then [1, 2, 3] else if op ≤ 0x25 then [1, 2] else [1]

/-- P of R233. -/
def vecDepth (op func d : Nat) : Nat :=
  match op with
  | 0x22 => 6
  | 0x23 => 8
  | 0x26 => 5
  | 0x27 => 14
  | 0x28 => 8
  | 0x29 => 8
  | 0x2B => if func == 1 then d + 4 else 4
  | _ => 4

/-- d of R233, from D and S1. -/
def vecCycles (op fin : Nat) (dst s1 : Desc) : Nat :=
  let groups := if op == 0x28 || op == 0x29 then s1.rows * cdiv s1.cols 64 else cdiv (dst.rows * dst.cols) 64
  groups * (if (op == 0x23 || op == 0x2A) && decide (6 ≤ fin) then 2 else 1)

/-- The results of a launch in their places in D, row by row: what each is written as, and the SAT and NAN counts it makes. -/
def vecCells (p : VecWord) (d : Desc) (res : Nat → Nat → VRes) : List (Nat × Nat × Nat) :=
  (List.range (d.rows * d.cols)).map (fun k =>
    let v := res (k / d.cols) (k % d.cols)
    let o := vOut p.fout p.shift v.1
    (o.1, o.2.1 + v.2, o.2.2))

/-- The counts of the results, each at its address in D. -/
def vecCounts (p : VecWord) (t : Tensor) (cells : List (Nat × Nat × Nat)) : List (Nat × Ctr × Nat) :=
  ((enum cells).map (fun (k, c) =>
    let a := t.row (k / t.desc.cols) + k % t.desc.cols * fmtBits p.fout / 8
    (if c.2.1 = 0 then [] else [(a, Ctr.vecSat, c.2.1)]) ++ (if c.2.2 = 0 then [] else [(a, Ctr.vecNan, c.2.2)]))).flatten

/-- A vector instruction launched: its sources are read, and D is readable at t0 + P + d (R233). -/
def vecLaunch (l : Launch) (res : Nat → Nat → VRes) (s : State) : State :=
  let op := wOpcode l.word
  let p := vecWord l.word
  let dst := l.tensor s 0
  let d := vecCycles op p.fin dst.desc (l.tensor s 1).desc
  let cells := vecCells p dst.desc res
  let s := noteTensors l (vecReads op) l.offset d s
  writeLater l dst (l.offset + vecDepth op p.func d) d (packElems (fmtBits p.fout) (cells.map (fun c => c.1)))
    (vecCounts p dst cells) s

/-- An element-by-element vector instruction. -/
def execElems (f : VecWord → VecSources → Nat → Nat → VRes) (l : Launch) (s : State) : State :=
  let p := vecWord l.word
  vecLaunch l (f p (vecSources l s p)) s

/-- A running sum or maximum over one row, in ascending column order (R237). -/
def vRow (sum : Bool) (p : VecWord) (src : VecSources) (cols r : Nat) : VRes :=
  let zero : VVal := if fmtIsInt p.fin then .int (if sum then 0 else -2147483648)
    else .fl (if sum then .num false 0 0 else .inf true)
  (List.range cols).foldl (fun a c =>
    if sum then
      let x := vBin (· + ·) flAdd a.1 (src.s1 r c)
      (x.1, a.2 + x.2)
    else (vPick true a.1 (src.s1 r c), a.2)) (zero, 0)

def execRows (sum : Bool) (l : Launch) (s : State) : State :=
  let p := vecWord l.word
  let src := vecSources l s p
  let cols := (l.tensor s 1).desc.cols
  vecLaunch l (fun r _ => vRow sum p src cols r) s

/-- VADD: S1 + S2. -/
def execVadd (i : Nat) (s : State) : Result :=
  .next (launch 0x20 (execElems (fun _ q r c => vBin (· + ·) flAdd (q.s1 r c) (q.s2 r c))) i s)
/-- VSUB: S1 − S2. -/
def execVsub (i : Nat) (s : State) : Result :=
  .next (launch 0x21 (execElems (fun _ q r c => vBin (· - ·) flSub (q.s1 r c) (q.s2 r c))) i s)
/-- VMUL: S1 × S2. -/
def execVmul (i : Nat) (s : State) : Result :=
  .next (launch 0x22 (execElems (fun _ q r c => vBin (· * ·) flMul (q.s1 r c) (q.s2 r c))) i s)

/-- S1 × S2 + S3 with one rounding (R236). -/
def vFma : VVal → VVal → VVal → VRes
  | .int a, .int b, .int c => vClamp (a * b + c)
  | .fl a, .fl b, .fl c => (.fl (rnd32 (flAdd (flMul a b) c)), 0)
  | a, _, _ => (a, 0)

/-- VFMA: S1 × S2 + S3, rounded once. -/
def execVfma (i : Nat) (s : State) : Result :=
  .next (launch 0x23 (execElems (fun _ q r c => vFma (q.s1 r c) (q.s2 r c) (q.s3 r c))) i s)
/-- VMAX: the larger of S1 and S2 (R238). -/
def execVmax (i : Nat) (s : State) : Result :=
  .next (launch 0x24 (execElems (fun _ q r c => (vPick true (q.s1 r c) (q.s2 r c), 0))) i s)
/-- VMIN: the smaller of S1 and S2 (R238). -/
def execVmin (i : Nat) (s : State) : Result :=
  .next (launch 0x25 (execElems (fun _ q r c => (vPick false (q.s1 r c) (q.s2 r c), 0))) i s)
/-- VCVT: S1 converted, with the right shift of IMM (R241). -/
def execVcvt (i : Nat) (s : State) : Result :=
  .next (launch 0x26 (execElems (fun _ q r c => (q.s1 r c, 0))) i s)
/-- VFN: FUNC applied to S1 (R240). -/
def execVfn (i : Nat) (s : State) : Result :=
  .next (launch 0x27 (execElems (fun p q r c => vFunc p.func (q.s1 r c))) i s)
/-- VRSUM: the sum of each row of S1 (R237). -/
def execVrsum (i : Nat) (s : State) : Result := .next (launch 0x28 (execRows true) i s)
/-- VRMAX: the maximum of each row of S1 (R237). -/
def execVrmax (i : Nat) (s : State) : Result := .next (launch 0x29 (execRows false) i s)
/-- VSEL: S3 where FUNC(S1, S2) holds, else S2 (R238). -/
def execVsel (i : Nat) (s : State) : Result :=
  .next (launch 0x2A (execElems (fun p q r c =>
    (if vCompare p.func (q.s1 r c) (q.s2 r c) then q.s3 r c else q.s2 r c, 0))) i s)
/-- VMOV: S1 copied, or transposed with FUNC 1 (R231). -/
def execVmov (i : Nat) (s : State) : Result :=
  .next (launch 0x2B (execElems (fun p q r c => (if p.func == 1 then q.s1 c r else q.s1 r c, 0))) i s)

end Sys2Proof.Machine
end

