-- ==== Sys2Proof/Machine/Package.lean ====
section
/-!
DEFINITION. The schedule package as bytes (R98, R99), the expansion of programs (R184, R209, R210), and check 0x01, FORMAT: the
rules of the instruction formats, word by word (R180 to R221, R144, R231, R232, R242, R249, R253, R256 to R271, R354 to R357).
-/
namespace Sys2Proof.Machine

/-! The package. -/

/-- The 128-bit words of a program, and the 256-bit words of a descriptor table. -/
def wordsAt (d : List Nat) (o size n : Nat) : List Nat := (List.range n).map (fun k => leAt d (o + size * k) size)

/-- The eight pairs of HOST_INT of an entry. -/
def hostPairs (d : List Nat) (o : Nat) : List (Nat × Nat) :=
  (List.range 8).map (fun k => (leAt d (o + 0x40 + 8 * k) 4, leAt d (o + 0x44 + 8 * k) 4))

/-- An entry of the isle table, with what it points to (R99). -/
def pkgIsleAt (d : List Nat) (o : Nat) : PkgIsle where
  isle := leAt d o 2
  words := wordsAt d (leAt d (o + 8) 8) 16 (leAt d (o + 4) 4)
  descs := wordsAt d (leAt d (o + 0x10) 8) 32 256
  resident := (d.drop (leAt d (o + 0x18) 8)).take (leAt d (o + 0x20) 4)
  hostInts := (hostPairs d o).take (leAt d (o + 2) 1)

/-- The offsets of the entries of the isle table. -/
def pkgEntries (d : List Nat) : List Nat := (List.range (leAt d 8 2)).map (fun k => leAt d 0x60 8 + 128 * k)

def pkgIsles (d : List Nat) : List PkgIsle := (pkgEntries d).map (pkgIsleAt d)

/-- Whether the header keeps R98; `a` is the ARCH of FRV_SCHED_CMD. -/
def pkgHeaderOk (d : List Nat) (a : Nat) : Bool :=
  let len := leAt d 0x18 8
  leAt d 0 4 == 0x48435357 && leAt d 4 2 == 1 && leAt d 6 1 == a && leAt d 7 1 == 0 && decide (1 ≤ leAt d 8 2)
    && decide (leAt d 8 2 ≤ 256) && !nonZero d 0xA 2 && !nonZero d 0x14 4 && !nonZero d 0x68 24
    && decide (128 ≤ len) && decide (len ≤ 2 ^ 26) && decide (len ≤ d.length)
    && leAt d 0x60 8 % 128 == 0 && decide (leAt d 0x60 8 + 128 * leAt d 8 2 ≤ len)

/-- Host intervals rise, do not overlap, hold at least one cycle each and end by F. -/
def hostIntsOk (fore : Nat) : Nat → List (Nat × Nat) → Bool
  | _, [] => true
  | lo, (a, b) :: r => decide (lo ≤ a) && decide (a < b) && decide (b ≤ fore) && hostIntsOk fore b r

/-- Whether an entry of the isle table keeps R99; `prev` is the isle of the entry before it. -/
def pkgEntryOk (d : List Nat) (fore : Nat) (prev : Option Nat) (o : Nat) : Bool :=
  let len := leAt d 0x18 8
  let n := leAt d (o + 2) 1
  let (words, prog, desc, res, bytes) := (leAt d (o + 4) 4, leAt d (o + 8) 8, leAt d (o + 0x10) 8, leAt d (o + 0x18) 8, leAt d (o + 0x20) 4)
  let after := match prev with
    | some p => decide (p < leAt d o 2)
    | none => true
  after && decide (leAt d o 2 < 256) && decide (n ≤ 8) && !nonZero d (o + 3) 1 && decide (1 ≤ words) && decide (words ≤ 65536)
    && prog % 16 == 0 && decide (prog + 16 * words ≤ len) && decide (desc + 8192 ≤ len) && res % 32 == 0 && bytes % 32 == 0
    && decide (bytes ≤ 2 ^ 20 - 8192) && decide (res + bytes ≤ len) && !nonZero d (o + 0x24) 28
    && hostIntsOk fore 0 ((hostPairs d o).take n) && ((hostPairs d o).drop n).all (fun p => p.1 == 0 && p.2 == 0)

/-- The isle of the first entry that breaks R99. -/
def pkgBadEntry (d : List Nat) (fore : Nat) : Option Nat → List Nat → Option Nat
  | _, [] => none
  | prev, o :: os => if pkgEntryOk d fore prev o then pkgBadEntry d fore (some (leAt d o 2)) os else some (leAt d o 2 % 256)

/-! Sorting. -/

/-- Two sorted lists merged. -/
def mergeLists {α : Type} (before : α → α → Bool) : Nat → List α → List α → List α
  | 0, xs, ys => xs ++ ys
  | _ + 1, [], ys => ys
  | _ + 1, xs, [] => xs
  | n + 1, x :: xs, y :: ys =>
    if before y x then y :: mergeLists before n (x :: xs) ys else x :: mergeLists before n xs (y :: ys)

/-- A list sorted, keeping the order of equals; the first argument bounds the depth. -/
def sortList {α : Type} (before : α → α → Bool) : Nat → List α → List α
  | 0, l => l
  | n + 1, l =>
    if l.length ≤ 1 then l
    else
      let h := l.length / 2
      mergeLists before l.length (sortList before n (l.take h)) (sortList before n (l.drop h))

/-! Expansion. -/

/-- The launches the loader examines (R221). -/
def examined (words : List Nat) : List Exp := (launchesOf words).take (2 ^ 20)

/-! Fields of a word (R180, R219). -/

/-- Whether every bit outside OFFSET, OPCODE, UNIT and the fields listed is 0. -/
def onlyFields (fs : List (Nat × Nat)) (w : Nat) : Bool :=
  (fs ++ [(100, 28), (92, 8), (88, 4)]).foldl (fun v (f : Nat × Nat) => setBits v f.1 f.2 0) w == 0

/-- Whether an opcode belongs to a vector instruction, and whether it uses S2, and S3 (R194). -/
def isVector (op : Nat) : Bool := decide (0x20 ≤ op) && decide (op ≤ 0x2B)
def usesS2 (op : Nat) : Bool := (decide (0x20 ≤ op) && decide (op ≤ 0x25)) || op == 0x2A
def usesS3 (op : Nat) : Bool := op == 0x23 || op == 0x2A
def isPass (op : Nat) : Bool := decide (0x10 ≤ op) && decide (op ≤ 0x14)
def isLink (op : Nat) : Bool := op == 0x50 || op == 0x51 || op == 0x60 || op == 0x61

/-- Whether a format code is a floating-point format of 8 bits; of 8 or 16 bits. -/
def fmtFp8 (c : Nat) : Bool := c == 2 || c == 3
def fmtFloat (c : Nat) : Bool := decide (2 ≤ c) && decide (c ≤ 5)

/-- A pass's parameters (R149, R155, R163, R165, R190, R191). -/
def passFieldsOk (w : Nat) : Bool :=
  let p := passWord (wOpcode w) w
  let mac := p.op == 0x10
  let pair := (p.fmtA == 0 && (p.fmtB == 0 || (p.fmtB == 1 && mac))) || (fmtFp8 p.fmtA && fmtFp8 p.fmtB)
    || (p.fmtA == 4 && p.fmtB == 4) || (p.fmtA == 5 && p.fmtB == 5)
  let int := p.fmtA == 0
  onlyFields [(56, 28), (0, 24)] w && decide (p.shape ≤ 5) && pair && (int || (!p.sgnA && !p.sgnB && p.ash == 0))
    && (mac || (!p.sub && p.ash == 0)) && (if int then p.out == 6 || p.out == 0 else p.out == 7 || fmtFloat p.out)
    && (p.out == 0 || p.shift == 0) && (p.commit || wDesc w 2 == 0)

/-- FUNC by opcode (R195, R232). -/
def funcOk (op func fin : Nat) : Bool :=
  if op == 0x27 then decide (func ≤ 9) && (!fmtIsInt fin || func == 6 || func == 7)
  else if op == 0x2A then decide (func ≤ 5)
  else if op == 0x2B then decide (func ≤ 1)
  else func == 0

/-- A vector word's parameters (R194 to R196, R235, R242). -/
def vecFieldsOk (w : Nat) : Bool :=
  let op := wOpcode w
  let p := vecWord w
  let plain := fun c => c == 0 || decide (4 ≤ c)
  onlyFields [(56, 31), (0, 32)] w && funcOk op p.func p.fin && (usesS2 op || p.bcast == 0) && (p.fin != 6 || p.sgn)
    && (if op == 0x26 then p.fout != 1 && bits w 61 11 == 0 && (fmtIsInt p.fout || p.shift == 0)
        else plain p.fin && plain p.fout && bits w 56 16 == 0)
    && (usesS2 op || wDesc w 2 == 0) && (usesS3 op || wDesc w 3 == 0)

/-- MODE and IMM of the sieve opcodes, but for what depends on a descriptor (R260, R266, R270). -/
def sieveFieldsOk (w : Nat) : Bool :=
  let mode := wMode w
  onlyFields [(56, 24), (0, 32)] w &&
    (if wOpcode w == 0x30 then decide (mode < 8) && wDesc w 1 == 0
     else if wOpcode w == 0x31 then decide (mode < 4) && wImm w == 0
     else decide (mode < 16) && mode % 4 != 3 && (!bit mode 3 || bit mode 2) && (bit mode 3 == (wDesc w 1 != 0)))

/-- A FERRY's fields (R204, R354, R355). -/
def ferryFieldsOk (w : Nat) : Bool :=
  let c := ferryForm w 0 0
  onlyFields [(40, 42), (0, 24)] w && decide (1 ≤ c.op) && decide (c.op ≤ 6) && c.layers != 0 && c.banks != 0
    && nbuFmtOk c.op c.fmt && bits c.imm 14 2 == 0 && (!c.clear || c.op == 3 || c.op == 5)
    && (nbuStreams c.op != 1 || c.spacing == 0) && (nbuArgBytes c.op != 0 || wDesc w 1 == 0) && (c.resEn || wDesc w 2 == 0)

/-- Steps 1 to 3 of the decoding order of a word that launches: opcode, unit, fields. -/
def launchWordOk (w : Nat) : Bool :=
  let op := wOpcode w
  wUnit w == op / 16 &&
    (if isPass op then passFieldsOk w
     else if isVector op then vecFieldsOk w
     else if op == 0x30 || op == 0x31 || op == 0x32 then sieveFieldsOk w
     else if op == 0x40 then onlyFields [(0, 16)] w
     else if op == 0x41 then onlyFields [(0, 17)] w
     else if op == 0x50 || op == 0x60 then onlyFields [(20, 12), (0, 8)] w
     else if op == 0x51 || op == 0x61 then onlyFields [(87, 1), (33, 15), (20, 12), (0, 8)] w
     else if op == 0x70 then ferryFieldsOk w
     else if op == 0x80 then onlyFields [(0, 28)] w && bits w 0 16 != 0
     else false)

/-- A control word (R183, R208 to R210): its place, the program's length, and the loops around it as (end of body), innermost
first. -/
def controlOk (k len w : Nat) (around : List Nat) : Bool :=
  if wOpcode w == 0x00 then w == 0
  else
    let stop := k + 1 + bits w 0 12
    wOffset w == 0 && wUnit w == 0 && onlyFields [(40, 44), (0, 12)] w && bits w 0 12 != 0 && decide (stop ≤ len)
      && decide (around.length < 3) && around.all (fun e => decide (stop ≤ e))

/-- The control words that break a rule; `around` are the ends of the loops still open, innermost first. -/
def badControls (len : Nat) : List (Nat × Nat) → List Nat → List Nat
  | [], _ => []
  | (k, w) :: rest, open_ =>
    let around := open_.filter (fun e => decide (k < e))
    if wOpcode w == 0x01 then
      (if controlOk k len w around then [] else [k]) ++ badControls len rest ((k + 1 + bits w 0 12) :: around)
    else if wOpcode w == 0x00 then (if controlOk k len w around then [] else [k]) ++ badControls len rest around
    else badControls len rest around

/-! Descriptors (R211 to R218). -/

/-- A descriptor field of a word: its place (0 to 3), the kinds it may have, and the element size it must have, if any. -/
structure Role where
  field : Nat
  kinds : List Nat
  esize : Option Nat
  deriving DecidableEq, Repr

/-- The ESIZE of a format (R189). -/
def fmtEsize (c : Nat) : Nat := if c == 1 then 0 else if c == 4 || c == 5 then 2 else if decide (6 ≤ c) then 3 else 1

/-- The descriptor fields that a word names (R190 to R206, R218, R253). -/
def rolesOf (w : Nat) : List Role :=
  let op := wOpcode w
  if isPass op then
    let p := passWord op w
    [⟨0, [1], some (fmtEsize p.fmtA)⟩, ⟨1, [1], some (fmtEsize p.fmtB)⟩] ++
      (if p.commit then [⟨2, [1], some (fmtEsize p.out)⟩] else [])
  else if isVector op then
    let p := vecWord w
    let e := some (fmtEsize p.fin)
    [⟨0, [1], some (fmtEsize p.fout)⟩, ⟨1, [1, 3], e⟩] ++ (if usesS2 op then [⟨2, [1, 3], e⟩] else []) ++
      (if usesS3 op then [⟨3, [1, 3], e⟩] else [])
  else if op == 0x30 then
    [⟨0, [1], some (if bit (wMode w) 1 then 2 else 1)⟩, ⟨2, [1], some 1⟩, ⟨3, [3], none⟩]
  else if op == 0x31 then [⟨0, [1], some 2⟩, ⟨1, [1, 3], some 2⟩, ⟨2, [1], some 1⟩, ⟨3, [3], none⟩]
  else if op == 0x32 then
    [⟨0, [1], some 1⟩] ++ (if bit (wMode w) 3 then [⟨1, [1, 3], none⟩] else []) ++ [⟨2, [1], some 1⟩, ⟨3, [3], none⟩]
  else if op == 0x40 then [⟨0, [2], none⟩, ⟨1, [1], none⟩]
  else if op == 0x41 then [⟨0, [1], none⟩, ⟨1, [2], none⟩]
  else if isLink op then [⟨0, [1], none⟩]
  else if op == 0x70 then
    [⟨0, [2], none⟩] ++ (if nbuArgBytes (bits w 72 8) != 0 then [⟨1, [1, 3], none⟩] else []) ++
      (if bit w 80 then [⟨2, [1], none⟩] else [])
  else []

/-- A named descriptor's own rules (R211 to R213, R217, R219): `d` are its 256 bits. -/
def descRulesOk (d : Nat) (kinds : List Nat) (esize : Option Nat) : Bool :=
  let v := descOf d
  bits d 5 11 == 0 && bits d 112 16 == 0 && kinds.contains v.kind && (v.esize != 0 || v.cols % 2 == 0)
    && (v.pitch == 0 || decide (v.rowLen ≤ v.pitch)) && (v.parity || v.base1 == 0)
    && (match esize with
        | some e => v.esize == e
        | none => true)

/-- The shapes that a word requires of its descriptors (R192, R193, R197, R200, R231, R253, R256, R257, R260, R357). -/
def shapesOk (descs : List Nat) (w : Nat) : Bool :=
  let op := wOpcode w
  let d := fieldDesc descs w
  let like := fun (x y : Desc) => x.rows == y.rows && x.cols == y.cols
  let block := fun (x : Desc) => x.rows == 1 && x.rowLen == 64
  if isPass op then
    let p := passWord op w
    let s := passShape p ⟨d 0, 0⟩ ⟨d 1, 0⟩
    (d 0).cols == (d 1).rows && (!p.commit || ((d 2).rows == (d 0).rows && (d 2).cols == (d 1).cols && (d 2).pitch == 0))
      && (d 0).pitch == 0 && (d 1).pitch == 0 && decide (operandBytes p s (!p.statB) ≤ 16384) && decide (s.mp * s.np ≤ 16384)
      && (!p.commit || decide (s.mp * s.np * fmtBits p.out ≤ 16384 * 8))
  else if isVector op then
    let p := vecWord w
    let s1 :=
      if op == 0x28 || op == 0x29 then (d 0).cols == 1 && (d 0).rows == (d 1).rows
      else if op == 0x2B && p.func == 1 then
        decide ((d 1).rows ≤ 64) && decide ((d 1).cols ≤ 64) && (d 0).rows == (d 1).cols && (d 0).cols == (d 1).rows
      else like (d 1) (d 0)
    let s2 := match p.bcast with
      | 0 => like (d 2) (d 0)
      | 1 => (d 2).rows == 1 && (d 2).cols == 1
      | 2 => (d 2).rows == (d 0).rows && (d 2).cols == 1
      | _ => (d 2).rows == 1 && (d 2).cols == (d 0).cols
    s1 && (!usesS2 op || s2) && (!usesS3 op || like (d 3) (d 0))
  else if op == 0x30 then
    decide ((d 0).cols ≤ 4096) && (d 2).rows == (d 0).rows && (d 2).rowLen == (if bit (wMode w) 2 then 2 else 8) && block (d 3)
      && decide (wImm w + (d 0).cols ≤ 0xFFFF)
  else if op == 0x31 then
    (d 0).cols == 4 && (d 1).cols == 4 && (d 1).rows == (d 0).rows && (d 2).rows == (d 0).rows && (d 2).rowLen == 8 && block (d 3)
  else if op == 0x32 then
    decide (2 ≤ (d 0).rows) && decide ((d 0).rows ≤ 2048) && (d 0).cols == 16 && decide ((d 2).rows ≤ (d 0).rows)
      && (d 2).cols == 16 && (!bit (wMode w) 3 || block (d 1)) && block (d 3)
  else if op == 0x40 || op == 0x41 then (d 0).rows == (d 1).rows && (d 0).rowLen == (d 1).rowLen
  else if op == 0x70 then
    let n := (d 0).bytes
    let c := ferryForm w 0 (n / 32)
    ((d 0).pitch == 0 || (d 0).pitch == (d 0).rowLen) && n % 32 == 0
      && (nbuStreams c.op == 1 || decide (32 * c.words ≤ c.spacing * 4096))
      && (nbuArgBytes c.op == 0 || (d 1).bytes == nbuArgBytes c.op) && (!c.resEn || (d 2).bytes == c.resultBytes)
  else true

/-! Expansions. -/

/-- The effective base of a descriptor, exactly (R214). -/
def Desc.exactBase (d : Desc) (gen : Bool) (iters : List Nat) : Int :=
  (((if d.parity && gen then d.base1 else d.base0) : Nat) : Int) + stepSum iters d.step

/-- The area of a kind (R212, R216), for a resident area of so many bytes. -/
def kindArea (kind resident : Nat) : Nat × Nat :=
  match kind with
  | 1 => (0x2000 + resident, 2 ^ 20)
  | 2 => (0, 2 ^ 29)
  | _ => (0x2000, 0x2000 + resident)

/-- The bytes that an operand of a word occupies: the stored extent of R193 for a pass, else the extent of R215. -/
def fieldSpan (descs : List Nat) (w k : Nat) : Nat :=
  let op := wOpcode w
  let d := fieldDesc descs w
  if isPass op then
    let p := passWord op w
    let s := passShape p ⟨d 0, 0⟩ ⟨d 1, 0⟩
    if k == 2 then cdiv (s.mp * s.np * fmtBits p.out) 8 else operandBytes p s (k == 0)
  else (d k).span

/-- Whether one operand of one launch stays in its area, for one value of G (R193, R205, R216, R357). -/
def operandPlaceOk (descs : List Nat) (resident : Nat) (x : Exp) (gen : Bool) (r : Role) : Bool :=
  let w := x.word
  let d := fieldDesc descs w r.field
  let b := d.exactBase gen x.iters
  let n := (fieldSpan descs w r.field : Int)
  if wOpcode w == 0x70 && r.field == 0 then
    let c := ferryForm w 0 (d.bytes / 32)
    decide (0 ≤ b) && b % 32 == 0 &&
      decide (b + (((nbuStreams c.op - 1) * c.spacing * 4096 : Nat) : Int) + n ≤ ((2 ^ 23 : Nat) : Int))
  else
    let (lo, hi) := kindArea d.kind resident
    decide ((lo : Int) ≤ b) && decide (b + n ≤ (hi : Int)) && (!isPass (wOpcode w) || b % 64 == 0)

/-- A parameter block (R257, R261, R267, R271). -/
def paramOk (op mode : Nat) (pb : List Nat) : Bool :=
  let f := fun o => leAt pb o 4
  let finite := fun v => decide (bits v 23 8 < 255)
  if op == 0x30 then
    decide (leAt pb 2 1 ≤ 1) && !nonZero pb 3 1 && !nonZero pb 8 56 &&
      (match mode % 4 with
       | 0 => decide (-128 ≤ toSigned 16 (leAt pb 0 2)) && decide (toSigned 16 (leAt pb 0 2) ≤ 127)
       | 1 => decide (leAt pb 0 2 ≤ 255)
       | _ => true)
  else if op == 0x31 then
    [0, 4, 8, 12, 16].all (fun o => finite (f o)) && decide (0 < f 16) && decide (f 16 < 2 ^ 31) && decide (leAt pb 0x18 2 < 2 ^ 15)
      && decide (leAt pb 0x1A 2 < 2 ^ 15) && !nonZero pb 0x1C 36
  else decide (leAt pb 2 1 ≤ 1) && !nonZero pb 3 61

/-- Whether the parameter block that a launch names is in order, for one value of G. -/
def paramPlaceOk (p : PkgIsle) (x : Exp) (gen : Bool) : Bool :=
  let d := fieldDesc p.descs x.word 3
  paramOk (wOpcode x.word) (wMode x.word) ((p.resident.drop ((d.exactBase gen x.iters).toNat - 0x2000)).take 64)

def isSieve (op : Nat) : Bool := op == 0x30 || op == 0x31 || op == 0x32

/-- Step 4 for one launch, for both values of G. -/
def expPlaceOk (p : PkgIsle) (x : Exp) : Bool :=
  [false, true].all (fun g =>
    (rolesOf x.word).all (operandPlaceOk p.descs p.resident.length x g) && (!isSieve (wOpcode x.word) || paramPlaceOk p x g))

/-- The rules of a word that do not depend on expansion: steps 1 to 4. -/
def wordStaticOk (p : PkgIsle) (w : Nat) : Bool :=
  launchWordOk w && (rolesOf w).all (fun r => descRulesOk (nth p.descs (wDesc w r.field) 0) r.kinds r.esize) && shapesOk p.descs w

/-- Why a program is refused (R221): a word, the place in execution order of its first launch that breaks the rule, from 1, or 0
where the fault does not depend on expansion, and that launch's offset. -/
structure WordFault where
  word : Nat
  seq : Nat := 0
  cycle : Nat := 0
  deriving DecidableEq, Repr

/-- A fault of one launch; `n` is its place in execution order, from 0. -/
def Exp.fault (x : Exp) (n : Nat) : WordFault := ⟨x.index, n + 1, Nat.min x.off (2 ^ 28 - 1)⟩

/-- The faults of step 4 that depend on expansion: one for each word, at its first launch that breaks a rule; the cycle is 0
where every launch of the word breaks it (R221). -/
def placeFaults (p : PkgIsle) (xs : List (Nat × Exp)) : List WordFault :=
  (enum p.words).filterMap (fun (k, w) =>
    if wOpcode w ≤ 1 || !wordStaticOk p w then none
    else
      let mine := xs.filter (fun x => x.2.index == k)
      match mine.find? (fun x => !expPlaceOk p x.2) with
      | none => none
      | some x => some (if mine.all (fun x => !expPlaceOk p x.2) then ⟨k, 0, 0⟩ else x.2.fault x.1))

/-- The launches at or past 2²⁸ (R185) or before the launch in front of them (R112). -/
def offsetFaults : List (Nat × Exp) → Nat → List WordFault
  | [], _ => []
  | (n, x) :: xs, cyc =>
    (if 2 ^ 28 ≤ x.off || x.off < cyc then [x.fault n] else []) ++ offsetFaults xs x.off

/-- The launches that a cycle has no room for (R111), among launches in order of their cycles: `units` are the units of the launches
before in cycle `cyc`. -/
def crowdFaults : List (Nat × Exp) → Nat → List Nat → List WordFault
  | [], _, _ => []
  | (n, x) :: xs, cyc, units =>
    let u := wUnit x.word
    let before := if x.off == cyc then units else []
    (if before.contains u || 4 ≤ before.length then [x.fault n] else []) ++ crowdFaults xs x.off (u :: before)

/-- The faults of a program but for the pairing rules. -/
def programFaults (p : PkgIsle) : List WordFault :=
  let xs := enum (examined p.words)
  let static := (enum p.words).filterMap (fun (k, w) => if wOpcode w ≤ 1 || wordStaticOk p w then none else some ⟨k, 0, 0⟩)
  let more := match (launchesOf p.words)[2 ^ 20]? with
    | some x => [x.fault (2 ^ 20)]
    | none => []
  (badControls p.words.length (enum p.words) []).map (fun k => ⟨k, 0, 0⟩) ++ static ++ placeFaults p xs ++ offsetFaults xs 0 ++
    crowdFaults (sortList (fun x y => decide (x.2.off < y.2.off)) 64 xs) 0 [] ++ more

/-! The pairing rules (R202, R203, R249). -/

/-- L of a route (R67). -/
def Route.latency (r : Route) : Nat := if r.src < 256 && r.dst < 256 && r.src / 64 == r.dst / 64 then 40 else 96

def routeIn (im : Image) (n : Nat) : Option Route := im.routes.find? (fun r => r.index == n)

/-- The launches of one opcode along a route. -/
def along (op n : Nat) (xs : List Exp) : List Exp := xs.filter (fun x => wOpcode x.word == op && wRoute x.word == n)

/-- Whether a CSEND or CRECV has exactly one partner: at its place in time, at the other end, moving as many bytes.
Not judged where the image does not hold the route (R864). -/
def paired (im : Image) (pkg : List PkgIsle) (p : PkgIsle) (x : Exp) : Bool :=
  match routeIn im (wRoute x.word) with
  | none => true
  | some r =>
    let send := wOpcode x.word == 0x50
    let far := if send then r.dst else r.src
    let n := (fieldDesc p.descs x.word 0).bytes
    let t := fun (y : Exp) => if send then y.off == x.off + r.latency else y.off + r.latency == x.off
    ((along (wOpcode x.word) r.index (examined p.words)).filter (fun y => y.off == x.off)).length == 1 &&
    (match pkg.find? (fun q => q.isle == far) with
     | none => false
     | some q =>
       match (along (if send then 0x60 else 0x50) r.index (examined q.words)).filter t with
       | [y] => (fieldDesc q.descs y.word 0).bytes == n
       | _ => false)

/-- Whether an HSEND or HRECV names a slot that its table gives to the isle, on a route to the slot's harbour die, and moves the
slot's bytes (R203, R249, R493, R748). -/
def slotNamedOk (im : Image) (p : PkgIsle) (w : Nat) : Bool :=
  let send := wOpcode w == 0x51
  let die := 0x100 + wPort w / 4
  let join := match routeIn im (wRoute w) with
    | some r => if send then r.src == p.isle && r.dst == die else r.src == die && r.dst == p.isle
    | none => true
  match im.slots.find? (fun r => r.port == wPort w && r.slot == wSlot w) with
  | none => false
  | some r =>
    let e := slotEntryOf r.entry
    join && decide (wSlot w < 3072) && e.isle == p.isle && e.kind == (if send then 1 else 2)
      && (fieldDesc p.descs w 0).bytes == e.bytes + 64 * b2n (e.stat && !send)

/-- The launch cycle that the slot table sets for the slot a word names. -/
def slotCycle (im : Image) (w : Nat) : Option Nat :=
  (im.slots.find? (fun r => r.port == wPort w && r.slot == wSlot w)).map (fun r => (slotEntryOf r.entry).cycle)

/-- Whether the isle is at the end of the route that a CSEND or CRECV needs it at (R202). -/
def routeJoins (im : Image) (p : PkgIsle) (w : Nat) : Bool :=
  match routeIn im (wRoute w) with
  | none => true
  | some r => (if wOpcode w == 0x50 then r.src else r.dst) == p.isle

/-- The faults of step 6, of words that keep the steps before. -/
def pairFaults (im : Image) (pkg : List PkgIsle) (p : PkgIsle) : List WordFault :=
  ((enum (examined p.words)).filter (fun x => wordStaticOk p x.2.word)).filterMap (fun (n, x) =>
    let op := wOpcode x.word
    if op == 0x50 || op == 0x60 then
      if !routeJoins im p x.word then some ⟨x.index, 0, 0⟩ else if paired im pkg p x then none else some (x.fault n)
    else if op == 0x51 || op == 0x61 then
      if !slotNamedOk im p x.word then some ⟨x.index, 0, 0⟩
      else if slotCycle im x.word == some x.off then none
      else some (x.fault n)
    else none)

/-- The lowest word, and its first fault in execution order. -/
def firstFault : List WordFault → Option WordFault
  | [] => none
  | f :: fs =>
    match firstFault fs with
    | none => some f
    | some g => if g.word < f.word || (g.word == f.word && g.seq < f.seq) then some g else some f

/-- FORMAT over the programs: the lowest isle, then the lowest word (R221). -/
def formatFault (im : Option Image) (pkg : List PkgIsle) : List PkgIsle → Option SchedBreach
  | [] => none
  | p :: ps =>
    let pairs := match im with
      | some im => pairFaults im pkg p
      | none => []
    match firstFault (programFaults p ++ pairs) with
    | some f => some { code := 1, isle := p.isle, index := f.word, cycle := f.cycle }
    | none => formatFault im pkg ps

/-- Check 0x01 of the bytes fetched, for archipelago `a` and foreground zone `fore`. -/
def checkFormat (im : Option Image) (a fore : Nat) (d : List Nat) : Option SchedBreach :=
  if !pkgHeaderOk d a then some { code := 1 }
  else
    match pkgBadEntry d fore none (pkgEntries d) with
    | some i => some { code := 1, isle := i }
    | none => formatFault im (pkgIsles d) (pkgIsles d)

/-! Checks 0x02 and 0x03. -/

/-- DIGEST (R98). -/
def pkgDigestOk (d : List Nat) : Bool :=
  let b := (d.take (leAt d 0x18 8))
  let z := b.take 0x40 ++ List.replicate 32 0 ++ b.drop 0x60
  (digestBytes (sha256 (z.map (fun x => BitVec.ofNat 8 x)))).map (fun x => x.toNat) == (b.drop 0x40).take 32

/-- IMAGE_MISMATCH (R581): against the image and the archipelago digest at START. -/
def pkgMatches (j : SchedJob) (d : List Nat) : Bool :=
  match j.image with
  | none => false
  | some im =>
    (d.drop 0x20).take 32 == j.digest && (pkgIsles d).map (fun p => p.isle) == im.islesIn j.arch
      && leAt d 0x0C 4 == im.fore && leAt d 0x10 4 == im.wImg && !(im.islesIn j.arch).isEmpty

end Sys2Proof.Machine
end

