-- ==== Sys2Proof/Machine/Timetable.lean ====
section
/-!
DEFINITION. The timetable of a schedule: for each launch the resources it holds, the lagoon lines it touches and the bytes it
reads and writes, cycle by cycle (R66 to R80, R117 to R120, R222 to R254, R363), and the merge buffer's commits (R73 to R76).
-/
namespace Sys2Proof.Machine

/-- A resource held (R66): its code, which one of its kind, and the cycles [a, b). -/
structure Occ where
  res : Nat
  unit : Nat
  a : Nat
  b : Nat
  deriving DecidableEq, Repr

/-- A lagoon access (R119, R120): the requester (0 slice port, 1 array, 2 vector unit, 3 sieve unit, 4 outbound port, 5 inbound
port, 6 ferry interface), its interval, and its lines in the order touched. -/
structure Touch where
  req : Nat
  write : Bool
  s : Nat
  d : Nat
  lines : List Nat
  deriving DecidableEq, Repr

/-- Bytes accessed: where (0 lagoon, 1 slice, 2 output buffer), which ranges [lo, hi), in which cycles [a, b), and, for a write,
the ready cycle. -/
structure Span where
  write : Bool
  space : Nat
  ranges : List (Nat × Nat)
  a : Nat
  b : Nat
  ready : Nat
  deriving DecidableEq, Repr

/-- A launch with all that it does. `merges` are the code words it gives to the merge buffer, with their masks; `cycles` the
compute cycles of a pass; `narrow` says that it lowers a partial word into an enciphered region, `sealed_` that its ferry work
names a word that is not open, `routed` that the image holds its route. -/
structure Timed where
  isle : Nat
  index : Nat
  op : Nat
  t0 : Nat
  occs : List Occ := []
  touches : List Touch := []
  spans : List Span := []
  ready : Nat
  merges : List (Nat × Nat) := []
  cycles : Nat := 0
  inPlace : Bool := false
  narrow : Bool := false
  sealed_ : Bool := false
  routed : Bool := true
  deriving DecidableEq, Repr

/-! Lines and ranges. -/

def Tensor.ranges (t : Tensor) : List (Nat × Nat) := (List.range t.desc.rows).map (fun r => (t.row r, t.row r + t.desc.rowLen))

/-- The cycles in which an access touches its lines (R120). -/
def Touch.cells (x : Touch) : List (Nat × Nat) := touched x.s x.d x.lines

/-- The bytes of a code word that the rows of a tensor write, as a mask (R68). -/
def wordMask (t : Tensor) (o : Nat) : Nat :=
  ((List.range 32).map (fun k => if t.ranges.any (fun g => decide (g.1 ≤ o + k) && decide (o + k < g.2)) then 2 ^ k else 0)).sum

/-- The byte ranges of a mask of a code word. -/
def maskRanges (o mask : Nat) : List (Nat × Nat) :=
  ((List.range 32).filter (fun k => bit mask k)).map (fun k => (o + k, o + k + 1))

/-- Region bits of the image (R311, R319). -/
def imageEnc (im : Image) (i o : Nat) : Bool := bit (imageRegion im i o) 2
def imageOpen (im : Image) (i o : Nat) : Bool := bit (imageRegion im i o) 1

/-- The banks of code words, each once. -/
def banksOf (ws : List Nat) : List Nat := (List.range 64).filter (fun b => ws.any (fun o => o / 2 ^ 23 == b))

def bankOccs (ws : List Nat) (a b : Nat) : List Occ := (banksOf ws).map (fun k => ⟨2, k, a, b⟩)

/-! Launches by class. -/

/-- The tensor that a field of a launch names. -/
def Exp.tensor (x : Exp) (p : PkgIsle) (gen : Bool) (k : Nat) : Tensor :=
  let d := fieldDesc p.descs x.word k
  ⟨d, (d.exactBase gen x.iters).toNat⟩

/-- A launch that holds nothing. -/
def bare (p : PkgIsle) (x : Exp) : Timed := { isle := p.isle, index := x.index, op := wOpcode x.word, t0 := x.off, ready := x.off }

/-- A pass (R67, R167 to R170). -/
def timedPass (p : PkgIsle) (x : Exp) (gen : Bool) : Timed :=
  let w := passWord (wOpcode x.word) x.word
  let t := x.off
  let c := x.tensor p gen 2
  let sh := passShape w (x.tensor p gen 0) (x.tensor p gen 1)
  let n := sh.cycles
  let stop := t + 48 + n
  let nC := cdiv (sh.mp * sh.np * fmtBits w.out) 8
  let stat := passOperand w sh true
  let strm := passOperand w sh false
  let read := fun (o : Nat × Nat) s d => (⟨false, 0, [(o.1, o.1 + o.2)], s, s + d, 0⟩ : Span)
  { bare p x with
    cycles := n, ready := stop, occs := [⟨4, 0, t, stop⟩]
    touches := [⟨1, false, t, 16, linesOf stat.1 stat.2⟩, ⟨1, false, t + 16, n, linesOf strm.1 strm.2⟩] ++
      (if w.commit then [⟨1, true, t + 32 + n, 16, linesOf c.base nC⟩] else [])
    spans := [read stat t 16, read strm (t + 16) n, ⟨true, 2, [(0, 1)], t, stop, stop⟩] ++
      (if w.keep then [⟨false, 2, [(0, 1)], t, t + 1, 0⟩] else []) ++
      (if w.commit then [⟨true, 0, [(c.base, c.base + nC)], t + 32 + n, stop, stop⟩] else []) }

/-- A vector instruction (R233, R234): unit 0 of resource 0x05 is the issue stage, unit 1 the write stage. -/
def timedVector (p : PkgIsle) (x : Exp) (gen : Bool) : Timed :=
  let op := wOpcode x.word
  let v := vecWord x.word
  let t := x.off
  let (dst, s1) := (x.tensor p gen 0, x.tensor p gen 1)
  let d := vecCycles op v.fin dst.desc s1.desc
  let w := t + vecDepth op v.func d
  let srcs := (vecReads op).map (fun k => x.tensor p gen k)
  { bare p x with
    ready := w + d, occs := [⟨5, 0, t, t + d⟩, ⟨5, 1, w, w + d⟩]
    touches := srcs.map (fun s => ⟨2, false, t, d, s.lines⟩) ++ [⟨2, true, w, d, dst.lines⟩]
    spans := srcs.map (fun s => ⟨false, 0, s.ranges, t, t + d, 0⟩) ++ [⟨true, 0, dst.ranges, w, w + d, w + d⟩] }

/-- A sieve instruction (R243). -/
def timedSieve (p : PkgIsle) (x : Exp) (gen : Bool) : Timed :=
  let op := wOpcode x.word
  let t := x.off
  let srcs := (sieveReads op x.word).map (x.tensor p gen)
  let dst := x.tensor p gen 2
  let lines := (srcs.map Tensor.lines).flatten
  let dr := cdiv lines.length 2
  let w := t + sieveDelay op lines.length (x.tensor p gen 0).desc.rows
  let stop := w + dst.lines.length
  { bare p x with
    ready := stop, occs := [⟨6, 0, t, stop⟩]
    touches := [⟨3, false, t, dr, lines⟩, ⟨3, true, w, dst.lines.length, dst.lines⟩]
    spans := srcs.map (fun s => ⟨false, 0, s.ranges, t, t + dr, 0⟩) ++ [⟨true, 0, dst.ranges, w, stop, stop⟩] }

/-- A LIFT (R244). -/
def timedLift (im : Image) (p : PkgIsle) (x : Exp) (gen : Bool) : Timed :=
  let t := x.off
  let (src, dst) := (x.tensor p gen 0, x.tensor p gen 1)
  let ws := src.words
  let n := portCycles ws
  let s := if ws.any (imageEnc im p.isle) then t + 24 else t
  { bare p x with
    ready := s + n, occs := ⟨1, 0, t, t + n⟩ :: bankOccs ws t (t + n + 16)
    touches := [⟨0, true, s, n, dst.lines⟩]
    spans := [⟨false, 1, src.ranges, t, t + n, 0⟩, ⟨true, 0, dst.ranges, s, s + n, s + n⟩] }

/-- A LOWER (R245, R246). -/
def timedLower (im : Image) (p : PkgIsle) (x : Exp) (gen : Bool) : Timed :=
  let t := x.off
  let (src, dst) := (x.tensor p gen 0, x.tensor p gen 1)
  let mrg := bit x.word 16
  let ws := dst.words.map (fun o => (o, wordMask dst o))
  let full := (ws.filter (fun w => w.2 == fullMask)).map (fun w => w.1)
  let part := ws.filter (fun w => w.2 != fullMask)
  let held := if mrg then full else ws.map (fun w => w.1)
  let n := if mrg && full.isEmpty then 1 else portCycles held
  let stop := t + n + (if mrg then 0 else 18 * part.length)
  let wide : List Span := if full.isEmpty then [] else
    [⟨true, 1, full.map (fun o => (o, o + 32)), t, t + n, stop + 12⟩]
  let narrow : List Span := if mrg then [] else
    (enum part).map (fun (j, w) => ⟨true, 1, maskRanges w.1 w.2, t + n + 18 * j, t + n + 18 * j + 18, stop + 12⟩)
  { bare p x with
    ready := stop + 12, occs := ⟨1, 0, t, stop⟩ :: bankOccs held t (stop + 16)
    touches := [⟨0, false, t, n, src.lines⟩]
    spans := ⟨false, 0, src.ranges, t, t + n, 0⟩ :: (wide ++ narrow)
    merges := if mrg then part else []
    narrow := !part.isEmpty && ws.any (fun w => imageEnc im p.isle w.1) }

/-- A causeway or harbour transfer (R247, R248, R250, R251, R864). -/
def timedLink (im : Image) (p : PkgIsle) (x : Exp) (gen : Bool) : Timed :=
  let op := wOpcode x.word
  let t := x.off
  let d := x.tensor p gen 0
  let m := cdiv d.desc.bytes 64
  let route := routeIn im (wRoute x.word)
  let harbour := op == 0x51 || op == 0x61
  let lat := if harbour then 96 else ((route.map Route.latency).getD 96)
  let segs := ((route.map (fun r => r.segs)).getD []).map (fun g => (⟨9, g, t, t + m + lat⟩ : Occ))
  let base := { bare p x with routed := route.isSome }
  if op == 0x50 || op == 0x51 then
    { base with
      ready := t + m, occs := ⟨7, 0, t, t + m⟩ :: segs, touches := [⟨4, false, t, m, d.lines⟩]
      spans := [⟨false, 0, d.ranges, t, t + m, 0⟩] }
  else
    let s := if harbour then t + 96 else t
    { base with
      ready := s + m, occs := ⟨8, 0, s, s + m⟩ :: (if harbour then segs else []), touches := [⟨5, true, s, m, d.lines⟩]
      spans := [⟨true, 0, d.ranges, s, s + m, s + m⟩] }

/-- The slice ranges of a stream of a command, in every addressed bank. -/
def streamRanges (c : NbuCmd) (n : Nat) : List (Nat × Nat) :=
  c.bankList.map (fun b => (bankOffset b (c.addr n 0), bankOffset b (c.addr n 0) + 32 * c.words))

/-- A FERRY (R254, R364). -/
def timedFerry (im : Image) (p : PkgIsle) (x : Exp) (gen : Bool) : Timed :=
  let t := x.off
  let (bank, arg, res) := (x.tensor p gen 0, x.tensor p gen 1, x.tensor p gen 2)
  let c := ferryForm x.word (bank.base % 2 ^ 23) (bank.desc.bytes / 32)
  let n := ferryIssue (nbuArgBytes c.op)
  let stop := t + n + c.opCycles
  let rt := c.resultCycles
  let banks := c.bankList.map (fun b => (⟨2, b.1 * 8 + b.2, t, stop⟩ : Occ))
  let words := ((List.range (nbuStreams c.op)).map (fun k => (List.range c.words).map (fun j => c.addr k j))).flatten
  let hasArg := nbuArgBytes c.op != 0
  { bare p x with
    inPlace := bit x.word 81, ready := if c.resEn then stop + rt else stop
    occs := [⟨0xA, 0, t, t + n⟩] ++ banks ++ (if c.resEn then [⟨0xA, 0, stop, stop + rt⟩] else [])
    touches := (if hasArg then [⟨6, false, t, n, arg.lines⟩] else []) ++
      (if c.resEn then [⟨6, true, stop, rt, res.lines⟩] else [])
    spans := c.reads.map (fun k => ⟨false, 1, streamRanges c k, t, stop, 0⟩) ++
      c.writes.map (fun k => ⟨true, 1, streamRanges c k, t, stop, stop⟩) ++
      (if hasArg then [⟨false, 0, arg.ranges, t, t + n, 0⟩] else []) ++
      (if c.resEn then [⟨true, 0, res.ranges, stop, stop + rt, stop + rt⟩] else [])
    sealed_ := c.bankList.any (fun b => words.any (fun a => !imageOpen im p.isle (bankOffset b a))) }

/-- A launch with all that it does, for one value of G. -/
def timed (im : Image) (p : PkgIsle) (gen : Bool) (x : Exp) : Timed :=
  let op := wOpcode x.word
  if isPass op then timedPass p x gen
  else if isVector op then timedVector p x gen
  else if isSieve op then timedSieve p x gen
  else if op == 0x40 then timedLift im p x gen
  else if op == 0x41 then timedLower im p x gen
  else if isLink op then timedLink im p x gen
  else if op == 0x70 then timedFerry im p x gen
  else bare p x

/-! The merge buffer (R73 to R76). -/

/-- An entry: its code word, its mask, its first and last writes, its trigger cycle, and who wrote which bytes of it. -/
structure Pending where
  word : Nat
  mask : Nat
  first : Nat
  last : Nat
  trig : Nat
  from_ : List (Nat × Nat)
  deriving DecidableEq, Repr

/-- An entry with the cycles [a, b) in which its commit holds the slice port. -/
structure Commit where
  entry : Pending
  a : Nat
  b : Nat
  deriving DecidableEq, Repr

/-- A narrow write that arrives: into its word's entry, or as a new entry, which triggers the oldest of 16. -/
def admitWrite (t word mask who : Nat) (es : List Pending) : List Pending :=
  if es.any (fun e => e.word == word) then
    es.map (fun e =>
      if e.word != word then e
      else
        let m := e.mask.lor mask
        { e with mask := m, last := t, trig := if m == fullMask then Nat.min e.trig (t + 1) else e.trig, from_ := e.from_ ++ [(who, mask)] })
  else
    let es := match es with
      | e :: r => if 16 ≤ es.length then { e with trig := Nat.min e.trig t } :: r else es
      | [] => []
    es ++ [⟨word, mask, t, t, t + 256, [(who, mask)]⟩]

/-- The entry that commits next: the lowest trigger, then the earliest first write. -/
def nextEntry : List Pending → Option Pending
  | [] => none
  | e :: es =>
    match nextEntry es with
    | none => some e
    | some f => if f.trig < e.trig || (f.trig == e.trig && f.first < e.first) then some f else some e

/-- The first cycle at or after `c` from which a commit of `len` cycles meets R75. -/
def freeFrom (busy host : List (Nat × Nat)) (len c : Nat) : Nat :=
  let ok := fun c => busy.all (fun i => decide (c + len ≤ i.1) || decide (i.2 ≤ c)) &&
    host.all (fun i => decide (c + len + 16 ≤ i.1) || decide (i.2 ≤ c))
  let cs := c :: ((busy ++ host).map (fun i => i.2)).filter (fun e => decide (c ≤ e))
  match cs.filter ok with
  | [] => c
  | k :: ks => ks.foldl Nat.min k

/-- The commits of a slice in order, from narrow writes (cycle, word, mask, who) in order of arrival. No entry commits in a cycle in
which it has taken a write, nor before (R73). -/
def commits (busy host : List (Nat × Nat)) : Nat → Nat → List Pending → List (Nat × Nat × Nat × Nat) → List Commit
  | 0, _, _, _ => []
  | n + 1, last, es, ws =>
    match nextEntry es, ws with
    | none, [] => []
    | none, (t, o, m, who) :: ws => commits busy host n last (admitWrite t o m who es) ws
    | some e, ws =>
      let len := if e.mask == fullMask then 1 else 18
      let c := freeFrom busy host len (Nat.max (Nat.max e.trig last) (e.last + 1))
      let now := match ws with
        | [] => true
        | (t, _) :: _ => decide (c ≤ t)
      if now then ⟨e, c, c + len⟩ :: commits busy host n (c + len) (es.erase e) ws
      else
        match ws with
        | [] => []
        | (t, o, m, who) :: ws => commits busy host n last (admitWrite t o m who es) ws

/-- The timetable of one isle for one value of G: its launches in order and its commits. -/
structure Table where
  isle : Nat
  resident : Nat
  host : List (Nat × Nat)
  launches : List Timed
  commits : List Commit
  deriving DecidableEq, Repr

def tableOf (im : Image) (p : PkgIsle) (gen : Bool) : Table :=
  let ls := (launchesOf p.words).map (timed im p gen)
  let busy := ((ls.map (fun l => l.occs)).flatten.filter (fun o => o.res == 1)).map (fun o => (o.a, o.b))
  let ws := ((enum ls).map (fun (k, l) => l.merges.map (fun m => (l.t0, m.1, m.2, k)))).flatten
  ⟨p.isle, p.resident.length, p.hostInts, ls, commits busy p.hostInts (2 * ws.length + 1) 0 [] ws⟩

/-- The word whose write opened a commit's entry. -/
def Table.opener (t : Table) (c : Commit) : Nat :=
  match c.entry.from_ with
  | (k, _) :: _ => ((t.launches[k]?).map (fun l => l.index)).getD 0
  | [] => 0

end Sys2Proof.Machine
end

