-- ==== Sys2Proof/Machine/Checks.lean ====
section
/-!
DEFINITION. The checks of a schedule package in order (R100, R81 to R83, R90, R863), and the end of the checking (R105, R106).
Of several breaches of one check the lowest isle is reported, then the earliest cycle, then the lowest word.
-/
namespace Sys2Proof.Machine

/-! Breaches. -/

/-- Whether a breach is reported before another: lower isle, earlier cycle, lower word, lower resource code. -/
def SchedBreach.before (x y : SchedBreach) : Bool :=
  let key := fun (z : SchedBreach) => ((z.isle * 2 ^ 28 + Nat.min z.cycle (2 ^ 28 - 1)) * 2 ^ 16 + z.index) * 16 + z.resource
  decide (key x < key y)

/-- The breach that is reported. -/
def worstBreach : List SchedBreach → Option SchedBreach
  | [] => none
  | x :: xs =>
    match worstBreach xs with
    | none => some x
    | some y => if y.before x then some y else some x

/-- A breach at a launch. -/
def Timed.breach (l : Timed) (code cycle : Nat) (resource : Nat := 0) : SchedBreach := ⟨code, l.isle, l.index, cycle, resource⟩

/-- The breaches of each launch of a table. -/
def eachLaunch (ts : List Table) (f : Timed → List SchedBreach) : List SchedBreach :=
  (ts.map (fun t => (t.launches.map f).flatten)).flatten

/-- FRAME_BUDGET (R41, R75): nothing is held, launched or ready past F. -/
def budgetBreaches (fore : Nat) (ts : List Table) : List SchedBreach :=
  eachLaunch ts (fun l =>
    (l.occs.filter (fun o => decide (fore < o.b))).map (fun o => l.breach 4 (Nat.max o.a fore) o.res) ++
    (if fore ≤ l.t0 || fore < l.ready then [l.breach 4 (Nat.max l.t0 fore)] else [])) ++
  (ts.map (fun t => (t.commits.filter (fun c => decide (fore < c.b + 16))).map (fun c =>
    (⟨4, t.isle, t.opener c, Nat.max c.a fore, if fore < c.b then 1 else 2⟩ : SchedBreach)))).flatten

/-- PASS_LENGTH (R171). -/
def passBreaches (ts : List Table) : List SchedBreach :=
  eachLaunch ts (fun l => if 4096 < 48 + l.cycles then [l.breach 5 l.t0] else [])

/-! RESOURCE (R66). -/

/-- A use of one resource: its interval and where it is reported. -/
structure Use where
  a : Nat
  b : Nat
  isle : Nat
  index : Nat
  deriving DecidableEq, Repr

/-- The uses, in order of their starts, that begin while an earlier one holds the resource. -/
def overlaps (code res : Nat) : Nat → List Use → List SchedBreach
  | _, [] => []
  | held, u :: us =>
    (if u.a < held then [⟨code, u.isle, u.index, u.a, res⟩] else []) ++ overlaps code res (Nat.max held u.b) us

def sortUses (us : List Use) : List Use :=
  sortList (fun x y => decide (x.a < y.a)) 64 (us.filter (fun u => decide (u.a < u.b)))

/-- The uses that launches make of one resource. -/
def usesOf (ls : List Timed) (res unit : Nat) : List Use :=
  (ls.map (fun l => (l.occs.filter (fun o => o.res == res && o.unit == unit)).map (fun o => (⟨o.a, o.b, l.isle, l.index⟩ : Use)))).flatten

/-- The resources of one isle, but for banks, lagoon ports, segments and the merge buffer, each with its parts. -/
def isleResources : List (Nat × Nat) := [(1, 0), (4, 0), (5, 0), (5, 1), (6, 0), (7, 0), (8, 0), (0xA, 0)]

/-- Uses that meet a host interval, each reported at its word (R66, R93). -/
def hostMeets (code res : Nat) (t : Table) (us : List Use) : List SchedBreach :=
  (t.host.map (fun h => (us.filter (fun u => decide (u.a < h.2) && decide (h.1 < u.b))).map (fun u =>
    (⟨code, u.isle, u.index, Nat.max u.a h.1, res⟩ : SchedBreach)))).flatten

/-- The uses of the slice port by merge commits, and of banks. -/
def commitPort (t : Table) : List Use := t.commits.map (fun c => ⟨c.a, c.b, t.isle, t.opener c⟩)
def commitBank (t : Table) : List Use := t.commits.map (fun c => ⟨c.a, c.b + 16, t.isle, t.opener c⟩)

/-- Conflicts on the units of one isle, host intervals among the users of the slice port; on a bank, of two FERRYs. -/
def unitBreaches (t : Table) : List SchedBreach :=
  hostMeets 6 1 t (usesOf t.launches 1 0 ++ commitPort t) ++
  (isleResources.map (fun r => overlaps 6 r.1 0 (sortUses (usesOf t.launches r.1 r.2)))).flatten ++
  ((List.range 64).map (fun k =>
    overlaps 6 2 0 (sortUses (usesOf (t.launches.filter (fun l => l.op == 0x70)) 2 k)))).flatten

/-- The segments that launches use, each once. -/
def segmentsOf (ls : List Timed) : List Nat :=
  ((ls.map (fun l => (l.occs.filter (fun o => o.res == 9)).map (fun o => o.unit))).flatten).eraseDups

/-- Conflicts on route segments: within the package, and with the launches of other archipelagos (R863). -/
def segmentBreaches (ts : List Table) (others : List Timed) : List SchedBreach :=
  let ls := (ts.map (fun t => t.launches)).flatten
  ((segmentsOf ls).map (fun g =>
    let mine := usesOf ls 9 g
    let theirs := usesOf others 9 g
    overlaps 6 9 0 (sortUses mine) ++
      (mine.map (fun u => (theirs.filter (fun v => decide (u.a < v.b) && decide (v.a < u.b))).map (fun v =>
        (⟨6, u.isle, u.index, Nat.max u.a v.a, 9⟩ : SchedBreach)))).flatten)).flatten

/-- The lines a requester reads, and writes, in a cycle (R119). -/
def lineLimit (req : Nat) (write : Bool) : Nat :=
  match req with
  | 0 => 7
  | 1 => 16
  | 2 => if write then 4 else 8
  | 3 => if write then 1 else 2
  | _ => 1

/-- A line touched: the cycle, the key in which it competes, and the word. -/
structure Cell where
  cycle : Nat
  key : Nat
  index : Nat
  deriving DecidableEq, Repr

/-- The cells that share a cycle and a key with more than `lim` - 1 others. -/
def crowded (lim : Nat) (cs : List Cell) : List Cell :=
  let num := fun (c : Cell) => (c.cycle * 64 + c.key) * 2 ^ 16 + c.index
  let s := sortList (fun x y => decide (num x < num y)) 64 cs
  ((s.zip (s.drop lim)).filter (fun p => p.1.cycle == p.2.cycle && p.1.key == p.2.key)).map (fun p => p.1)

/-- The lines touched by accesses of one direction, and requester if one is given, keyed by bank or not at all. -/
def cellsOf (t : Table) (write : Bool) (req : Option Nat) : List Cell :=
  (t.launches.map (fun l =>
    ((l.touches.filter (fun x => x.write == write && (req.isNone || req == some x.req))).map (fun x =>
      x.cells.map (fun c => (⟨c.1, if req.isNone then c.2 % 32 else 0, l.index⟩ : Cell)))).flatten)).flatten

/-- Conflicts on the lagoon (R117, R120, R225). -/
def lagoonBreaches (t : Table) : List SchedBreach :=
  ([false, true].map (fun w =>
    let banks := crowded 1 (cellsOf t w none)
    let lines := ((List.range 7).map (fun r => crowded (lineLimit r w) (cellsOf t w (some r)))).flatten
    (banks ++ lines).map (fun c => (⟨6, t.isle, c.index, c.cycle, 3⟩ : SchedBreach)))).flatten

/-- A merge buffer that holds more than 16 entries (R74). -/
def mergeBreaches (t : Table) : List SchedBreach :=
  (t.commits.filter (fun c =>
    decide (16 < (t.commits.filter (fun d => decide (d.entry.first ≤ c.entry.first) && decide (c.entry.first < d.a))).length))).map
    (fun c => ⟨6, t.isle, t.opener c, c.entry.first, 0xC⟩)

def resourceBreaches (ts : List Table) (others : List Timed) : List SchedBreach :=
  (ts.map (fun t => unitBreaches t ++ lagoonBreaches t ++ mergeBreaches t)).flatten ++ segmentBreaches ts others

/-! BANK_OWNER (R21). -/

/-- A bank held by the slice controller, or by its NBU where `nbu`. -/
structure Hold where
  use : Use
  nbu : Bool
  deriving DecidableEq, Repr

/-- The holds, in order of their starts, that begin while the other agent holds the bank. -/
def ownerClashes : Nat → Nat → List Hold → List SchedBreach
  | _, _, [] => []
  | slc, nbu, h :: hs =>
    (if h.use.a < (if h.nbu then slc else nbu) then [⟨7, h.use.isle, h.use.index, h.use.a, 2⟩] else []) ++
      ownerClashes (if h.nbu then slc else Nat.max slc h.use.b) (if h.nbu then Nat.max nbu h.use.b else nbu) hs

def holdsOf (t : Table) (bank : Nat) : List Hold :=
  (t.launches.map (fun l => (usesOf [l] 2 bank).map (fun u => (⟨u, l.op == 0x70⟩ : Hold)))).flatten ++
  ((t.commits.filter (fun c => c.entry.word / 2 ^ 23 == bank)).map (fun c => ⟨⟨c.a, c.b + 16, t.isle, t.opener c⟩, false⟩))

/-- The banks that FERRYs hold: in a host interval the slice controller owns them all (R93). -/
def ferryHolds (t : Table) : List Use :=
  ((List.range 64).map (fun k => usesOf (t.launches.filter (fun l => l.op == 0x70)) 2 k)).flatten

def ownerBreaches (ts : List Table) : List SchedBreach :=
  (ts.map (fun t => hostMeets 7 2 t (ferryHolds t) ++ ((List.range 64).map (fun k =>
    ownerClashes 0 0 (sortList (fun x y => decide (x.use.a < y.use.a)) 64 (holdsOf t k)))).flatten)).flatten

/-- ROUTE (R864). -/
def noRouteBreaches (ts : List Table) : List SchedBreach := eachLaunch ts (fun l => if l.routed then [] else [l.breach 8 l.t0 9])

/-! OPERAND, HAZARD, REPLAY and RESIDENT: bytes. -/

/-- Bytes accessed by a launch, or by a commit for the launch that wrote them: which of the table's launches it is of, or which of
its commits, and whether it is IN_PLACE. -/
structure ByteUse where
  span : Span
  t0 : Nat
  isle : Nat
  index : Nat
  who : Option Nat
  commit : Option Nat
  inPlace : Bool
  deriving DecidableEq, Repr

/-- Every access of an isle. A lower's bytes in the merge buffer have that lower as their writer, and the commit's ready cycle
(R76, R81). -/
def accessesOf (t : Table) : List ByteUse :=
  ((enum t.launches).map (fun (k, l) => l.spans.map (fun s => (⟨s, l.t0, l.isle, l.index, some k, none, l.inPlace⟩ : ByteUse)))).flatten ++
  ((enum t.commits).map (fun (n, c) => c.entry.from_.filterMap (fun (k, m) =>
    (t.launches[k]?).map (fun l =>
      (⟨⟨true, 1, maskRanges c.entry.word m, c.a, c.b, c.b + 12⟩, l.t0, l.isle, l.index, none, some n, false⟩ : ByteUse))))).flatten

/-- Whether two lists of ranges share a byte. -/
def shareByte (x y : List (Nat × Nat)) : Bool := x.any (fun a => y.any (fun b => decide (a.1 < b.2) && decide (b.1 < a.2)))

/-- Ranges less one range, and less a list of ranges. -/
def cutRange (b : Nat × Nat) (x : List (Nat × Nat)) : List (Nat × Nat) :=
  (x.map (fun a => [(a.1, Nat.min a.2 b.1), (Nat.max a.1 b.2, a.2)].filter (fun r => decide (r.1 < r.2)))).flatten

def cutRanges (x y : List (Nat × Nat)) : List (Nat × Nat) := y.foldl (fun r b => if shareByte r [b] then cutRange b r else r) x

/-- Whether a last writer is not ready, and the bytes that no writer of those listed, latest first, has written (R81). -/
def lateOrUnwritten (start : Nat) : List ByteUse → List (Nat × Nat) → Bool × List (Nat × Nat)
  | [], rem => (false, rem)
  | w :: ws, rem =>
    if rem.isEmpty then (false, [])
    else if !shareByte rem w.span.ranges then lateOrUnwritten start ws rem
    else if start < w.span.ready then (true, rem)
    else lateOrUnwritten start ws (cutRanges rem w.span.ranges)

/-- Whether a read finds every byte ready: the latest writer launched before it is ready by its start, and lagoon bytes outside
the descriptor table and the resident area, and the output buffer, have been written in the frame (R81, R83, R167). -/
def operandReady (t : Table) (writers : List ByteUse) (r : ByteUse) : Bool :=
  let ws := writers.filter (fun w => w.span.space == r.span.space && decide (w.t0 < r.t0))
  let (late, rem) := lateOrUnwritten r.t0 ws r.span.ranges
  let open_ := if r.span.space == 1 then [] else if r.span.space == 0 then cutRanges rem [(0, 0x2000 + t.resident)] else rem
  !late && open_.isEmpty

/-- OPERAND. -/
def operandBreaches (ts : List Table) : List SchedBreach :=
  (ts.map (fun t =>
    let as_ := accessesOf t
    let writers := sortList (fun x y => decide (y.t0 < x.t0) || (x.t0 == y.t0 && decide (y.span.ready < x.span.ready))) 64
      (as_.filter (fun x => x.span.write))
    ((as_.filter (fun x => !x.span.write && !operandReady t writers x)).map (fun r => (⟨9, r.isle, r.index, r.t0, 0⟩ : SchedBreach))))).flatten

/-- Whether two accesses, one of them a write, are of different instructions and share bytes and cycles: whole intervals and whole
ranges, not the cycle in which each line is touched (DESIGN CHOICE). Writes that merged into one entry are one write (R73). -/
def ByteUse.clashes (x y : ByteUse) : Bool :=
  (x.span.write || y.span.write) && x.span.space == y.span.space && (x.who.isNone || x.who != y.who) && (x.commit.isNone || x.commit != y.commit)
    && decide (x.span.a < y.span.b) && decide (y.span.a < x.span.b) && shareByte x.span.ranges y.span.ranges

/-- The accesses, in order of their starts, that clash with one begun before. -/
def hazards : List ByteUse → List ByteUse → List SchedBreach
  | _, [] => []
  | live, x :: xs =>
    let live := live.filter (fun y => decide (x.span.a < y.span.b))
    (if live.any (fun y => x.clashes y) then [⟨0xA, x.isle, x.index, x.span.a, 0⟩] else []) ++ hazards (x :: live) xs

/-- HAZARD. -/
def hazardBreaches (ts : List Table) : List SchedBreach :=
  (ts.map (fun t => hazards [] (sortList (fun x y => decide (x.span.a < y.span.a)) 64 (accessesOf t)))).flatten

/-- NARROW (R77) and REGION (R364). -/
def narrowBreaches (ts : List Table) : List SchedBreach := eachLaunch ts (fun l => if l.narrow then [l.breach 0xB l.t0] else [])
def sealedBreaches (ts : List Table) : List SchedBreach := eachLaunch ts (fun l => if l.sealed_ then [l.breach 0xC l.t0] else [])

/-- The launch time and word of the first access of a list. -/
def firstAccess : List ByteUse → Option (Nat × Nat)
  | [] => none
  | x :: xs =>
    match firstAccess xs with
    | none => some (x.t0, x.index)
    | some y => if y.1 < x.t0 || (y.1 == x.t0 && y.2 < x.index) then some y else some (x.t0, x.index)

/-- What is wrong with one slice byte that is read and written (R90): none, or its first read. -/
def replayBreach (as_ : List ByteUse) (byte : Nat) : Option (Nat × Nat) :=
  let here := as_.filter (fun x => x.span.ranges.any (fun r => decide (r.1 ≤ byte) && decide (byte < r.2)))
  match firstAccess (here.filter (fun x => !x.span.write)), firstAccess (here.filter (fun x => x.span.write)) with
  | some r, some w => if w.1 < r.1 || here.all (fun x => x.inPlace) then none else some r
  | _, _ => none

/-- REPLAY: judged at each byte where a range begins or ends, since the accesses of a byte change nowhere else. -/
def replayBreaches (ts : List Table) : List SchedBreach :=
  (ts.map (fun t =>
    let as_ := (accessesOf t).filter (fun x => x.span.space == 1)
    let points := ((as_.map (fun x => (x.span.ranges.map (fun r => [r.1, r.2])).flatten)).flatten).eraseDups
    points.filterMap (fun b => (replayBreach as_ b).map (fun r => (⟨0xD, t.isle, r.2, r.1, 0⟩ : SchedBreach))))).flatten

/-- HOST_INTERVAL (R100): what RESOURCE and BANK_OWNER leave of it is a bank that the slice controller still holds. -/
def hostBreaches (ts : List Table) : List SchedBreach :=
  (ts.map (fun t =>
    let banks := (t.launches.map (fun l => (l.occs.filter (fun o => o.res == 2)).map (fun o => (⟨o.a, o.b, l.isle, l.index⟩ : Use)))).flatten
    hostMeets 0xE 1 t (usesOf t.launches 1 0 ++ commitPort t) ++ hostMeets 0xE 2 t (banks ++ commitBank t))).flatten

/-- RESIDENT (R82). -/
def residentBreaches (ts : List Table) : List SchedBreach :=
  (ts.map (fun t => ((accessesOf t).filter (fun x =>
    x.span.write && x.span.space == 0 && shareByte x.span.ranges [(0, 0x2000 + t.resident)])).map (fun x =>
      (⟨0xF, x.isle, x.index, x.span.a, 0⟩ : SchedBreach)))).flatten

/-! The checks in order. -/

/-- The first check that fails over the timetables of both values of G; `tss` are the two lists of tables. -/
def checkTables (fore : Nat) (others : List Timed) (tss : List (List Table)) : Option SchedBreach :=
  let checks : List (List Table → List SchedBreach) := [budgetBreaches fore, passBreaches, fun ts => resourceBreaches ts others,
    ownerBreaches, noRouteBreaches, operandBreaches, hazardBreaches, narrowBreaches, sealedBreaches, replayBreaches, hostBreaches,
    residentBreaches]
  checks.findSome? (fun f => worstBreach ((tss.map f).flatten))

/-- The launches of every schedule installed for another archipelago, as though each ran (R863). -/
def otherLaunches (s : State) (a : Nat) : List Timed :=
  match s.image with
  | none => []
  | some im =>
    (((List.range 32).filter (fun b => b != a && s.flag (R.FRV_ARCH_STATE_INSTALLED.at [b]))).map (fun b =>
      ((islesOf s b).map (fun i =>
        let v := s.isle i
        let p : PkgIsle := ⟨i, v.program, v.descs, [], v.hostInts⟩
        (((launchesOf v.program).filter (fun x => isLink (wOpcode x.word))).map (timed im p false)))).flatten)).flatten

/-- F of the image a package is judged against, or its F_CYCLES where there is none. -/
def packageFore (j : SchedJob) (d : List Nat) : Nat :=
  match j.image with
  | some im => im.fore
  | none => leAt d 0x0C 4

/-- Checks 0x02 to 0x0F of a package of good form. -/
def checkContents (s : State) (j : SchedJob) (d : List Nat) : Option SchedBreach :=
  if !pkgDigestOk d then some { code := 2 }
  else if !pkgMatches j d then some { code := 3 }
  else
    match j.image with
    | none => some { code := 3 }
    | some im =>
      checkTables (packageFore j d) (otherLaunches s j.arch) ([false, true].map (fun g => (pkgIsles d).map (fun p => tableOf im p g)))

/-- Checks 0x01 to 0x0F of what was fetched: none where the fetch failed (R100). -/
def checkPackage (s : State) (j : SchedJob) (fetched : Option (List Nat)) : Option SchedBreach :=
  match fetched with
  | none => some { code := 1 }
  | some d => (checkFormat j.image j.arch (packageFore j d) d).orElse (fun _ => checkContents s j d)

/-- The rest of a package is read from host memory, once its header is found in order (R103). -/
def fetchRest (j : SchedJob) (fetched : Option (List Nat)) (s : State) : State :=
  match fetched with
  | some d => if pkgHeaderOk d j.arch then s.emit (.hostRead 0 (j.addr + 128) (leAt d 0x18 8 - 128)) else s
  | none => s

/-- SCHEDULE_CHECK_END: the loader ends its checks of the package it fetched, refusing it or letting it take over at the next
boundary, or at once while no local frames run (R100 to R106). -/
def execScheduleCheckEnd (fetched : Option (List Nat)) (s : State) : Result :=
  .next (
    match s.sched with
    | none => s
    | some j =>
      if j.accepted.isSome || j.installing then s
      else inOneCycle (fun s =>
        let s := fetchRest j fetched s
        if j.touched then refuseLoad j.arch { code := 3 } s
        else
          match checkPackage s j fetched with
          | some x => refuseLoad j.arch x s
          | none =>
            let s := { s with sched := some { j with accepted := some (pkgIsles (fetched.getD [])) } }
            if s.frame.running then s else takeOver s) s)

end Sys2Proof.Machine
end

