-- ==== Sys2Proof/Machine/Events.lean ====
section
/-!
DEFINITION. Commands on the event log: EVENT records (R818), UNFREEZE (R816) and FATAL_VALID (R817).
-/
namespace Sys2Proof.Machine

/-- EVENT_PERSIST: 100 ms have passed since the last EVENT record: the entries that wait go into the next (R818). -/
def execEventPersist (s : State) : Result :=
  .next (
    if keelState s = keelUnmounted then s
    else if s.log.persist.isEmpty then { s with log := { s.log with spacing := false } }
    else persistRecord s)

/-- EVENT_UNFREEZE: EVT_CTRL written with UNFREEZE = 1 (R816). -/
def execEventUnfreeze (w : Nat) (s : State) : Result :=
  .next (
    if !decodes s 0 || !domainOn s 0 then s
    else
      let s := writeRest 0 R.EVT_CTRL_UNFREEZE.addr w s
      if s.flag R.EVT_STATUS_FROZEN then s.set R.EVT_STATUS_FROZEN 0
      else { s with log := { s.log with freezeLeft := none } })

/-- FATAL_VALID_CLEAR: 1 written to FATAL_VALID (R817). -/
def execFatalValidClear (s : State) : Result := .next (if decodes s 0 then s.set R.EVT_STATUS_FATAL_VALID 0 else s)

end Sys2Proof.Machine
end

