-- ==== Sys2Proof/Machine/Pilot.lean ====
section
/-!
DEFINITION. The pilot complex: the cache directory (R773 to R778), the mailbox (R784 to R789), the management endpoint (R790 to
R804) and the TAP (R805 to R808).
-/
namespace Sys2Proof.Machine

def State.setPil (s : State) (p : Pilots) : State := { s with pil := p }

/-! The directory. -/

def cacheLine (s : State) (n : Nat) : CacheLine := KMap.get {} s.pil.lines n
def setLine (n : Nat) (v : CacheLine) (s : State) : State := s.setPil { s.pil with lines := KMap.put {} s.pil.lines n v }

/-- OWNERSHIP_REQUEST: a core asks for a line at a pilot cycle; `wb` is the core whose write-back of the line is then in flight
(R775, R778). -/
def execOwnershipRequest (core line cycle : Nat) (wb : Option Nat) (s : State) : Result :=
  .next (
    let v := cacheLine s line
    if !domainOn s 0 || core ≥ 8 || v.owner == some core || v.requests.any (fun r => r.1 == core) || v.order.contains core then s
    else
      let v := match wb with
        | some c => if c < 8 && c != core then
            { v with writeBack := some c, owner := if v.owner == some c then none else v.owner } else v
        | none => v
      setLine line { v with requests := v.requests ++ [(core, cycle)] } s)

/-- Requesters in the order of the rotating pointer (R776). -/
def rotate (pointer : Nat) (cores : List Nat) : List Nat :=
  ((List.range 8).map (fun k => (pointer + k) % 8)).filter (fun c => cores.contains c)

/-- A case of R777: two cores ask in one cycle while a third core's write-back is in flight. -/
def isRace (v : CacheLine) : Bool :=
  v.writeBack.isSome && v.requests.length == 2 && v.requests.all (fun r => v.requests.all (fun q => r.2 == q.2))

/-- One round of the directory at one line: pending requests are ordered and the first is served; or the holder gives the line
up; or the next requester receives it. The answer says whether a case of R777 ended, and in how many rounds. -/
def lineRound (v : CacheLine) : CacheLine × Option Nat :=
  match v.order with
  | [] =>
    if v.requests.isEmpty then (v, none)
    else
      let race := isRace v
      let order := rotate v.pointer (v.requests.map (fun r => r.1))
      let first := order.headD 0
      let v := { v with pointer := (first + 1) % 8, requests := [], writeBack := none, race := race, rounds := 1 }
      if v.owner.isSome then ({ v with order := order }, none)
      else ({ v with owner := some first, order := order.drop 1 }, none)
  | next :: rest =>
    let v := { v with rounds := v.rounds + 1 }
    if v.owner.isSome then ({ v with owner := none }, none)
    else
      let v := { v with owner := some next, order := rest }
      if rest.isEmpty && v.race then ({ v with race := false }, some v.rounds) else (v, none)

/-- DIRECTORY_ROUND: 5 ns of the directory, with at most one ordering decision per line (R775 to R778). -/
def execDirectoryRound (s : State) : Result :=
  .next (
    if !domainOn s 0 then s
    else s.pil.lines.foldl (fun t e =>
      let (v, ended) := lineRound e.2
      let t := setLine e.1 v t
      match ended with
      | some n =>
        let t := t.count R.PIL_COH_RACES
        t.set R.PIL_COH_MAX_ROUNDS (Nat.max n (t.get R.PIL_COH_MAX_ROUNDS))
      | none => t) s)

/-! The mailbox. -/

def mbxOk : Nat := 0
def mbxBadOpcode : Nat := 1
def mbxBadArg : Nat := 2
def mbxVerify : Nat := 3
def mbxRollback : Nat := 4
def mbxExhausted : Nat := 5
def mbxRefused : Nat := 6
def mbxKeel : Nat := 7

/-- PIL_MBX_CMD written with START (R784). -/
def mailboxStart (op : Nat) (s : State) : State :=
  if !decodes s 0 || !domainOn s 0 then s
  else if s.flag R.PIL_MBX_STATUS_BUSY then s.set R.PIL_MBX_STATUS_OVERRUN 1
  else
    let arg := ((List.range 64).map (fun w => le 4 (s.get (R.PIL_MBX_ARG_BYTES.at [w])))).flatten
    let c : MbxCmd := ⟨op % 256, arg, s.get R.PIL_MBX_ADDR_ADDR * 2 ^ 12⟩
    let s := ((s.set R.PIL_MBX_CMD_OPCODE op).set R.PIL_MBX_STATUS_BUSY 1).setPil { s.pil with cmd := some c }
    if c.opcode = 2 && decide (leAt arg 0 4 ≤ 2 ^ 23) then s.emit (.hostRead 0 c.addr (leAt arg 0 4)) else s

/-- GET_INFO: opcode 0x01 started. -/
def execGetInfo (s : State) : Result := .next (mailboxStart 1 s)
/-- FW_UPDATE: opcode 0x02 started; the image is read from host memory (R787). -/
def execFwUpdate (s : State) : Result := .next (mailboxStart 2 s)
/-- FW_COMMIT_FLOOR: opcode 0x03 started. -/
def execFwCommitFloor (s : State) : Result := .next (mailboxStart 3 s)
/-- KEY_ENROLL: opcode 0x04 started. -/
def execKeyEnroll (s : State) : Result := .next (mailboxStart 4 s)
/-- MAILBOX_BAD_OPCODE: another opcode started (R786). -/
def execMailboxBadOpcode (op : Nat) (s : State) : Result := .next (mailboxStart op s)

/-- The response bytes, with zeros after them. -/
def setResponse (bs : List Nat) (s : State) : State :=
  (List.range 64).foldl (fun t w => t.set (R.PIL_MBX_RSP_BYTES.at [w]) (leAt bs (4 * w) 4)) s

/-- The SEC_VERSION of the firmware that runs. -/
def runningVersion (s : State) : Nat :=
  if s.flag R.PIL_FW_ACTIVE then s.get R.PIL_FW_VERSION_B else s.get R.PIL_FW_VERSION_A

/-- The inactive slot (R787): its register, and the state with what the keel device holds in it. -/
def setInactive (v : Option Nat) (s : State) : State :=
  if s.flag R.PIL_FW_ACTIVE then (s.set R.PIL_FW_VERSION_A (v.getD 0xFFFF)).setPil { s.pil with fwA := v }
  else (s.set R.PIL_FW_VERSION_B (v.getD 0xFFFF)).setPil { s.pil with fwB := v }

/-- Whether a firmware slot is still being written (R783). -/
def firmwareGoing (s : State) : Bool :=
  match s.pil.fw with
  | some w => decide (w.written < w.chunks)
  | none => false

/-- An image in order is to be written into the inactive slot, which holds none that verifies from now on (R783, R787). -/
def beginFirmware (c : MbxCmd) (v : Nat) (s : State) : State :=
  let n := leAt c.arg 0 4
  let s := setInactive none s
  s.setPil { s.pil with fw := some { version := v % 2 ^ 16, blocks := cdiv n 4096, chunks := cdiv n 32 } }

/-- What FW_UPDATE is refused with before anything is written (R786, R787); `image` is the image's SEC_VERSION where its signature
holds. -/
def firmwareRefused (c : MbxCmd) (image : Option Nat) (s : State) : Option Nat :=
  if 2 ^ 23 < leAt c.arg 0 4 then some mbxBadArg
  else
    match image with
    | none => some mbxVerify
    | some v => if v < s.fuses.fwFloor then some mbxRollback else if keelState s = keelFailed then some mbxKeel else none

/-- What FW_UPDATE comes to once its slot is written and read back (R787); `back` says that what is read back verifies. -/
def firmwareUpdate (back : Bool) (s : State) : Nat × State :=
  match s.pil.fw with
  | none => (mbxKeel, s)
  | some w =>
    let s := s.setPil { s.pil with fw := none }
    if back then (mbxOk, raise 0x0C02 noUnit 0 (setInactive (some w.version) s)) else (mbxKeel, s)

/-- What FW_COMMIT_FLOOR comes to (R781, R786): the floor rises, by at least a step, no further than the running SEC_VERSION and
32; how far is open. -/
def commitFloor (s : State) : Nat × State :=
  let floor := s.fuses.fwFloor
  let run := runningVersion s
  if floor ≥ 32 then (mbxExhausted, s)
  else if run ≤ floor then (mbxRefused, s)
  else
    let (n, s) := s.draw
    let floor := floor + 1 + (Config.freeWord 9 n).toNat % (Nat.min 32 run - floor)
    let s := { s with fuses := { s.fuses with fwFloor := floor } }
    (mbxOk, setResponse [floor] (s.set R.PIL_FW_FLOOR floor))

/-- What KEY_ENROLL comes to (R786, R788). -/
def enrollKey (c : MbxCmd) (s : State) : Nat × State :=
  let k := nth c.arg 0 0
  let hash := (c.arg.drop 4).take 32
  if k = 0 || k > 3 || hash.all (fun b => b == 0) then (mbxBadArg, s)
  else if nth s.fuses.keys k [] != [] then (mbxRefused, s)
  else
    let keys := setNth (s.fuses.keys ++ List.replicate (4 - s.fuses.keys.length) []) k hash
    let s := { s with fuses := { s.fuses with keys := keys } }
    (mbxOk, raise 0x0C03 noUnit 0 (s.set R.FRV_KEYS_ENROLLED ((s.get R.FRV_KEYS_ENROLLED).lor (2 ^ k))))

/-- A mailbox command carried out: its RESULT. -/
def mailboxEffect (c : MbxCmd) (image : Option Nat) (s : State) : Nat × State :=
  if c.opcode = 1 then
    (mbxOk, setResponse (le 2 (s.get R.PIL_FW_VERSION_A) ++ le 2 (s.get R.PIL_FW_VERSION_B) ++
      [s.get R.PIL_FW_ACTIVE, s.fuses.fwFloor]) s)
  else if c.opcode = 2 then
    (if s.pil.fw.isSome then firmwareUpdate image.isSome s else ((firmwareRefused c image s).getD mbxOk, s))
  else if c.opcode = 3 then commitFloor s
  else if c.opcode = 4 then enrollKey c s
  else (mbxBadOpcode, s)

/-- A command ends (R785). -/
def mailboxEnd (c : MbxCmd) (image : Option Nat) (s : State) : State :=
  let (code, s) := mailboxEffect c image (s.setPil { s.pil with cmd := none })
  let s := ((s.set R.PIL_MBX_STATUS_RESULT code).set R.PIL_MBX_STATUS_BUSY 0).set R.PIL_MBX_STATUS_DONE 1
  let s := if code = mbxOk then s else raise 0x0C01 noUnit code s
  if s.flag R.PIL_MBX_NOTICE_EN then notify 0 (s.get R.PIL_MBX_NOTICE_VECTOR) s else s

/-- MAILBOX_COMMAND_END: the command ends (R785). A FW_UPDATE comes here twice: when its image has been verified in host memory,
`image` being its SEC_VERSION, or none where its signature fails; and when its slot has been written and read back, `image` being
none where what is read back does not verify (R783, R787). -/
def execMailboxCommandEnd (image : Option Nat) (s : State) : Result :=
  .next (
    match s.pil.cmd with
    | none => s
    | some c =>
      if firmwareGoing s then s
      else if c.opcode = 2 && s.pil.fw.isNone && (firmwareRefused c image s).isNone then beginFirmware c (image.getD 0) s
      else inOneCycle (mailboxEnd c image) s)

/-! MCTP. -/

/-- The pilots are up, and the binding's path with them (R790). -/
def mctpUp (s : State) (vdm : Bool) : Bool := domainOn s 0 && (!vdm || domainOn s 1)

/-- An answer of the endpoint. -/
def answer (vdm : Bool) (name : String) (code : Nat) (values : List Int) (s : State) : State := s.emit (.mctp vdm name code values)

/-- What a request does, where the endpoint hears it. -/
def served (vdm : Bool) (f : State → State) (s : State) : Result := .next (if mctpUp s vdm then f s else s)

def ints (xs : List Nat) : List Int := xs.map Int.ofNat

/-- Completion codes of MCTP control and PLDM: success, error, invalid data, unsupported command. -/
def ccOk : Nat := 0
def ccError : Nat := 1
def ccInvalidData : Nat := 2
def ccUnsupported : Nat := 5

/-- MCTP_BAD_PACKET (R792). -/
def execMctpBadPacket (vdm : Bool) (s : State) : Result :=
  served vdm (fun s => raiseOnce 0x0C06 noUnit 0 (s.bump R.PIL_MCTP_ERR_BAD)) s

/-- MCTP_UNSUPPORTED_TYPE (R791). -/
def execMctpUnsupportedType (vdm : Bool) (s : State) : Result := served vdm (fun s => s.bump R.PIL_MCTP_ERR_UNSUPPORTED) s

def eidField (vdm : Bool) : Field := if vdm then R.PIL_MCTP_EID_VDM else R.PIL_MCTP_EID_SMBUS

/-- SET_ENDPOINT_ID: the bus owner of a binding assigns its endpoint ID (R790, R791). -/
def execSetEndpointId (vdm : Bool) (eid : Nat) (s : State) : Result :=
  served vdm (fun s =>
    if eid = 0 || eid ≥ 255 then answer vdm "Set Endpoint ID" ccInvalidData [] s
    else answer vdm "Set Endpoint ID" ccOk [(eid : Int)] (s.set (eidField vdm) eid)) s

/-- GET_ENDPOINT_ID (R791). -/
def execGetEndpointId (vdm : Bool) (s : State) : Result :=
  served vdm (fun s => answer vdm "Get Endpoint ID" ccOk [(s.get (eidField vdm) : Int)] s) s

/-- GET_ENDPOINT_UUID (R791): the UUID is open. -/
def execGetEndpointUuid (vdm : Bool) (s : State) : Result :=
  served vdm (fun s =>
    answer vdm "Get Endpoint UUID" ccOk (ints [(Config.freeWord 12 0).toNat, (Config.freeWord 12 1).toNat]) s) s

/-- GET_MCTP_VERSION_SUPPORT (R790, R791): 1.3 for the base and control; the versions of the other types are open. -/
def execGetMctpVersionSupport (vdm : Bool) (type : Nat) (s : State) : Result :=
  served vdm (fun s =>
    let name := "Get MCTP Version Support"
    if type = 0xFF || type = 0 then answer vdm name ccOk [1, 3] s
    else if type = 1 || type = 5 then answer vdm name ccOk [((Config.freeWord 14 type).toNat : Int)] s
    else answer vdm name 0x80 [] s) s

/-- GET_MESSAGE_TYPE_SUPPORT (R791). -/
def execGetMessageTypeSupport (vdm : Bool) (s : State) : Result :=
  served vdm (fun s => answer vdm "Get Message Type Support" ccOk [0, 1, 5] s) s

/-- UNSUPPORTED_CONTROL_COMMAND (R791). -/
def execUnsupportedControlCommand (vdm : Bool) (cmd : Nat) (s : State) : Result :=
  served vdm (fun s => answer vdm "MCTP Control" ccUnsupported [(cmd : Int)] s) s

/-- SPDM_REQUEST: over SMBus (0), PCIe VDM (1) or DOE (2), for measurements or for the certificate chain (R793). The chain and
the measurement of the firmware are open. Where `ide`, it is instead the IDE_KM exchange over DOE that takes the Link IDE Stream to the
Secure state; no other path serves IDE_KM (R438). -/
def execSpdmRequest (path : Nat) (kind : SpdmKind) (s : State) : Result :=
  served (path != 0) (fun s =>
    match kind with
    | .ideKm => if path = 2 then (s.set R.GLB_HIF_LINK_IDE_SECURE 1).emit (.spdm path "IDE_KM" []) else s
    | .measurements =>
      let digest := ((List.range 8).map (fun w => le 4 (s.get (R.FRV_DIGEST_BYTES.at [w])))).flatten
      s.emit (.spdm path "measurements" ((Config.freeWord 10 (s.get R.PIL_FW_ACTIVE)).toNat :: digest))
    | .certificates => s.emit (.spdm path "certificate chain" [(Config.freeWord 11 0).toNat])) s

/-! PLDM base and sensors. -/

/-- GET_TID (R794): the terminus ID is open. -/
def execGetTid (vdm : Bool) (s : State) : Result :=
  served vdm (fun s => answer vdm "GetTID" ccOk [((Config.freeWord 8 0).toNat % 256 : Nat)] s) s

/-- GET_PLDM_VERSION of a type (R794): 1.2 for platform monitoring; that of the base is open. -/
def execGetPldmVersion (vdm : Bool) (type : Nat) (s : State) : Result :=
  served vdm (fun s =>
    if type = 2 then answer vdm "GetPLDMVersion" ccOk [1, 2] s
    else if type = 0 then answer vdm "GetPLDMVersion" ccOk [((Config.freeWord 15 0).toNat : Int)] s
    else answer vdm "GetPLDMVersion" 0x83 [] s) s

/-- GET_PLDM_TYPES (R794): base, and platform monitoring and control. -/
def execGetPldmTypes (vdm : Bool) (s : State) : Result :=
  served vdm (fun s => answer vdm "GetPLDMTypes" ccOk [0, 2] s) s

/-- GET_PLDM_COMMANDS of a type (R794), by their codes. -/
def execGetPldmCommands (vdm : Bool) (type : Nat) (s : State) : Result :=
  served vdm (fun s =>
    if type = 0 then answer vdm "GetPLDMCommands" ccOk [2, 3, 4, 5] s
    else if type = 2 then
      answer vdm "GetPLDMCommands" ccOk [0x04, 0x05, 0x0A, 0x10, 0x11, 0x12, 0x31, 0x32, 0x39, 0x3A, 0x50, 0x51] s
    else answer vdm "GetPLDMCommands" 0x83 [] s) s

/-- The effecters of R801: their numbers, and whether they are numeric. -/
def effecterIds : List Nat := (List.range 16).map (fun k => k + 1) ++ (List.range 32).map (fun k => k + 20) ++ [60, 70]

/-- The records of the repository: kind (0 sensor, 1 state effecter, 2 numeric effecter) and number. -/
def pdrs : List (Nat × Nat) :=
  sensorIds.map (fun i => (0, i)) ++ effecterIds.map (fun i => (if i = 70 then 2 else 1, i))

/-- GET_PDR_REPOSITORY_INFO (R794). -/
def execGetPdrRepositoryInfo (vdm : Bool) (s : State) : Result :=
  served vdm (fun s => answer vdm "GetPDRRepositoryInfo" ccOk [(pdrs.length : Int)] s) s

/-- GET_PDR: the record with a handle, from 1 (R795, R801). -/
def execGetPdr (vdm : Bool) (handle : Nat) (s : State) : Result :=
  served vdm (fun s =>
    match (if handle = 0 then none else pdrs[handle - 1]?) with
    | some (kind, id) => answer vdm "GetPDR" ccOk (ints [handle, kind, id]) s
    | none => answer vdm "GetPDR" 0x82 [] s) s

def isSensor (id : Nat) : Bool := decide (1 ≤ id) && decide (id ≤ 18)

/-- GET_SENSOR_READING: the operational state (0 enabled, 1 disabled, 2 unavailable), the reading and the threshold state
(R795). -/
def execGetSensorReading (vdm : Bool) (id : Nat) (s : State) : Result :=
  served vdm (fun s =>
    if !isSensor id then answer vdm "GetSensorReading" 0x80 [] s
    else if s.pil.disabled.contains id then answer vdm "GetSensorReading" ccOk [1] s
    else
      match (if sensorPowered s id then sensorReading s id else none) with
      | some x => answer vdm "GetSensorReading" ccOk [0, x, (levelOf (sensorLimits s id) x : Int)] s
      | none => answer vdm "GetSensorReading" ccOk [2] s) s

/-- A threshold, and whether there is one. -/
def limitValues (t : Option Int) : List Int :=
  match t with
  | some x => [1, x]
  | none => [0, 0]

/-- GET_SENSOR_THRESHOLDS: upper warning, critical and fatal, and lower warning (R795). -/
def execGetSensorThresholds (vdm : Bool) (id : Nat) (s : State) : Result :=
  served vdm (fun s =>
    if !isSensor id then answer vdm "GetSensorThresholds" 0x80 [] s
    else
      let l := sensorLimits s id
      answer vdm "GetSensorThresholds" ccOk (limitValues l.warn ++ limitValues l.crit ++ limitValues l.fatal ++ limitValues l.low) s) s

/-- SET_NUMERIC_SENSOR_ENABLE (R794). -/
def execSetNumericSensorEnable (vdm : Bool) (id : Nat) (on : Bool) (s : State) : Result :=
  served vdm (fun s =>
    if !isSensor id then answer vdm "SetNumericSensorEnable" 0x80 [] s
    else
      let rest := s.pil.disabled.filter (fun j => j != id)
      answer vdm "SetNumericSensorEnable" ccOk [] (s.setPil { s.pil with disabled := if on then rest else id :: rest })) s

/-! Effecters. -/

/-- Whether an effecter has a state (R801). -/
def effecterState (id state : Nat) : Bool :=
  if 1 ≤ id && decide (id ≤ 16) then state == 1 || state == 2
  else if 20 ≤ id && decide (id ≤ 51) then state == 1 || state == 2
  else id == 60 && state == 1

def stateEffecter (id : Nat) : Bool := id != 70 && effecterIds.contains id

/-- The request of an archipelago's isles, in one cycle (R135, R801, R802). -/
def archEffecter (a r : Nat) (s : State) : State :=
  let is := islesOf s a
  if s.frame.running then is.foldl (fun t i => isleRequest i r 0 t) s
  else
    let s := { s with requests := s.requests.filter (fun j => !is.contains j) }
    let s := is.foldl (fun t i => t.set (R.ISL_STATE_REQ_REQ.at [i]) 0) s
    applyRequests (is.map (fun i => (i, r))) s

/-- A state effecter set, at cycle `v` of the local frame (R801, R802). -/
def setEffecter (id state v : Nat) (s : State) : State :=
  if id ≤ 16 then (if state = 1 then requestOn (id + 1) s else requestOff (id + 1) v s)
  else if id ≤ 51 then archEffecter (id - 20) (if state = 1 then reqResume else reqQuiesce) s
  else requestCreset s

/-- An effecter setting that MGMT_WRITE_EN turns away (R803). -/
def managementRefused (vdm : Bool) (name : String) (s : State) : State := answer vdm name ccError [] (raise 0x0C08 noUnit 0 s)

/-- SET_STATE_EFFECTER_STATES (R801 to R803). -/
def execSetStateEffecterStates (vdm : Bool) (id state v : Nat) (s : State) : Result :=
  served vdm (fun s =>
    let name := "SetStateEffecterStates"
    let off := decide (1 ≤ id) && decide (id ≤ 16) && state == 2
    if !s.flag R.PIL_CTRL_MGMT_WRITE_EN && !off then managementRefused vdm name s
    else if !stateEffecter id then answer vdm name 0x80 [] s
    else if !effecterState id state then answer vdm name 0x81 [] s
    else answer vdm name ccOk [] (setEffecter id state v s)) s

/-- GET_STATE_EFFECTER_STATES (R804): a domain's live state; or whether an update of an archipelago is pending, and the copies of
its isles' states. What the effecter of the compute reset reports is open. -/
def execGetStateEffecterStates (vdm : Bool) (id : Nat) (s : State) : Result :=
  served vdm (fun s =>
    let name := "GetStateEffecterStates"
    if !stateEffecter id then answer vdm name 0x80 [] s
    else if id ≤ 16 then answer vdm name ccOk [(s.get (pwrStateField (id + 1)) : Int)] s
    else if id ≤ 51 then
      let is := islesOf s (id - 20)
      let stale := is.filter (fun i => bit (isleStateWord s i) 3)
      let copies := is.map (fun i => bits (isleStateWord s i) 0 3)
      answer vdm name ccOk (ints (b2n (!stale.isEmpty) :: copies)) (stale.foldl (fun t i => raiseOnce 0x0D03 i 0 t) s)
    else
      let (n, s) := s.draw
      answer vdm name ccOk [((Config.freeWord 13 n).toNat : Int)] s) s

/-- SET_NUMERIC_EFFECTER_VALUE: the host cap (R801, R803). -/
def execSetNumericEffecterValue (vdm : Bool) (id w : Nat) (s : State) : Result :=
  served vdm (fun s =>
    let name := "SetNumericEffecterValue"
    if !s.flag R.PIL_CTRL_MGMT_WRITE_EN then managementRefused vdm name s
    else if id != 70 then answer vdm name 0x80 [] s
    else answer vdm name ccOk [] (setHostCap w s)) s

/-- GET_NUMERIC_EFFECTER_VALUE (R794, R801). -/
def execGetNumericEffecterValue (vdm : Bool) (id : Nat) (s : State) : Result :=
  served vdm (fun s =>
    if id != 70 then answer vdm "GetNumericEffecterValue" 0x80 [] s
    else answer vdm "GetNumericEffecterValue" ccOk [(s.get R.PWR_CAP_HOST_CAP_W : Int)] s) s

/-! Events to the receiver. -/

/-- SET_EVENT_RECEIVER (R796). -/
def execSetEventReceiver (vdm : Bool) (eid : Nat) (s : State) : Result :=
  served vdm (fun s =>
    let s := ((s.set R.PIL_PLDM_RECEIVER_EID eid).setFlag R.PIL_PLDM_RECEIVER_VDM vdm).set R.PIL_PLDM_RECEIVER_SET 1
    answer vdm "SetEventReceiver" ccOk [] s) s

/-- GET_EVENT_RECEIVER (R794). -/
def execGetEventReceiver (vdm : Bool) (s : State) : Result :=
  served vdm (fun s =>
    answer vdm "GetEventReceiver" ccOk
      (ints [s.get R.PIL_PLDM_RECEIVER_SET, s.get R.PIL_PLDM_RECEIVER_EID, s.get R.PIL_PLDM_RECEIVER_VDM]) s) s

/-- The event's message: a sensor event with its number and state, or the OEM class with its 12 bytes (R796). -/
def eventValues (e : PldmEvent) : List Int :=
  match e.sensor with
  | some (id, level) => ints [0, id, level]
  | none => ints (0xF0 :: (le 2 e.code ++ [0, 0] ++ le 8 e.fn))

/-- The first event in the queue sent; `answered` says that its response comes within 100 ms. -/
def sendEvent (answered : Bool) (s : State) : State :=
  match s.pldm with
  | [] => s
  | e :: rest =>
    let vdm := s.flag R.PIL_PLDM_RECEIVER_VDM
    let s := answer vdm "PlatformEventMessage" ccOk ((s.get R.PIL_PLDM_RECEIVER_EID : Int) :: eventValues e) s
    if answered then setPldm rest { s with pldmTries := 0 } else { s with pldmTries := s.pldmTries + 1 }

/-- PLATFORM_EVENT_MESSAGE: the oldest queued event is sent, when none waits for its response (R796, R799). -/
def execPlatformEventMessage (answered : Bool) (s : State) : Result :=
  .next (if mctpUp s (s.flag R.PIL_PLDM_RECEIVER_VDM) && s.pldmTries == 0 then sendEvent answered s else s)

/-- PLATFORM_EVENT_RETRY_TIMEOUT: no response for 100 ms: sent again, up to 3 times, then dropped (R798). -/
def execPlatformEventRetryTimeout (answered : Bool) (s : State) : Result :=
  .next (
    if !mctpUp s (s.flag R.PIL_PLDM_RECEIVER_VDM) || s.pldmTries = 0 then s
    else if s.pldmTries < 4 then sendEvent answered s
    else
      let s := setPldm (s.pldm.drop 1) { s with pldmTries := 0 }
      raise 0x0C05 noUnit 0 (s.bump R.PIL_PLDM_FWD_DROPPED))

/-- PIL_LOCK: PIL_CTRL written with LOCK = 1 (R858). -/
def execPilLock (w : Nat) (s : State) : Result :=
  .next (if !decodes s 0 || !domainOn s 0 then s else (writeRest 0 R.PIL_CTRL_LOCK.addr w s).set R.PIL_CTRL_LOCK 1)

/-! The TAP. -/

/-- Every domain from PD2 to PD15 is off (R808). -/
def scanAllowed (s : State) : Bool :=
  (List.range 14).all (fun k => (s.dom (k + 2)).state == .off || (s.dom (k + 2)).state == .hold)

def pilotFlag (f : Field) (b : Bool) (s : State) : State := if domainOn s 0 then s.setFlag f b else s

/-- An instruction loaded into the TAP. -/
def tapLoad (instr : Nat) (active : Bool) (s : State) : State :=
  pilotFlag R.PIL_JTAG_STAT_TAP_ACTIVE active (s.setPil { s.pil with tap := { s.pil.tap with instr := instr, active := active } })

/-- EXTEST, CLAMP or HIGHZ loaded: in force, or as BYPASS (R808). -/
def tapDrive (instr : Nat) (s : State) : State :=
  if scanAllowed s then tapLoad instr true s
  else raise 0x0C07 noUnit 0 (pilotFlag R.PIL_JTAG_STAT_EXTEST_BLOCKED true (tapLoad instr false s))

/-- TAP_RESET: IDCODE is selected (R805). -/
def execTapReset (s : State) : Result := .next (tapLoad 1 false s)
/-- EXTEST (R808). -/
def execExtest (s : State) : Result := .next (tapDrive 0 s)
/-- IDCODE: the identification register is selected and shifted out (R806). -/
def execIdcode (s : State) : Result := .next ((tapLoad 1 false s).emit (.tap 1 R.PIL_IDCODE_IDCODE.reset))
/-- SAMPLE_PRELOAD: the cells of the boundary register are captured as `pins` and loaded with `cells` (R805, R807). -/
def execSamplePreload (pins cells : List Bool) (s : State) : Result :=
  .next (
    let s := tapLoad 2 false s
    let s := s.setPil { s.pil with tap := { s.pil.tap with cells := cells } }
    s.emit (.tap 2 (((List.range pins.length).zip pins).map (fun p => b2n p.2 * 2 ^ p.1)).sum))
/-- CLAMP (R808). -/
def execClamp (s : State) : Result := .next (tapDrive 4 s)
/-- HIGHZ (R808). -/
def execHighz (s : State) : Result := .next (tapDrive 5 s)
/-- BYPASS, and every code without an instruction of its own (R805). -/
def execBypass (code : Nat) (s : State) : Result := .next (tapLoad (code % 256) false s)

end Sys2Proof.Machine
end

