-- ==== Sys2Proof/Machine/Dispatch.lean ====
section
/-!
DEFINITION. The meaning of each command, one arm per constructor.
-/
namespace Sys2Proof.Machine

def exec (i : Instr) (s : State) : Host.Outcome State Fault Refusal :=
  match i with
  | .registerWrite func a width v => Sys2Proof.Machine.execRegisterWrite func a width v s
  | .readClear func a width => Sys2Proof.Machine.execReadClear func a width s
  | .aonPhase strap => Sys2Proof.Machine.execAonPhase strap s
  | .pilotPhase ok jesd => Sys2Proof.Machine.execPilotPhase ok jesd s
  | .keelPhase => Sys2Proof.Machine.execKeelPhase s
  | .powerUpPhase => Sys2Proof.Machine.execPowerUpPhase s
  | .selfTestPhase dies failed => Sys2Proof.Machine.execSelfTestPhase dies failed s
  | .repairPhase => Sys2Proof.Machine.execRepairPhase s
  | .fillPhase => Sys2Proof.Machine.execFillPhase s
  | .release us => Sys2Proof.Machine.execRelease us s
  | .moduleReset w => Sys2Proof.Machine.execModuleReset w s
  | .pilotWatchdogExpiry core => Sys2Proof.Machine.execPilotWatchdogExpiry core s
  | .aonSupplyLoss => Sys2Proof.Machine.execAonSupplyLoss s
  | .mainPgLoss => Sys2Proof.Machine.execMainPgLoss s
  | .refclk25Loss => Sys2Proof.Machine.execRefclk25Loss s
  | .refclk100Loss => Sys2Proof.Machine.execRefclk100Loss s
  | .hostLinkReset => Sys2Proof.Machine.execHostLinkReset s
  | .computeResetRequest w => Sys2Proof.Machine.execComputeResetRequest w s
  | .computeResetStart v => Sys2Proof.Machine.execComputeResetStart v s
  | .computeResetQuiescent => Sys2Proof.Machine.execComputeResetQuiescent s
  | .computeResetSelfTestEnd failed => Sys2Proof.Machine.execComputeResetSelfTestEnd failed s
  | .computeResetEnd us => Sys2Proof.Machine.execComputeResetEnd us s
  | .rackTick now => Sys2Proof.Machine.execRackTick now s
  | .localFrameBoundary now => Sys2Proof.Machine.execLocalFrameBoundary now s
  | .isleClockRelock => Sys2Proof.Machine.execIsleClockRelock s
  | .frameEnd => Sys2Proof.Machine.execFrameEnd s
  | .uncorrectableReadDetect read => Sys2Proof.Machine.execUncorrectableReadDetect read s
  | .voidPoint a v => Sys2Proof.Machine.execVoidPoint a v s
  | .arrayRampDownEnd m => Sys2Proof.Machine.execArrayRampDownEnd m s
  | .nop unit => Sys2Proof.Machine.execNop unit s
  | .loop unit => Sys2Proof.Machine.execLoop unit s
  | .mac unit => Sys2Proof.Machine.execMac unit s
  | .l1 unit => Sys2Proof.Machine.execL1 unit s
  | .l2sq unit => Sys2Proof.Machine.execL2sq unit s
  | .max unit => Sys2Proof.Machine.execMax unit s
  | .min unit => Sys2Proof.Machine.execMin unit s
  | .vadd unit => Sys2Proof.Machine.execVadd unit s
  | .vsub unit => Sys2Proof.Machine.execVsub unit s
  | .vmul unit => Sys2Proof.Machine.execVmul unit s
  | .vfma unit => Sys2Proof.Machine.execVfma unit s
  | .vmax unit => Sys2Proof.Machine.execVmax unit s
  | .vmin unit => Sys2Proof.Machine.execVmin unit s
  | .vcvt unit => Sys2Proof.Machine.execVcvt unit s
  | .vfn unit => Sys2Proof.Machine.execVfn unit s
  | .vrsum unit => Sys2Proof.Machine.execVrsum unit s
  | .vrmax unit => Sys2Proof.Machine.execVrmax unit s
  | .vsel unit => Sys2Proof.Machine.execVsel unit s
  | .vmov unit => Sys2Proof.Machine.execVmov unit s
  | .sargmax unit => Sys2Proof.Machine.execSargmax unit s
  | .sboxdec unit => Sys2Proof.Machine.execSboxdec unit s
  | .snms unit => Sys2Proof.Machine.execSnms unit s
  | .lift unit => Sys2Proof.Machine.execLift unit s
  | .lower unit => Sys2Proof.Machine.execLower unit s
  | .mergeEntryTimeout m => Sys2Proof.Machine.execMergeEntryTimeout m s
  | .mergeCommit m => Sys2Proof.Machine.execMergeCommit m s
  | .csend unit => Sys2Proof.Machine.execCsend unit s
  | .crecv unit => Sys2Proof.Machine.execCrecv unit s
  | .hsend unit => Sys2Proof.Machine.execHsend unit s
  | .hrecv unit => Sys2Proof.Machine.execHrecv unit s
  | .ferry unit damaged => Sys2Proof.Machine.execFerry unit damaged s
  | .bend unit => Sys2Proof.Machine.execBend unit s
  | .scheduleLoadStart w => Sys2Proof.Machine.execScheduleLoadStart w s
  | .scheduleCheckEnd fetched => Sys2Proof.Machine.execScheduleCheckEnd fetched s
  | .scheduleInstallEnd => Sys2Proof.Machine.execScheduleInstallEnd s
  | .quiesce unit => Sys2Proof.Machine.execQuiesce unit s
  | .resume unit => Sys2Proof.Machine.execResume unit s
  | .off unit v => Sys2Proof.Machine.execOff unit v s
  | .on unit => Sys2Proof.Machine.execOn unit s
  | .lagoonFillEnd unit => Sys2Proof.Machine.execLagoonFillEnd unit s
  | .islStateRead x width => Sys2Proof.Machine.execIslStateRead x width s
  | .refreshSlot m => Sys2Proof.Machine.execRefreshSlot m s
  | .selfTimedRefreshSlot unit => Sys2Proof.Machine.execSelfTimedRefreshSlot unit s
  | .scrubStep unit c => Sys2Proof.Machine.execScrubStep unit c s
  | .lagoonScrub unit upsets => Sys2Proof.Machine.execLagoonScrub unit upsets s
  | .sensorCalibration m measured => Sys2Proof.Machine.execSensorCalibration m measured s
  | .hostSliceAccess unit cycle => Sys2Proof.Machine.execHostSliceAccess unit cycle s
  | .ceWindowEnd unit now => Sys2Proof.Machine.execCeWindowEnd unit now s
  | .keyLoad unit w => Sys2Proof.Machine.execKeyLoad unit w s
  | .keyZeroize unit w => Sys2Proof.Machine.execKeyZeroize unit w s
  | .flipArm unit w => Sys2Proof.Machine.execFlipArm unit w s
  | .hostviewWrite view => Sys2Proof.Machine.execHostviewWrite view s
  | .nbuFill unit n => Sys2Proof.Machine.execNbuFill unit n s
  | .nbuCopy unit n => Sys2Proof.Machine.execNbuCopy unit n s
  | .nbuAcc unit n => Sys2Proof.Machine.execNbuAcc unit n s
  | .nbuAxpby unit n => Sys2Proof.Machine.execNbuAxpby unit n s
  | .nbuAdamw unit n => Sys2Proof.Machine.execNbuAdamw unit n s
  | .nbuSumsq unit n => Sys2Proof.Machine.execNbuSumsq unit n s
  | .nbuOperationEnd unit damaged => Sys2Proof.Machine.execNbuOperationEnd unit damaged s
  | .hostNbuCommand unit op layers banks imm => Sys2Proof.Machine.execHostNbuCommand unit op layers banks imm s
  | .hostNbuCommandStart unit c damaged => Sys2Proof.Machine.execHostNbuCommandStart unit c damaged s
  | .ferryArbitrationRound unit c mgmt slc => Sys2Proof.Machine.execFerryArbitrationRound unit c mgmt slc s
  | .quayDoorbell func q pi => Sys2Proof.Machine.execQuayDoorbell func q pi s
  | .quayConsumerWrite func q ci => Sys2Proof.Machine.execQuayConsumerWrite func q ci s
  | .quayHeaderRead q header bad => Sys2Proof.Machine.execQuayHeaderRead q header bad s
  | .quayDeliveryStart q => Sys2Proof.Machine.execQuayDeliveryStart q s
  | .quayDeliveryComplete r => Sys2Proof.Machine.execQuayDeliveryComplete r s
  | .quayEmitOffset q => Sys2Proof.Machine.execQuayEmitOffset q s
  | .quayPeekRead func q held => Sys2Proof.Machine.execQuayPeekRead func q held s
  | .quayIdleTimeout q => Sys2Proof.Machine.execQuayIdleTimeout q s
  | .quayEnable func q ctrl => Sys2Proof.Machine.execQuayEnable func q ctrl s
  | .quayDisable func q ctrl => Sys2Proof.Machine.execQuayDisable func q ctrl s
  | .bollardAdd r b delta => Sys2Proof.Machine.execBollardAdd r b delta s
  | .bollardTas r x width => Sys2Proof.Machine.execBollardTas r x width s
  | .waiterArm who w ctrl => Sys2Proof.Machine.execWaiterArm who w ctrl s
  | .waiterDisarm who w ctrl => Sys2Proof.Machine.execWaiterDisarm who w ctrl s
  | .waiterTimeout w => Sys2Proof.Machine.execWaiterTimeout w s
  | .linkTrained rate width flit ide => Sys2Proof.Machine.execLinkTrained rate width flit ide s
  | .ideIntegrityFailure => Sys2Proof.Machine.execIdeIntegrityFailure s
  | .bar0BadRequest func tag read => Sys2Proof.Machine.execBar0BadRequest func tag read s
  | .malformedTlp func tlp kind => Sys2Proof.Machine.execMalformedTlp func tlp kind s
  | .bar2Request tlp x len write data ep => Sys2Proof.Machine.execBar2Request tlp x len write data ep s
  | .bar2RequestExpiry tag => Sys2Proof.Machine.execBar2RequestExpiry tag s
  | .bar2WindowWrite offset size => Sys2Proof.Machine.execBar2WindowWrite offset size s
  | .dmaEnable e ctrl => Sys2Proof.Machine.execDmaEnable e ctrl s
  | .dmaDisable e ctrl => Sys2Proof.Machine.execDmaDisable e ctrl s
  | .dmaDoorbell e pi => Sys2Proof.Machine.execDmaDoorbell e pi s
  | .dmaDescriptorStart e raw status => Sys2Proof.Machine.execDmaDescriptorStart e raw status s
  | .dmaArbitrationRound toHost => Sys2Proof.Machine.execDmaArbitrationRound toHost s
  | .dmaTransferComplete e => Sys2Proof.Machine.execDmaTransferComplete e s
  | .dmaResume e => Sys2Proof.Machine.execDmaResume e s
  | .vfFlr f => Sys2Proof.Machine.execVfFlr f s
  | .pfFlr => Sys2Proof.Machine.execPfFlr s
  | .d3hotEntry f => Sys2Proof.Machine.execD3hotEntry f s
  | .dataLinkDown => Sys2Proof.Machine.execDataLinkDown s
  | .codewordReceive p header corrected uncorrectable cycle => Sys2Proof.Machine.execCodewordReceive p header corrected uncorrectable cycle s
  | .lockingTimeout p => Sys2Proof.Machine.execLockingTimeout p s
  | .pmdTrainingComplete p cycle => Sys2Proof.Machine.execPmdTrainingComplete p cycle s
  | .flitReceive p bytes damaged => Sys2Proof.Machine.execFlitReceive p bytes damaged s
  | .dataFlitReceive p bytes damaged cycle => Sys2Proof.Machine.execDataFlitReceive p bytes damaged cycle s
  | .timeFlitReceive p bytes damaged pos j t2 => Sys2Proof.Machine.execTimeFlitReceive p bytes damaged pos j t2 s
  | .timeReplyReceive p bytes damaged pos t4 => Sys2Proof.Machine.execTimeReplyReceive p bytes damaged pos t4 s
  | .heartbeatReceive p bytes damaged => Sys2Proof.Machine.execHeartbeatReceive p bytes damaged s
  | .protestReceive p bytes damaged => Sys2Proof.Machine.execProtestReceive p bytes damaged s
  | .retrainReceive p bytes damaged => Sys2Proof.Machine.execRetrainReceive p bytes damaged s
  | .timeFlitSend p j t1 => Sys2Proof.Machine.execTimeFlitSend p j t1 s
  | .timeReplySend p t3 => Sys2Proof.Machine.execTimeReplySend p t3 s
  | .heartbeatSend p => Sys2Proof.Machine.execHeartbeatSend p s
  | .protestSend p => Sys2Proof.Machine.execProtestSend p s
  | .dataSlotTransmit p slot idx => Sys2Proof.Machine.execDataSlotTransmit p slot idx s
  | .receiveBufferDiscard p slot => Sys2Proof.Machine.execReceiveBufferDiscard p slot s
  | .quarantineWindowEnd p => Sys2Proof.Machine.execQuarantineWindowEnd p s
  | .quarantineClear p cycle => Sys2Proof.Machine.execQuarantineClear p cycle s
  | .portEnable p => Sys2Proof.Machine.execPortEnable p s
  | .portDisable p => Sys2Proof.Machine.execPortDisable p s
  | .retrainRequest p => Sys2Proof.Machine.execRetrainRequest p s
  | .retrainTick p => Sys2Proof.Machine.execRetrainTick p s
  | .fecWindowEnd p now => Sys2Proof.Machine.execFecWindowEnd p now s
  | .lhtEnable en => Sys2Proof.Machine.execLhtEnable en s
  | .lhtLock => Sys2Proof.Machine.execLhtLock s
  | .acquireListenExpiry => Sys2Proof.Machine.execAcquireListenExpiry s
  | .locked => Sys2Proof.Machine.execLocked s
  | .holdover => Sys2Proof.Machine.execHoldover s
  | .holdoverLimitExpiry => Sys2Proof.Machine.execHoldoverLimitExpiry s
  | .ltStep => Sys2Proof.Machine.execLtStep s
  | .backupPromotion => Sys2Proof.Machine.execBackupPromotion s
  | .masterDemotion => Sys2Proof.Machine.execMasterDemotion s
  | .dpolicyWrite v => Sys2Proof.Machine.execDpolicyWrite v s
  | .imageLoadStart w => Sys2Proof.Machine.execImageLoadStart w s
  | .imageCheckEnd fetched => Sys2Proof.Machine.execImageCheckEnd fetched s
  | .imageCancel w => Sys2Proof.Machine.execImageCancel w s
  | .keyRevoke w => Sys2Proof.Machine.execKeyRevoke w s
  | .domainOnRequest d => Sys2Proof.Machine.execDomainOnRequest d s
  | .domainOffRequest d v => Sys2Proof.Machine.execDomainOffRequest d v s
  | .sequencerStepComplete m ok => Sys2Proof.Machine.execSequencerStepComplete m ok s
  | .powerGoodTimeout d v => Sys2Proof.Machine.execPowerGoodTimeout d v s
  | .holdOffExpiry d => Sys2Proof.Machine.execHoldOffExpiry d s
  | .railOutOfRegulation r v => Sys2Proof.Machine.execRailOutOfRegulation r v s
  | .clockLockLoss n v => Sys2Proof.Machine.execClockLockLoss n v s
  | .overpower v => Sys2Proof.Machine.execOverpower v s
  | .avsAdjust k up exhausted v => Sys2Proof.Machine.execAvsAdjust k up exhausted v s
  | .avsWriteTimeout k => Sys2Proof.Machine.execAvsWriteTimeout k s
  | .powerSample rails mw => Sys2Proof.Machine.execPowerSample rails mw s
  | .hostCapWrite w => Sys2Proof.Machine.execHostCapWrite w s
  | .sensorConversion n count now v => Sys2Proof.Machine.execSensorConversion n count now v s
  | .thermalShutdown v => Sys2Proof.Machine.execThermalShutdown v s
  | .compensationUpdate => Sys2Proof.Machine.execCompensationUpdate s
  | .shutdownLatchClear w => Sys2Proof.Machine.execShutdownLatchClear w s
  | .thresholdWrite dram w => Sys2Proof.Machine.execThresholdWrite dram w s
  | .thmLock => Sys2Proof.Machine.execThmLock s
  | .coolingRecord => Sys2Proof.Machine.execCoolingRecord s
  | .pumpFaultClear => Sys2Proof.Machine.execPumpFaultClear s
  | .stopChannelChange b run v => Sys2Proof.Machine.execStopChannelChange b run v s
  | .discrepancyExpiry => Sys2Proof.Machine.execDiscrepancyExpiry s
  | .stopLatchClear w => Sys2Proof.Machine.execStopLatchClear w s
  | .channelFaultClear w => Sys2Proof.Machine.execChannelFaultClear w s
  | .swoCommand n w => Sys2Proof.Machine.execSwoCommand n w s
  | .swoTrip n => Sys2Proof.Machine.execSwoTrip n s
  | .swoRetry n => Sys2Proof.Machine.execSwoRetry n s
  | .swoRetryReset n => Sys2Proof.Machine.execSwoRetryReset n s
  | .backfeedLatch n => Sys2Proof.Machine.execBackfeedLatch n s
  | .backfeedClear n w mv => Sys2Proof.Machine.execBackfeedClear n w mv s
  | .loopCommand w => Sys2Proof.Machine.execLoopCommand w s
  | .loopHeadroomMeasure vaux pin ua swo => Sys2Proof.Machine.execLoopHeadroomMeasure vaux pin ua swo s
  | .complianceLost => Sys2Proof.Machine.execComplianceLost s
  | .loopOpen => Sys2Proof.Machine.execLoopOpen s
  | .keelAppend kind payload => Sys2Proof.Machine.execKeelAppend kind payload s
  | .keelWriteTransfer t c ok => Sys2Proof.Machine.execKeelWriteTransfer t c ok s
  | .wearRecord => Sys2Proof.Machine.execWearRecord s
  | .compactionStart => Sys2Proof.Machine.execCompactionStart s
  | .compactionEnd ok => Sys2Proof.Machine.execCompactionEnd ok s
  | .keelRead w => Sys2Proof.Machine.execKeelRead w s
  | .keelHostAppend w => Sys2Proof.Machine.execKeelHostAppend w s
  | .keelCompact w => Sys2Proof.Machine.execKeelCompact w s
  | .checkpointRequest w now => Sys2Proof.Machine.execCheckpointRequest w now s
  | .pieceReceive p slot k => Sys2Proof.Machine.execPieceReceive p slot k s
  | .sealReceive p slot k => Sys2Proof.Machine.execSealReceive p slot k s
  | .ackReceive p slot k now => Sys2Proof.Machine.execAckReceive p slot k now s
  | .missReceive p slot k => Sys2Proof.Machine.execMissReceive p slot k s
  | .nakReceive p slot k now => Sys2Proof.Machine.execNakReceive p slot k now s
  | .abandonExpiry now => Sys2Proof.Machine.execAbandonExpiry now s
  | .checkpointEnable w now => Sys2Proof.Machine.execCheckpointEnable w now s
  | .checkpointDisable w now => Sys2Proof.Machine.execCheckpointDisable w now s
  | .clearMaps w now => Sys2Proof.Machine.execClearMaps w now s
  | .refugeReset w now => Sys2Proof.Machine.execRefugeReset w now s
  | .restoreStart w => Sys2Proof.Machine.execRestoreStart w s
  | .ownershipRequest core line cycle wb => Sys2Proof.Machine.execOwnershipRequest core line cycle wb s
  | .directoryRound => Sys2Proof.Machine.execDirectoryRound s
  | .getInfo => Sys2Proof.Machine.execGetInfo s
  | .fwUpdate => Sys2Proof.Machine.execFwUpdate s
  | .fwCommitFloor => Sys2Proof.Machine.execFwCommitFloor s
  | .keyEnroll => Sys2Proof.Machine.execKeyEnroll s
  | .mailboxBadOpcode op => Sys2Proof.Machine.execMailboxBadOpcode op s
  | .mailboxCommandEnd image => Sys2Proof.Machine.execMailboxCommandEnd image s
  | .mctpBadPacket vdm => Sys2Proof.Machine.execMctpBadPacket vdm s
  | .mctpUnsupportedType vdm => Sys2Proof.Machine.execMctpUnsupportedType vdm s
  | .setEndpointId vdm eid => Sys2Proof.Machine.execSetEndpointId vdm eid s
  | .getEndpointId vdm => Sys2Proof.Machine.execGetEndpointId vdm s
  | .getEndpointUuid vdm => Sys2Proof.Machine.execGetEndpointUuid vdm s
  | .getMctpVersionSupport vdm type => Sys2Proof.Machine.execGetMctpVersionSupport vdm type s
  | .getMessageTypeSupport vdm => Sys2Proof.Machine.execGetMessageTypeSupport vdm s
  | .unsupportedControlCommand vdm cmd => Sys2Proof.Machine.execUnsupportedControlCommand vdm cmd s
  | .spdmRequest path kind => Sys2Proof.Machine.execSpdmRequest path kind s
  | .getTid vdm => Sys2Proof.Machine.execGetTid vdm s
  | .getPldmVersion vdm type => Sys2Proof.Machine.execGetPldmVersion vdm type s
  | .getPldmTypes vdm => Sys2Proof.Machine.execGetPldmTypes vdm s
  | .getPldmCommands vdm type => Sys2Proof.Machine.execGetPldmCommands vdm type s
  | .getPdrRepositoryInfo vdm => Sys2Proof.Machine.execGetPdrRepositoryInfo vdm s
  | .getPdr vdm handle => Sys2Proof.Machine.execGetPdr vdm handle s
  | .getSensorReading vdm id => Sys2Proof.Machine.execGetSensorReading vdm id s
  | .getSensorThresholds vdm id => Sys2Proof.Machine.execGetSensorThresholds vdm id s
  | .setNumericSensorEnable vdm id on => Sys2Proof.Machine.execSetNumericSensorEnable vdm id on s
  | .setStateEffecterStates vdm id state v => Sys2Proof.Machine.execSetStateEffecterStates vdm id state v s
  | .getStateEffecterStates vdm id => Sys2Proof.Machine.execGetStateEffecterStates vdm id s
  | .setNumericEffecterValue vdm id w => Sys2Proof.Machine.execSetNumericEffecterValue vdm id w s
  | .getNumericEffecterValue vdm id => Sys2Proof.Machine.execGetNumericEffecterValue vdm id s
  | .setEventReceiver vdm eid => Sys2Proof.Machine.execSetEventReceiver vdm eid s
  | .getEventReceiver vdm => Sys2Proof.Machine.execGetEventReceiver vdm s
  | .platformEventMessage answered => Sys2Proof.Machine.execPlatformEventMessage answered s
  | .platformEventRetryTimeout answered => Sys2Proof.Machine.execPlatformEventRetryTimeout answered s
  | .pilLock w => Sys2Proof.Machine.execPilLock w s
  | .tapReset => Sys2Proof.Machine.execTapReset s
  | .extest => Sys2Proof.Machine.execExtest s
  | .idcode => Sys2Proof.Machine.execIdcode s
  | .samplePreload pins cells => Sys2Proof.Machine.execSamplePreload pins cells s
  | .clamp => Sys2Proof.Machine.execClamp s
  | .highz => Sys2Proof.Machine.execHighz s
  | .bypass code => Sys2Proof.Machine.execBypass code s
  | .eventPersist => Sys2Proof.Machine.execEventPersist s
  | .eventUnfreeze w => Sys2Proof.Machine.execEventUnfreeze w s
  | .fatalValidClear => Sys2Proof.Machine.execFatalValidClear s
  | .stackFillEnd k => Sys2Proof.Machine.execStackFillEnd k s
  | .vauxLoss => Sys2Proof.Machine.execVauxLoss s
  | .hostReadCompletion tlp status data => Sys2Proof.Machine.execHostReadCompletion tlp status data s
  | .completionTimeout r => Sys2Proof.Machine.execCompletionTimeout r s
  | .d3hotExit f => Sys2Proof.Machine.execD3hotExit f s
  | .vfDisable => Sys2Proof.Machine.execVfDisable s

end Sys2Proof.Machine
end

