-- ==== Sys2Proof/Safety.lean ====
section
/-!
DEFINITION. What claims are stated in terms of: the canonical form of the stores, what a step leaves as it was, and the conditions
under which a flit is taken.
-/
namespace Sys2Proof.Machine

/-- Every store is in its one canonical form: the register fields, the lagoon bytes and their words in error, and the stored bytes
of the slices are listed in rising key order, no listed lagoon byte is the zero of the fill where an unlisted one reads so, no
listed lagoon word is free of error, and no listed stored byte equals the fill that an unlisted one reads as. -/
def Memory.wf (s : State) : Bool :=
  s.regs.rising && s.lagoon.rising && s.stored.rising && s.lagoonErr.rising && s.lagoonErr.all (fun e => e.2 != 0)
    && s.lagoon.all (fun e => e.2 != 0#8 || openByte s (e.1 / 2 ^ 20) (e.1 % 2 ^ 20))
    && s.stored.all (fun e => e.2 != storedUnlisted (e.1 / 64 % 2 ^ 24 * 32) (e.1 % 64))

/-- Every byte of the lagoons and of the slices reads as it did. -/
def sameBytes (s t : State) : Prop :=
  (∀ i a, lagoonGet t i a = lagoonGet s i a) ∧ ∀ i o, storedWord t i o = storedWord s i o

/-- No register field but those listed reads otherwise than it did. -/
def otherFieldsKept (fs : List Field) (s t : State) : Prop :=
  ∀ f : Field, (∀ g ∈ fs, g.key ≠ f.key) → t.get f = s.get f

/-- Nothing but register fields differs. -/
def onlyRegs (s t : State) : Prop := t = { s with regs := t.regs }

/-- An undamaged flit that arrives in sequence at a usable port, for this module, in the form of R490. -/
def flitInOrder (p : Nat) (bytes : List Nat) (s : State) : Prop :=
  portState s p = portUp ∧ quarantined s p = false ∧ flitCrcOk bytes = true ∧ (flitOf bytes).reservedOk = true ∧
    (flitOf bytes).bcast = false ∧ (flitOf bytes).dst = moduleNumber s ∧
    (flitOf bytes).lsn = s.get (R.HAR_LSN_RX_EXPECT.at [p])

/-- The state with the link sequence number of a flit taken. -/
def lsnTaken (p : Nat) (bytes : List Nat) (s : State) : State :=
  s.set (R.HAR_LSN_RX_EXPECT.at [p]) ((flitOf bytes).lsn + 1)

/-! Launches of schedule instructions. -/

/-- The sequencer of an isle is at a word of an opcode, and with what the isle has due by its cycle done (`u`) still is, and the word
runs in the present frame. -/
def launches (i op : Nat) (s u : State) (l : Launch) : Prop :=
  nextLaunch s i op = some l ∧ u = land i l.offset s ∧ nextLaunch u i op = some l ∧ launchRuns u l = true

/-- Nothing an isle has launched is still to come, and no lagoon word is in error. -/
def quiet (i : Nat) (s : State) : Prop := (s.isle i).flight = [] ∧ s.lagoonErr = []

/-- The runs of lagoon bytes that the rows of a tensor hold. -/
def Tensor.rowSpans (t : Tensor) : List (Nat × Nat) := (List.range t.desc.rows).map (fun r => (t.row r, t.desc.rowLen))

/-- The sequencer of an isle has moved past the word it was at. -/
def movesOn (i : Nat) (s t : State) : Prop :=
  ((t.isle i).pc, (t.isle i).loops) = stepLoops ((s.isle i).pc + 1) (s.isle i).loops

/-- Every lagoon byte outside some runs of one isle reads as it did. -/
def lagoonKept (i : Nat) (runs : List (Nat × Nat)) (s t : State) : Prop :=
  ∀ j a, a < 2 ^ 20 → (j ≠ i ∨ ∀ r ∈ runs, ∀ k < r.2, (r.1 + k) % 2 ^ 20 ≠ a) → lagoonGet t j a = lagoonGet s j a

/-- Every code word of the slices but those listed of one isle is stored as it was. -/
def slicesKept (i : Nat) (words : List Nat) (s t : State) : Prop :=
  ∀ j o, o < 2 ^ 29 → (j ≠ i ∨ ∀ w ∈ words, w % 2 ^ 29 ≠ wordBase o) → storedWord t j o = storedWord s j o

/-! Which commands change what outlives a frame. -/

/-- Key revocation, and the mailbox commands that program a fuse. -/
def mayChangeFuses : Instr → Bool
  | .keyRevoke _ | .mailboxCommandEnd _ => true
  | _ => false

/-- An image comes into force when its check ends or at a boundary; a reset leaves none. -/
def mayChangeImage : Instr → Bool
  | .imageCheckEnd _ | .localFrameBoundary _ | .rackTick _ | .moduleReset _ | .pilotWatchdogExpiry _ | .mainPgLoss
  | .refclk25Loss | .aonSupplyLoss => true
  | _ => false

/-- A schedule load begins, is judged, waits for a boundary and ends; an image or a reset ends it. -/
def mayChangeLoad : Instr → Bool
  | .scheduleLoadStart _ | .scheduleCheckEnd _ | .scheduleInstallEnd | .imageCheckEnd _ | .localFrameBoundary _
  | .rackTick _ | .moduleReset _ | .pilotWatchdogExpiry _ | .mainPgLoss | .refclk25Loss | .aonSupplyLoss => true
  | _ => false

/-- The keel store's transfers, compactions and commands, its wear counters, its device's table, the tick that starts a frame, and
the resets. -/
def mayChangeKeel : Instr → Bool
  | .sequencerStepComplete _ _ | .thermalShutdown _ | .stopChannelChange _ _ _ | .compactionStart | .compactionEnd _
  | .keelWriteTransfer _ _ _ | .wearRecord | .keelRead _ | .keelHostAppend _ | .keelCompact _ | .pilotPhase _ _ | .keelPhase
  | .rackTick _ | .computeResetEnd _ | .moduleReset _ | .pilotWatchdogExpiry _ | .mainPgLoss | .refclk25Loss
  | .aonSupplyLoss => true
  | _ => false

/-- The phases of bring-up, what stops it, the compute reset and the resets. -/
def mayChangeBoot : Instr → Bool
  | .pilotPhase _ _ | .keelPhase | .selfTestPhase _ _ | .repairPhase | .release _ | .computeResetStart _
  | .computeResetQuiescent | .computeResetSelfTestEnd _ | .computeResetEnd _ | .moduleReset _
  | .pilotWatchdogExpiry _ | .mainPgLoss | .refclk25Loss | .aonSupplyLoss => true
  | _ => false

/-- Power samples, the records that close a sum, frames and the resets. -/
def mayChangeMeters : Instr → Bool
  | .powerSample _ _ | .coolingRecord | .scheduleInstallEnd | .localFrameBoundary _ | .rackTick _ | .moduleReset _
  | .pilotWatchdogExpiry _ | .mainPgLoss | .refclk25Loss | .aonSupplyLoss => true
  | _ => false

end Sys2Proof.Machine
end

