-- ==== Sys2Proof/WellFormed.lean ====
section
/-!
DEFINITION. Well-formed commands: every operand is within the range the spec gives it. A number names a unit that exists, a value
fits the register it is written to, a flit has 256 bytes.
-/
namespace Sys2Proof

/-- The value is below the bound. -/
def below (n k : Nat) : Bool := decide (n < k)

/-- A string of so many bytes. -/
def bytesOf (n : Nat) (bs : List Nat) : Bool := bs.length == n && bs.all (fun b => below b 256)

/-- The widths of a register access (R12). -/
def widthOf (n : Nat) : Bool := n == 1 || n == 2 || n == 4 || n == 8

/-- A value that may be absent, below the bound where it is there; and bytes fetched. -/
def optBelow (k : Nat) : Option Nat → Bool
  | some n => below n k
  | none => true

def optBytes : Option (List Nat) → Bool
  | some bs => bs.all (fun b => below b 256)
  | none => true

/-- A read transfer moves 32 bytes to 4 KiB (R741). -/
def keelTransferOk : KeelTransfer → Bool
  | .read n => decide (32 ≤ n) && decide (n ≤ 4096)
  | _ => true

/-- The header of a TLP: three to seven double words (R477). -/
def hdrOf (h : List Nat) : Bool := decide (12 ≤ h.length) && decide (h.length ≤ 28) && h.all (fun b => below b 256)

/-- Every operand of a command is in range. -/
def Instr.wf : Instr → Bool
  | .registerWrite func a width v => below func 18 && below a (2 ^ 26 + 1) && widthOf width && below v (2 ^ (8 * width))
  | .readClear func a width => below func 18 && below a (2 ^ 26) && widthOf width
  | .aonPhase strap => below strap 64
  | .pilotPhase _ jesd => below jesd (2 ^ 7)
  | .keelPhase => true
  | .powerUpPhase => true
  | .selfTestPhase dies failed => dies.all (fun d => below d 40) && failed.all (fun p => below p 272)
  | .repairPhase => true
  | .fillPhase => true
  | .release us => below us (2 ^ 64)
  | .moduleReset w => below w (2 ^ 32)
  | .pilotWatchdogExpiry core => below core 8
  | .aonSupplyLoss => true
  | .mainPgLoss => true
  | .refclk25Loss => true
  | .refclk100Loss => true
  | .hostLinkReset => true
  | .computeResetRequest w => below w (2 ^ 32)
  | .computeResetStart v => below v (2 ^ 28)
  | .computeResetQuiescent => true
  | .computeResetSelfTestEnd failed => failed.all (fun p => below p 272)
  | .computeResetEnd us => below us (2 ^ 64)
  | .rackTick now => below now (2 ^ 64)
  | .localFrameBoundary now => below now (2 ^ 64)
  | .isleClockRelock => true
  | .frameEnd => true
  | .uncorrectableReadDetect ⟨i, c, _⟩ => below i 256 && below c (2 ^ 28)
  | .voidPoint a v => below a 32 && below v (2 ^ 28)
  | .arrayRampDownEnd ⟨i, c⟩ => below i 256 && below c (2 ^ 32)
  | .nop i => below i 256
  | .loop i => below i 256
  | .mac i => below i 256
  | .l1 i => below i 256
  | .l2sq i => below i 256
  | .max i => below i 256
  | .min i => below i 256
  | .vadd i => below i 256
  | .vsub i => below i 256
  | .vmul i => below i 256
  | .vfma i => below i 256
  | .vmax i => below i 256
  | .vmin i => below i 256
  | .vcvt i => below i 256
  | .vfn i => below i 256
  | .vrsum i => below i 256
  | .vrmax i => below i 256
  | .vsel i => below i 256
  | .vmov i => below i 256
  | .sargmax i => below i 256
  | .sboxdec i => below i 256
  | .snms i => below i 256
  | .lift i => below i 256
  | .lower i => below i 256
  | .mergeEntryTimeout ⟨i, c⟩ => below i 256 && below c (2 ^ 28)
  | .mergeCommit ⟨i, c⟩ => below i 256 && below c (2 ^ 28)
  | .csend i => below i 256
  | .crecv i => below i 256
  | .hsend i => below i 256
  | .hrecv i => below i 256
  | .ferry i damaged => below i 256 && below damaged 11
  | .bend i => below i 256
  | .scheduleLoadStart w => below w (2 ^ 32)
  | .scheduleCheckEnd fetched => optBytes fetched
  | .scheduleInstallEnd => true
  | .quiesce i => below i 256
  | .resume i => below i 256
  | .off i v => below i 256 && below v (2 ^ 28)
  | .on i => below i 256
  | .lagoonFillEnd i => below i 256
  | .islStateRead x width => below x 2048 && widthOf width
  | .refreshSlot ⟨i, c⟩ => below i 256 && below c (2 ^ 32)
  | .selfTimedRefreshSlot i => below i 256
  | .scrubStep i c => below i 256 && below c (2 ^ 32)
  | .lagoonScrub i upsets => below i 256 && upsets.all (fun u => below u.1 (2 ^ 17) && below u.2 (2 ^ 72))
  | .sensorCalibration ⟨die, c⟩ measured => below die 39 && below measured (2 ^ 32) && below c (2 ^ 32)
  | .hostSliceAccess i cycle => below i 256 && below cycle (2 ^ 28)
  | .ceWindowEnd i now => below i 256 && below now (2 ^ 64)
  | .keyLoad i w => below i 256 && below w (2 ^ 32)
  | .keyZeroize i w => below i 256 && below w (2 ^ 32)
  | .flipArm i w => below i 256 && below w (2 ^ 32)
  | .hostviewWrite view => below view 2
  | .nbuFill i n => below i 256 && below n (2 ^ 31)
  | .nbuCopy i n => below i 256 && below n (2 ^ 31)
  | .nbuAcc i n => below i 256 && below n (2 ^ 31)
  | .nbuAxpby i n => below i 256 && below n (2 ^ 31)
  | .nbuAdamw i n => below i 256 && below n (2 ^ 31)
  | .nbuSumsq i n => below i 256 && below n (2 ^ 31)
  | .nbuOperationEnd i damaged => below i 256 && damaged.all (fun d => below d.1 128 && below d.2 (2 ^ 64))
  | .hostNbuCommand i op layers banks imm => below i 256 && below op 256 && below layers 256 && below banks 256 && below imm (2 ^ 16)
  | .hostNbuCommandStart i c damaged => below i 256 && below c (2 ^ 28) && below damaged 11
  | .ferryArbitrationRound i c mgmt slc => below i 256 && below c (2 ^ 28) && below mgmt 256 && below slc 256
  | .quayDoorbell func q pi => below func 17 && below q 64 && below pi (2 ^ 32)
  | .quayConsumerWrite func q ci => below func 17 && below q 64 && below ci (2 ^ 32)
  | .quayHeaderRead q header _ => below q 64 && bytesOf 64 header
  | .quayDeliveryStart q => below q 64
  | .quayDeliveryComplete ⟨q, _⟩ => below q 64
  | .quayEmitOffset q => below q 64
  | .quayPeekRead func q held => below func 17 && below q 64 && below held (2 ^ 64)
  | .quayIdleTimeout q => below q 64
  | .quayEnable func q ctrl => below func 17 && below q 64 && below ctrl (2 ^ 32)
  | .quayDisable func q ctrl => below func 17 && below q 64 && below ctrl (2 ^ 32)
  | .bollardAdd ⟨who, _⟩ b delta => below who 18 && below b 4096 && below delta (2 ^ 32)
  | .bollardTas ⟨who, _⟩ x width => below who 18 && below x 32768 && widthOf width
  | .waiterArm who w ctrl => below who 18 && below w 256 && below ctrl (2 ^ 32)
  | .waiterDisarm who w ctrl => below who 18 && below w 256 && below ctrl (2 ^ 32)
  | .waiterTimeout w => below w 256
  | .linkTrained rate width _ _ => below rate 16 && below width 17
  | .ideIntegrityFailure => true
  | .bar0BadRequest func tag _ => below func 17 && below tag (2 ^ 16)
  | .malformedTlp func ⟨tag, hdr⟩ _ => below func 17 && below tag (2 ^ 16) && hdrOf hdr
  | .bar2Request ⟨tag, hdr⟩ x len _ data _ => below tag (2 ^ 16) && below x (2 ^ 37) && below len 4097 && below data.length 4097 && data.all (fun b => below b 256) && hdrOf hdr
  | .bar2RequestExpiry tag => below tag (2 ^ 16)
  | .bar2WindowWrite offset size => below offset 128 && below size 8
  | .dmaEnable e ctrl => below e 8 && below ctrl (2 ^ 32)
  | .dmaDisable e ctrl => below e 8 && below ctrl (2 ^ 32)
  | .dmaDoorbell e pi => below e 8 && below pi (2 ^ 32)
  | .dmaDescriptorStart e raw status => below e 8 && bytesOf 32 raw && below status 3
  | .dmaArbitrationRound _ => true
  | .dmaTransferComplete e => below e 8
  | .dmaResume e => below e 8
  | .vfFlr f => below f 17 && !below f 1
  | .pfFlr => true
  | .d3hotEntry f => below f 17
  | .dataLinkDown => true
  | .codewordReceive p header _ _ cycle => below p 8 && below header (2 ^ 16) && below cycle (2 ^ 28)
  | .lockingTimeout p => below p 8
  | .pmdTrainingComplete p cycle => below p 8 && below cycle (2 ^ 28)
  | .flitReceive p bytes _ => below p 8 && bytesOf 256 bytes
  | .dataFlitReceive p bytes _ cycle => below p 8 && bytesOf 256 bytes && below cycle (2 ^ 28)
  | .timeFlitReceive p bytes _ pos j t2 => below p 8 && bytesOf 256 bytes && below pos (2 ^ 16) && below j 4 && below t2 (2 ^ 74)
  | .timeReplyReceive p bytes _ pos t4 => below p 8 && bytesOf 256 bytes && below pos (2 ^ 16) && below t4 (2 ^ 74)
  | .heartbeatReceive p bytes _ => below p 8 && bytesOf 256 bytes
  | .protestReceive p bytes _ => below p 8 && bytesOf 256 bytes
  | .retrainReceive p bytes _ => below p 8 && bytesOf 256 bytes
  | .timeFlitSend p j t1 => below p 8 && below j 4 && below t1 (2 ^ 64)
  | .timeReplySend p t3 => below p 8 && below t3 (2 ^ 64)
  | .heartbeatSend p => below p 8
  | .protestSend p => below p 8
  | .dataSlotTransmit p slot idx => below p 8 && below slot 4096 && below idx 512
  | .receiveBufferDiscard p slot => below p 8 && below slot 4096
  | .quarantineWindowEnd p => below p 8
  | .quarantineClear p cycle => below p 8 && below cycle (2 ^ 28)
  | .portEnable p => below p 8
  | .portDisable p => below p 8
  | .retrainRequest p => below p 8
  | .retrainTick p => below p 8
  | .fecWindowEnd p now => below p 8 && below now (2 ^ 64)
  | .lhtEnable _ => true
  | .lhtLock => true
  | .acquireListenExpiry => true
  | .locked => true
  | .holdover => true
  | .holdoverLimitExpiry => true
  | .ltStep => true
  | .backupPromotion => true
  | .masterDemotion => true
  | .dpolicyWrite v => below v (2 ^ 32)
  | .imageLoadStart w => below w (2 ^ 32)
  | .imageCheckEnd fetched => optBytes fetched
  | .imageCancel w => below w (2 ^ 32)
  | .keyRevoke w => below w (2 ^ 32)
  | .domainOnRequest d => below d 18 && !below d 2
  | .domainOffRequest d v => below d 18 && !below d 2 && below v (2 ^ 28)
  | .sequencerStepComplete ⟨d, v⟩ _ => below d 18 && below v (2 ^ 28)
  | .powerGoodTimeout d v => below d 18 && below v (2 ^ 28)
  | .holdOffExpiry d => below d 18
  | .railOutOfRegulation r v => below r 13 && below v (2 ^ 28)
  | .clockLockLoss n v => below n 60 && below v (2 ^ 28)
  | .overpower v => below v (2 ^ 28)
  | .avsAdjust k _ _ v => below k 4 && below v (2 ^ 28)
  | .avsWriteTimeout k => below k 4
  | .powerSample rails mw => rails.length == 13 && rails.all (fun r => below r.1 (2 ^ 16) && below r.2 (2 ^ 16)) && below mw (2 ^ 32)
  | .hostCapWrite w => below w (2 ^ 32)
  | .sensorConversion n count now v => below n 428 && below count (2 ^ 32) && below now (2 ^ 64) && below v (2 ^ 28)
  | .thermalShutdown v => below v (2 ^ 28)
  | .compensationUpdate => true
  | .shutdownLatchClear w => below w (2 ^ 32)
  | .thresholdWrite _ w => below w (2 ^ 32)
  | .thmLock => true
  | .coolingRecord => true
  | .pumpFaultClear => true
  | .stopChannelChange _ _ v => below v (2 ^ 28)
  | .discrepancyExpiry => true
  | .stopLatchClear w => below w (2 ^ 32)
  | .channelFaultClear w => below w (2 ^ 32)
  | .swoCommand n w => below n 2 && below w (2 ^ 32)
  | .swoTrip n => below n 2
  | .swoRetry n => below n 2
  | .swoRetryReset n => below n 2
  | .backfeedLatch n => below n 2
  | .backfeedClear n w mv => below n 2 && below w (2 ^ 32) && below mv (2 ^ 16)
  | .loopCommand w => below w (2 ^ 32)
  | .loopHeadroomMeasure vaux pin ua swo => below vaux (2 ^ 16) && below pin (2 ^ 16) && below ua (2 ^ 16) && swo.length == 2 && swo.all (fun r => below r.1 (2 ^ 16) && below r.2 (2 ^ 16))
  | .complianceLost => true
  | .loopOpen => true
  | .keelAppend kind payload => below kind 9 && !below kind 1 && below payload.length 4077 && payload.all (fun b => below b 256)
  | .keelWriteTransfer t c _ => keelTransferOk t && below c (2 ^ 28)
  | .wearRecord => true
  | .compactionStart => true
  | .compactionEnd _ => true
  | .keelRead w => below w (2 ^ 32)
  | .keelHostAppend w => below w (2 ^ 32)
  | .keelCompact w => below w (2 ^ 32)
  | .checkpointRequest w now => below w (2 ^ 32) && below now (2 ^ 64)
  | .pieceReceive p slot k => below p 8 && below slot 4096 && below k (2 ^ 16)
  | .sealReceive p slot k => below p 8 && below slot 4096 && below k (2 ^ 16)
  | .ackReceive p slot k now => below p 8 && below slot 4096 && below k (2 ^ 16) && below now (2 ^ 64)
  | .missReceive p slot k => below p 8 && below slot 4096 && below k (2 ^ 16)
  | .nakReceive p slot k now => below p 8 && below slot 4096 && below k (2 ^ 16) && below now (2 ^ 64)
  | .abandonExpiry now => below now (2 ^ 64)
  | .checkpointEnable w now => below w (2 ^ 32) && below now (2 ^ 64)
  | .checkpointDisable w now => below w (2 ^ 32) && below now (2 ^ 64)
  | .clearMaps w now => below w (2 ^ 32) && below now (2 ^ 64)
  | .refugeReset w now => below w (2 ^ 32) && below now (2 ^ 64)
  | .restoreStart w => below w (2 ^ 32)
  | .ownershipRequest core line cycle wb => below core 8 && below line (2 ^ 64) && below cycle (2 ^ 64) && optBelow 8 wb
  | .directoryRound => true
  | .getInfo => true
  | .fwUpdate => true
  | .fwCommitFloor => true
  | .keyEnroll => true
  | .mailboxBadOpcode op => below op 256
  | .mailboxCommandEnd image => optBelow (2 ^ 32) image
  | .mctpBadPacket _ => true
  | .mctpUnsupportedType _ => true
  | .setEndpointId _ eid => below eid 256
  | .getEndpointId _ => true
  | .getEndpointUuid _ => true
  | .getMctpVersionSupport _ type => below type 256
  | .getMessageTypeSupport _ => true
  | .unsupportedControlCommand _ cmd => below cmd 256
  | .spdmRequest path _ => below path 3
  | .getTid _ => true
  | .getPldmVersion _ type => below type 256
  | .getPldmTypes _ => true
  | .getPldmCommands _ type => below type 256
  | .getPdrRepositoryInfo _ => true
  | .getPdr _ handle => below handle (2 ^ 32)
  | .getSensorReading _ id => below id (2 ^ 16)
  | .getSensorThresholds _ id => below id (2 ^ 16)
  | .setNumericSensorEnable _ id _ => below id (2 ^ 16)
  | .setStateEffecterStates _ id state v => below id (2 ^ 16) && below state 256 && below v (2 ^ 28)
  | .getStateEffecterStates _ id => below id (2 ^ 16)
  | .setNumericEffecterValue _ id w => below id (2 ^ 16) && below w (2 ^ 32)
  | .getNumericEffecterValue _ id => below id (2 ^ 16)
  | .setEventReceiver _ eid => below eid 256
  | .getEventReceiver _ => true
  | .platformEventMessage _ => true
  | .platformEventRetryTimeout _ => true
  | .pilLock w => below w (2 ^ 32)
  | .tapReset => true
  | .extest => true
  | .idcode => true
  | .samplePreload pins cells => pins.length == cells.length
  | .clamp => true
  | .highz => true
  | .bypass code => below code 256
  | .eventPersist => true
  | .eventUnfreeze w => below w (2 ^ 32)
  | .fatalValidClear => true
  | .stackFillEnd k => below k 4
  | .vauxLoss => true
  | .hostReadCompletion ⟨r, hdr⟩ status data => below r 72 && below status 3 && data.all (fun b => below b 256) && hdrOf hdr
  | .completionTimeout r => below r 72
  | .d3hotExit f => below f 17
  | .vfDisable => true

end Sys2Proof
end

