-- ==== Sys2Proof/Certificates/Slice0/Obligations.lean ====
section
/-!
DEFINITION. The statements for the provers. Each says what it formalises; a statement that names an operation of the model says
where a command's effect goes, and the operation's own rules are stated beside it.
-/
open Sys2Proof Sys2Proof.Machine

/-! The queue of commands and the store of bytes. -/

/-- A step takes the command at the front of the queue and runs it with the queue's rest. -/
def Obligations.StepRunsFrontCommand : Prop :=
  ∀ (c : Instr) (rest : List Instr) (s : State), s.pending = c :: rest → step s = exec c { s with pending := rest }

/-- With no command waiting the machine goes on: a running LT advances by 1 ns unless the next rack tick is 1 ns away (the
model's choice, log entry 4), and nothing else changes. -/
def Obligations.IdleStepAdvancesTime : Prop :=
  ∀ s : State, s.pending = [] →
    ((s.lh.running = false → step s = .next s) ∧
     (s.lh.running = true → s.lh.hasOrigin = false → step s = .next (s.set R.LHT_LT_LT (s.get R.LHT_LT_LT + 1))) ∧
     (s.lh.running = true → s.lh.hasOrigin = true →
        (tickLt s (s.get R.LHT_FN_FN + 1) + 2 ^ 64 - s.get R.LHT_LT_LT) % 2 ^ 64 = 1 → step s = .next s))

/-- Every step leaves the queue with one command fewer, its order kept, and never stops. -/
def Obligations.EveryStepTakesOneCommand : Prop :=
  ∀ s : State, ∃ t, step s = .next t ∧ t.pending = s.pending.tail

/-- The machine after power-on: its stores are in canonical form and nothing waits, every register field reads its reset
value, every lagoon byte and every bollard is 0, no isle, domain or image is in force, LT does not run and the lighthouse is
FREE (R29, R130, R593; a field whose table names a source reads 0 until it is loaded: R857, log entry 5). -/
def Obligations.ResetState : Prop :=
  Memory.wf State.reset = true ∧ State.reset.pending = [] ∧ (∀ f : Field, State.reset.get f = f.reset) ∧
    (∀ i a, lagoonGet State.reset i a = 0#8) ∧ (∀ b, bollard State.reset b = 0) ∧
    (∀ i, isleState State.reset i = .off) ∧ (∀ d, domainOn State.reset d = false) ∧ State.reset.image = none ∧
    lhState State.reset = 0 ∧ State.reset.lh.running = false ∧
    ∀ i o, (storedWord State.reset i o).take 32 = List.replicate 32 0

/-- Every step keeps the stores of register fields, lagoon bytes and stored bytes in their one canonical form. -/
def Obligations.StepKeepsMemoryForm : Prop :=
  ∀ s t : State, Memory.wf s = true → step s = .next t → Memory.wf t = true

/-- Only their own commands change what outlives a frame: the fuses, the image in force, the schedule load in hand, the keel
store's blocks and snapshots, the boot record and the meters; every other command leaves each of them as it was. -/
def Obligations.OnlyTheirCommandsChange : Prop :=
  ∀ (c : Instr) (s t : State), exec c s = .next t →
    (mayChangeFuses c = false → t.fuses = s.fuses) ∧ (mayChangeImage c = false → t.image = s.image) ∧
    (mayChangeLoad c = false → t.sched = s.sched) ∧ (mayChangeKeel c = false → t.keel = s.keel) ∧
    (mayChangeBoot c = false → t.boot = s.boot) ∧ (mayChangeMeters c = false → t.meter = s.meter) ∧ t.pending = s.pending

/-! The code of stored words. -/

/-- The check bytes are the one choice that makes the four syndromes of a word zero at its own offset (R304). -/
def Obligations.CheckBytesZeroTheSyndromes : Prop :=
  ∀ (d : List Nat) (o : Nat), d.length = 32 → (∀ b ∈ d, b < 256) →
    syndromes (encodeWord d o ++ foldedAddress o) = [0, 0, 0, 0] ∧ (checkBytes d o).length = 4 ∧
    (∀ b ∈ checkBytes d o, b < 256) ∧
    ∀ c, c.length = 4 → (∀ b ∈ c, b < 256) → syndromes (d ++ c ++ foldedAddress o) = [0, 0, 0, 0] → c = checkBytes d o

/-- A word read at the offset it was written for: as encoded it is CLEAN, written poisoned it is POISONED, and with any one of
its 36 symbols changed it is CORRECTED, each with its own data delivered; one written at an offset that differs in a row, code
word or low bank bit alone is uncorrectable with class ADDRESS (R305, R306). -/
def Obligations.CodeWordsDecode : Prop :=
  ∀ (d : List Nat) (o : Nat), d.length = 32 → (∀ b ∈ d, b < 256) →
    decodeWord (encodeWord d o) o = (.clean, d) ∧ decodeWord (poisonWord d o) o = (.poisoned, d) ∧
    (∀ p v, p < 36 → v < 256 → v ≠ nth (encodeWord d o) p 0 →
      decodeWord (setNth (encodeWord d o) p v) o = (.corrected p, d)) ∧
    ∀ x, 0 < x → x < 2 ^ 19 → decodeWord (encodeWord d (o.xor (32 * x))) o = (.address, d)

/-! Registers and the event log. -/

/-- A register field reads what was last written to it, cut to its width, and no other field changes. A counter of the block
stops at its field's largest value, and a wrapping one takes its sum modulo its width. A field written over the bus obeys its
access code (R9): RW sets it, W1C clears the bits written 1, W1S sets them, RO and RC ignore the write, and RWL sets it only
while the LOCK bit of its block is 0. -/
def Obligations.FieldsAndAccessCodes : Prop :=
  (∀ (s : State) (f g : Field) (v : Nat),
     (s.set f v).get f = v % 2 ^ f.width ∧ (g.key ≠ f.key → (s.set f v).get g = s.get g)) ∧
  (∀ (s : State) (f : Field) (n : Nat),
     (s.bump f n).get f = Nat.min (s.get f + n) (2 ^ f.width - 1) ∧ (s.count f n).get f = (s.get f + n) % 2 ^ f.width) ∧
  (∀ (s : State) (func v : Nat) (f : Field), reachable s f = true → writable s func f = true →
     (f.acc = .rw → writeField s func f v = s.set f v) ∧
     (f.acc = .w1c → writeField s func f v = s.set f (s.get f - (s.get f).land v)) ∧
     (f.acc = .w1s → writeField s func f v = s.set f ((s.get f).lor v)) ∧
     (f.acc = .ro ∨ f.acc = .rc → writeField s func f v = s) ∧
     (f.acc = .rwl → blockLocked s f.addr = true → writeField s func f v = s) ∧
     (f.acc = .rwl → blockLocked s f.addr = false → writeField s func f v = s.set f v))

/-- An event raised takes the next SEQ, whatever becomes of its entry (R812). An event raised while the ring is frozen is not
entered; it counts in LOST, and the entries stay as they are (R815). -/
def Obligations.EventEntryRules : Prop :=
  (∀ (s : State) (code unit detail : Nat), s.log.gathered = none → s.log.freezeLeft = none → severity code ≠ 3 →
     (raise code unit detail s).get R.EVT_SEQ_NEXT_SEQ = (s.get R.EVT_SEQ_NEXT_SEQ + 1) % 2 ^ 32) ∧
  (∀ (s : State) (code unit detail k w : Nat), s.flag R.EVT_STATUS_FROZEN = true → k < 4096 → w < 4 →
     (enterEvent code unit detail s).get R.EVT_LOSS_LOST =
         Nat.min (s.get R.EVT_LOSS_LOST + 1) (2 ^ R.EVT_LOSS_LOST.width - 1) ∧
       (enterEvent code unit detail s).get (R.EVT_LOG_DATA.at [k, w]) = s.get (R.EVT_LOG_DATA.at [k, w]))

/-- Commands on the log: 1 written to FATAL_VALID clears it and keeps the copy; UNFREEZE ends a freeze, or cancels a pending
one; with nothing waiting, EVENT_PERSIST only ends the spacing, and otherwise the waiting entries go into the next record. -/
def Obligations.EventLogCommands : Prop :=
  ∀ (s : State) (w : Nat),
    (decodes s 0 = true → ∃ t, exec .fatalValidClear s = .next t ∧ t.get R.EVT_STATUS_FATAL_VALID = 0 ∧
      otherFieldsKept [R.EVT_STATUS_FATAL_VALID] s t ∧ onlyRegs s t) ∧
    (decodes s 0 = true → domainOn s 0 = true → s.flag R.EVT_STATUS_FROZEN = true → ∃ t,
      exec (.eventUnfreeze w) s = .next t ∧ t.get R.EVT_STATUS_FROZEN = 0 ∧ onlyRegs s t ∧
      t.get R.EVT_SEQ_NEXT_SEQ = s.get R.EVT_SEQ_NEXT_SEQ) ∧
    (decodes s 0 = true → domainOn s 0 = true → s.flag R.EVT_STATUS_FROZEN = false → ∃ t,
      exec (.eventUnfreeze w) s = .next t ∧ t.log.freezeLeft = none ∧ t.flag R.EVT_STATUS_FROZEN = false) ∧
    (keelState s ≠ keelUnmounted → s.log.persist ≠ [] →
      exec .eventPersist s = .next (keelAppend 6
        ([(s.log.persist.take 127).length % 256, (s.log.persist.take 127).length / 256, 0, 0] ++
          ((s.log.persist.take 127).map Entry.bytes).flatten)
        { s with log := { s.log with persist := s.log.persist.drop 127, spacing := true } }))

/-! Bollards and waiter slots. -/

/-- An ADD with delta 0 has no effect and is not counted (R418). -/
def Obligations.BollardAddZeroHasNoEffect : Prop :=
  ∀ (s : State) (b : Nat), bolAdd b 0 s = s

/-- An ADD leaves the bollard at the exact sum held between 0 and 2³² − 1, and every other bollard as it was; one that is held
at a limit counts in SAT_COUNT and is recorded in SAT_LAST (R416, R417). BOLLARD_ADD and BOLLARD_TAS of a reached bollard: alone
in its cycle the operation is applied at once and the waiter slots are evaluated when the value rose; with more of its cycle to
come it joins the operations gathered, in the order of R423; and one of the physical function is held behind its earlier BAR2
writes (R416, R423, R424, R430). -/
def Obligations.BollardOperations : Prop :=
  (∀ (s : State) (b : Nat) (delta : Int), b < 4096 → delta ≠ 0 →
     ((bollard (bolAdd b delta s) b : Int) = clampInt 0 4294967295 (bollard s b + delta)) ∧
     (∀ c, c < 4096 → c ≠ b → bollard (bolAdd b delta s) c = bollard s c) ∧
     (0 ≤ (bollard s b : Int) + delta → (bollard s b : Int) + delta ≤ 4294967295 →
       bolAdd b delta s = setBollard b ((bollard s b : Int) + delta).toNat s) ∧
     ((bollard s b : Int) + delta < 0 ∨ 4294967295 < (bollard s b : Int) + delta →
       (bolAdd b delta s).get R.BOL_STATUS_SAT_LAST = b ∧
       (bolAdd b delta s).get R.BOL_STATUS_SAT_COUNT =
         Nat.min (s.get R.BOL_STATUS_SAT_COUNT + 1) (2 ^ R.BOL_STATUS_SAT_COUNT.width - 1))) ∧
  (∀ (s : State) (who b delta : Nat), bollardReached s who b = true →
     (who ≠ 0 ∨ (pendingBar2Writes s = [] ∧ s.hif.held = []) →
       (s.cycleOps = [] → s.cycleArms = [] →
         exec (.bollardAdd ⟨who, false⟩ b delta) s = .next (
           if bollard s b < bollard (bolAdd b (toSigned 32 delta) s) b then evalWaiters [b] [] (bolAdd b (toSigned 32 delta) s)
           else bolAdd b (toSigned 32 delta) s) ∧
         exec (.bollardTas ⟨who, false⟩ (8 * b) 4) s = .next (
           if bollard s b = 0 then evalWaiters [b] [] ((setBollard b 1 s).emit (.value 0)) else s.emit (.value (bollard s b)))) ∧
       exec (.bollardAdd ⟨who, true⟩ b delta) s = .next { s with
         cycleOps := insertOp ⟨issuerRank who, b, some (toSigned 32 delta)⟩ s.cycleOps } ∧
       exec (.bollardTas ⟨who, true⟩ (8 * b) 4) s = .next { s with cycleOps := insertOp ⟨issuerRank who, b, none⟩ s.cycleOps }) ∧
     (∀ more, who = 0 → pendingBar2Writes s ≠ [] →
       exec (.bollardAdd ⟨who, more⟩ b delta) s = .next { s with hif := { s.hif with
         held := s.hif.held ++ [⟨.bollardAdd ⟨who, more⟩ b delta, pendingBar2Writes s⟩] } } ∧
       exec (.bollardTas ⟨who, more⟩ (8 * b) 4) s = .next { s with hif := { s.hif with
         held := s.hif.held ++ [⟨.bollardTas ⟨who, more⟩ (8 * b) 4, pendingBar2Writes s⟩] } }))

/-- WAITER_ARM: a threshold of 0 or a bollard out of the owner's reach is refused with ARM_ERR; a slot whose bollard is below
its threshold is armed; one whose bollard already meets it fires at the end of the cycle, recording the value and FN[15:0], and
takes its threshold off the bollard where it consumes (R429, R430). WAITER_DISARM disarms a slot at once and sends nothing, and
configures one that is not armed; a timeout disarms it, sets TIMED_OUT, sends its message and raises 0x0302 (R432, R433). -/
def Obligations.WaiterSlots : Prop :=
  (∀ (s : State) (who w ctrl : Nat), slotReached s who w = true → who ≠ 0 ∨ s.hif.held = [] →
     s.flag (R.BOL_WAIT_CTRL_ARM.at [w]) = false → bits ctrl 14 3 = 0 →
     (s.get (R.BOL_WAIT_THRESH_THRESHOLD.at [w]) = 0 ∨ mayWatch s w (bits ctrl 0 12) = false → ∃ t,
       exec (.waiterArm who w ctrl) s = .next t ∧ t.flag (R.BOL_WAIT_CTRL_ARM.at [w]) = false ∧
       t.get (R.BOL_WAIT_CTRL_ARM_ERR.at [w]) = 1 ∧ t.out = s.out) ∧
     (mayWatch s w (bits ctrl 0 12) = true → bollard s (bits ctrl 0 12) < s.get (R.BOL_WAIT_THRESH_THRESHOLD.at [w]) → ∃ t,
       exec (.waiterArm who w ctrl) s = .next t ∧ t.get (R.BOL_WAIT_CTRL_ARM.at [w]) = 1 ∧
       t.get (R.BOL_WAIT_CTRL_BOLLARD.at [w]) = bits ctrl 0 12 ∧ t.out = s.out) ∧
     (mayWatch s w (bits ctrl 0 12) = true → s.get (R.BOL_WAIT_THRESH_THRESHOLD.at [w]) ≠ 0 →
       s.get (R.BOL_WAIT_THRESH_THRESHOLD.at [w]) ≤ bollard s (bits ctrl 0 12) → s.cycleOps = [] → ∃ t,
       exec (.waiterArm who w ctrl) s = .next t ∧ t.get (R.BOL_WAIT_CTRL_ARM.at [w]) = 0 ∧
       t.get (R.BOL_WAIT_CTRL_FIRED.at [w]) = 1 ∧
       t.get (R.BOL_WAIT_RESULT_VALUE.at [w]) = bollard s (bits ctrl 0 12) % 2 ^ 32 ∧
       t.get (R.BOL_WAIT_RESULT_FN.at [w]) = s.get R.LHT_FN_FN % 65536 ∧
       bollard t (bits ctrl 0 12) = (if bit ctrl 12 then
         (bollard s (bits ctrl 0 12) - s.get (R.BOL_WAIT_THRESH_THRESHOLD.at [w])) % 2 ^ 32 else bollard s (bits ctrl 0 12)) ∧
       (slotOwner w = 17 → t.out = s.out ++ [.pilotNotice w]))) ∧
  (∀ (s : State) (who w ctrl : Nat),
     (slotReached s who w = true → who ≠ 0 ∨ s.hif.held = [] → bits ctrl 14 3 = 0 →
       exec (.waiterDisarm who w ctrl) s = .next (if s.flag (R.BOL_WAIT_CTRL_ARM.at [w]) then
         s.set (R.BOL_WAIT_CTRL_ARM.at [w]) 0 else waiterConfig w ctrl s)) ∧
     (s.flag (R.BOL_WAIT_CTRL_ARM.at [w]) = true → s.get (R.BOL_WAIT_TIMEOUT_TIMEOUT_US.at [w]) ≠ 0 →
       exec (.waiterTimeout w) s = .next (raise 0x0302 w 0 (waiterNotice w
         ((s.set (R.BOL_WAIT_CTRL_ARM.at [w]) 0).set (R.BOL_WAIT_CTRL_TIMED_OUT.at [w]) 1)))) ∧
     (s.get (R.BOL_WAIT_TIMEOUT_TIMEOUT_US.at [w]) = 0 → exec (.waiterTimeout w) s = .next s))

/-! The lighthouse. LHT_STATUS holds the state codes 0 FREE, 1 ACQUIRE, 2 LOCKED, 3 HOLDOVER, 4 UNLOCKED, 5 MASTER. -/

/-- A D policy that sets D_MIN above D_MAX is ignored in full, and one that sets D_MIN below D_base is applied with D_base
(R38). -/
def Obligations.DpolicyWriteRule : Prop :=
  ∀ (s : State) (v : Nat), decodes s 0 = true →
    (bits v 8 5 < bits v 0 5 → exec (.dpolicyWrite v) s = .next s) ∧
    (bits v 0 5 ≤ bits v 8 5 → exec (.dpolicyWrite v) s = .next
      ((s.set R.LHT_DPOLICY_D_MIN (Nat.max (bits v 0 5) (s.get R.LHT_FRAME_CFG_D_BASE))).set R.LHT_DPOLICY_D_MAX (bits v 8 5)))

/-- ENABLE and LOCK of LHT_CTRL: enabled in FREE with an image in force, a module that the image does not name as master
enters ACQUIRE and starts LT, and one named master listens first; without an image it stays in FREE; disabled, it returns to
FREE and LT keeps its value (R29, R30). The state table: a named master that heard no other enters MASTER with LT and
TICK_ORIGIN at LHT_LT_PRESET; HOLDOVER is entered from LOCKED after MASTER_LOSS_FRAMES rack frames with no port in use, unless
the backup promotes itself, and its limit leads to UNLOCKED, where the count of good rack frames starts again; 16 of them lead from ACQUIRE, HOLDOVER and
UNLOCKED to LOCKED, or to MASTER for a module that is to become master, with no step of LT pending any more; each entry raises its event (R29, R30, R56, R57, R58, R583, R861, R862). A master
that heard one that wins demotes itself to ACQUIRE at the next rack tick and raises 0x0105, and no other register of the
lighthouse changes (R59). -/
def Obligations.LighthouseStates : Prop :=
  (∀ s : State, decodes s 0 = true →
     (exec .lhtLock s = .next (s.set R.LHT_CTRL_LOCK 1)) ∧
     (s.image = none → exec (.lhtEnable true) s = .next (s.set R.LHT_CTRL_ENABLE 1)) ∧
     (∀ im, s.image = some im → lhState s = 0 → im.master ≠ moduleNumber s → ∃ t, exec (.lhtEnable true) s = .next t ∧
       lhState t = 1 ∧ t.lh.running = true ∧ t.lh.listening = false ∧ t.get R.LHT_LT_LT = s.get R.LHT_LT_LT) ∧
     (∀ im, s.image = some im → lhState s = 0 → im.master = moduleNumber s → ∃ t, exec (.lhtEnable true) s = .next t ∧
       lhState t = 1 ∧ t.lh.running = s.lh.running ∧ t.lh.listening = true) ∧
     (∃ t, exec (.lhtEnable false) s = .next t ∧ lhState t = 0 ∧ t.get R.LHT_CTRL_ENABLE = 0 ∧
       t.get R.LHT_STATUS_EVER_LOCKED = 0 ∧ t.lh.running = s.lh.running ∧ t.get R.LHT_LT_LT = s.get R.LHT_LT_LT ∧ sameBytes s t)) ∧
  (∀ s : State,
     (lhState s = 1 → s.lh.listening = true → ∃ t, exec .acquireListenExpiry s = .next t ∧ lhState t = 5 ∧
       t.get R.LHT_LT_LT = s.get R.LHT_LT_PRESET_PRESET % 2 ^ 64 ∧
       t.get R.LHT_TICK_ORIGIN_ORIGIN = s.get R.LHT_LT_PRESET_PRESET % 2 ^ 64 ∧ t.get R.LHT_STATUS_EVER_LOCKED = 1 ∧
       t.lh.running = true) ∧
     (lhState s = 2 → masterLoss s ≤ s.lh.noPort → backupPromotes s = false →
       exec .holdover s = .next (raise 0x0102 noUnit 0 (s.set R.LHT_STATUS_STATE 3))) ∧
     (lhState s = 3 → exec .holdoverLimitExpiry s = .next (raise 0x0103 noUnit 0
       { s.set R.LHT_STATUS_STATE 4 with lh := { s.lh with good := 0 } })) ∧
     (lhState s = 1 ∨ lhState s = 3 ∨ lhState s = 4 → 16 ≤ s.lh.good → s.flag R.LHT_STATUS_PERIOD_MISMATCH = false → ∃ t,
       exec .locked s = .next t ∧ lhState t = (if s.lh.masterOnLock then 5 else 2) ∧
       t.get R.LHT_STATUS_EVER_LOCKED = 1 ∧ t.lh.step = none ∧ t.get R.LHT_LT_LT = s.get R.LHT_LT_LT)) ∧
  (∀ (s : State) (m : Nat), lhState s = 5 → s.lh.demote = some m → ∃ t, exec .masterDemotion s = .next t ∧ lhState t = 1 ∧
     t.lh.demote = none ∧ t.lh.following = false ∧ t.get R.LHT_LT_LT = s.get R.LHT_LT_LT ∧
     t.get R.LHT_STATUS_MASTER_EPOCH = s.get R.LHT_STATUS_MASTER_EPOCH ∧ t.get R.LHT_FN_FN = s.get R.LHT_FN_FN ∧ sameBytes s t)

/-- The backup in LOCKED or HOLDOVER that has not heard the master for MASTER_LOSS_FRAMES rack frames enters MASTER,
increments the 8-bit epoch, raises 0x0104 and continues its LT and FN without a step; in any other state it does not promote
itself (R58). -/
def Obligations.BackupPromotionRule : Prop :=
  ∀ s : State,
    (s.image.map (fun im => im.backup) = some (moduleNumber s) → lhState s = 2 ∨ lhState s = 3 →
      masterLoss s ≤ s.lh.noMaster → ∃ t, exec .backupPromotion s = .next t ∧ lhState t = 5 ∧
      t.get R.LHT_STATUS_MASTER_EPOCH = (s.get R.LHT_STATUS_MASTER_EPOCH + 1) % 256 ∧
      t.get R.LHT_STATUS_MASTER_ID = moduleNumber s % 64 ∧ t.get R.LHT_LT_LT = s.get R.LHT_LT_LT ∧
      t.get R.LHT_FN_FN = s.get R.LHT_FN_FN ∧ t.get R.LHT_TICK_ORIGIN_ORIGIN = s.get R.LHT_TICK_ORIGIN_ORIGIN) ∧
    (lhState s = 0 ∨ lhState s = 1 ∨ lhState s = 4 → exec .backupPromotion s = .next s)

/-- A step of LT is taken up only in ACQUIRE before first lock, when the median exceeds 1 µs; it waits for the boundary and LT
does not change yet (R55). -/
def Obligations.StepOnlyBeforeFirstLock : Prop :=
  ∀ (s : State) (m : Int), medianOf s = some m →
    (lhState s = 1 → s.flag R.LHT_STATUS_EVER_LOCKED = false → 4000000 < m.natAbs →
      exec .ltStep s = .next { s with lh := { s.lh with step := some (-(m / 4)) } }) ∧
    (s.flag R.LHT_STATUS_EVER_LOCKED = true → exec .ltStep s = .next s) ∧
    (m.natAbs ≤ 4000000 → exec .ltStep s = .next s)

/-- Time-transfer flits sent and answered, on a port that is no loopback: a master sends each of the four flits of a rack frame
once, at its own position, with its next LSN and the LT of that position; a follower that heard flit 0 replies once and keeps its
send time; a reply that a master takes is echoed with its arrival modulo 2³² ps (R489, R504 to R506). A master's valid flit: one
from a module that the image does not name raises 0x0108 and is not followed; one that a follower in ACQUIRE with no master yet
receives is followed, and starts LT (R59, R544). TIME_FLIT_RECEIVE: a master's flit in order, in form and in the time region is
taken as R59 and R544 say; a loopback port takes no part (R566). -/
def Obligations.TimeTransferFlits : Prop :=
  (∀ (s : State) (p j t1 : Nat) (bytes : List Nat) (pos t4 : Nat), portState s p = 3 →
     (lhState s = 5 → j < 4 → loopback s p = false → (s.port p).posted.contains j = false → ∃ t f,
       exec (.timeFlitSend p j (flitTime s j)) s = .next t ∧ t.out = s.out ++ [.flit p f] ∧ (f.drop 12).take 8 = le 8 (flitTime s j) ∧
       t.get (R.HAR_LSN_TX_NEXT.at [p]) = (s.get (R.HAR_LSN_TX_NEXT.at [p]) + 1) % 2 ^ 24 ∧
       (t.port p).posted = j :: (s.port p).posted ∧ otherFieldsKept [R.HAR_LSN_TX_NEXT.at [p]] s t) ∧
     ((s.port p).posted.contains j = true ∨ loopback s p = true ∨ t1 ≠ flitTime s j → exec (.timeFlitSend p j t1) s = .next s) ∧
     (1 ≤ lhState s → lhState s ≤ 4 → loopback s p = false → s.lh.toAnswer.contains p = true → ∃ t f,
       exec (.timeReplySend p (flitTime s (16 + moduleNumber s))) s = .next t ∧ t.out = s.out ++ [.flit p f] ∧ t.lh.toAnswer = s.lh.toAnswer.erase p ∧
       (f.drop 12).take 8 = le 8 (flitTime s (16 + moduleNumber s)) ∧
       t.get (R.HAR_LSN_TX_NEXT.at [p]) = (s.get (R.HAR_LSN_TX_NEXT.at [p]) + 1) % 2 ^ 24) ∧
     (lhState s = 5 → loopback s p = false → flitInOrder p bytes s → typeOf bytes = 2 → isReply bytes = true →
       timeFormOk (flitOf bytes) pos = true → (resolveFn (s.get R.LHT_FN_FN) (flitOf bytes).fn).isSome = true →
       exec (.timeReplyReceive p bytes false pos t4) s = .next { lsnTaken p bytes s with lh := { s.lh with
         echoes := KMap.put 0 s.lh.echoes (p * 64 + (flitOf bytes).src)
           (t4 % 2 ^ 32 + bits (leAt (flitOf bytes).payload 0x1C 4) 0 24 * 2 ^ 32 + 1) } })) ∧
  (∀ (s : State) (p j t2 : Nat) (f : Flit),
     (namedMaster s f.src = false → takeMaster p j t2 f s = raiseOnce 0x0108 f.src 0 (s.set R.GLB_RACK_FOREIGN 1)) ∧
     (namedMaster s f.src = true → f.src = moduleNumber s → takeMaster p j t2 f s = s) ∧
     (namedMaster s f.src = true → f.src ≠ moduleNumber s → lhState s = 1 → s.lh.following = false → j ≠ 0 →
       j ≠ moduleNumber s / 16 →
       (takeMaster p j t2 f s).lh.following = true ∧ (takeMaster p j t2 f s).lh.running = true ∧
       (takeMaster p j t2 f s).get R.LHT_STATUS_MASTER_ID = f.src % 64 ∧
       (takeMaster p j t2 f s).get R.LHT_STATUS_MASTER_EPOCH = leAt f.payload 0x1A 1 % 256)) ∧
  (∀ (s : State) (p pos j t2 : Nat) (bytes : List Nat), typeOf bytes = 2 → isReply bytes = false →
     portState s p = 3 → quarantined s p = false → flitCrcOk bytes = true → (flitOf bytes).reservedOk = true →
     (flitOf bytes).bcast = true → (flitOf bytes).dst = 0 → (flitOf bytes).lsn = s.get (R.HAR_LSN_RX_EXPECT.at [p]) →
     (resolveFn (s.get R.LHT_FN_FN) (flitOf bytes).fn).isSome = true → timeFormOk (flitOf bytes) pos = true →
     leAt (flitOf bytes).payload 0x1B 1 = 0 →
     exec (.timeFlitReceive p bytes false pos j t2) s = .next (if loopback s p then lsnTaken p bytes s
       else takeMaster p (j % 4) t2 (flitOf bytes) (lsnTaken p bytes s)))

/-! Harbour ports. HAR_STATUS holds the state codes 0 OFF, 1 TRAINING, 2 LOCKING, 3 UP. -/

/-- Enabling a powered port of a role that trains takes it from OFF to TRAINING; disabling one that is UP turns it OFF,
reports the loss and ends its quarantine; writing 1 to QUARANTINED ends the quarantine with 0x0406 (R514, R515). Codeword
headers: a port in LOCKING with three valid headers gains lock with a fourth, both link sequence numbers restart at 0 and
0x0401 is raised; a port that is UP leaves it at the third invalid header in a row (R482, R491, R515). A port that has not
regained lock in time enters TRAINING; one that ends training is UP, and is reported; the violation count returns
to 0 at each FN that is a multiple of QUAR_WINDOW (R512, R515, R517). A receive buffer whose HRECV does not run is judged and discarded, and at the tick of a retrain the port
enters full training (R503, R516). -/
def Obligations.PortStates : Prop :=
  (∀ (s : State) (p cycle : Nat), p < 8 → decodes s 0 = true → domainOn s (portDomain p) = true →
     (portState s p = 0 → s.get (R.HAR_STATUS_ROLE.at [p]) ≠ 0 → exec (.portEnable p) s = .next
       ((s.set (R.HAR_CTRL_ENABLE.at [p]) 1).set (R.HAR_STATUS_STATE.at [p]) 1)) ∧
     (s.get (R.HAR_STATUS_ROLE.at [p]) = 0 → exec (.portEnable p) s = .next (s.set (R.HAR_CTRL_ENABLE.at [p]) 1)) ∧
     (∃ t, exec (.portDisable p) s = .next t ∧ portState t p = 0 ∧ t.get (R.HAR_CTRL_ENABLE.at [p]) = 0 ∧
       quarantined t p = false ∧ (t.port p).tx = [] ∧ t.get R.LHT_LT_LT = s.get R.LHT_LT_LT ∧ sameBytes s t) ∧
     (quarantined s p = true → exec (.quarantineClear p cycle) s = .next (raise 0x0406 p 0
       ((s.modPort p (fun v => { v with backAt := some cycle })).set (R.HAR_STATUS_QUARANTINED.at [p]) 0)))) ∧
  (∀ (s : State) (p header cycle : Nat), p < 8 →
     (portState s p = 2 → 3 ≤ (s.port p).valid → headerValid (s.port p).header header = true → ∃ t,
       exec (.codewordReceive p header false false cycle) s = .next t ∧ portState t p = 3 ∧
       t.get (R.HAR_LSN_TX_NEXT.at [p]) = 0 ∧ t.get (R.HAR_LSN_RX_EXPECT.at [p]) = 0) ∧
     (portState s p = 3 → 2 ≤ (s.port p).invalid → headerValid (s.port p).header header = false → ∃ t,
       exec (.codewordReceive p header false false cycle) s = .next t ∧ portState t p = 2 ∧ (t.port p).tx = []) ∧
     (portState s p = 3 → headerValid (s.port p).header header = true → (s.port p).recent = [] → ∃ t,
       exec (.codewordReceive p header true false cycle) s = .next t ∧ portState t p = 3 ∧ (t.port p).invalid = 0 ∧
       t.get (R.HAR_FEC_CORR_CODEWORDS.at [p]) =
         (s.get (R.HAR_FEC_CORR_CODEWORDS.at [p]) + 1) % 2 ^ R.HAR_FEC_CORR_CODEWORDS.width) ∧
     (portState s p = 0 ∨ portState s p = 1 → exec (.codewordReceive p header true true cycle) s = .next s)) ∧
  (∀ (s : State) (p cycle : Nat), p < 8 →
     (portState s p = 2 → ∃ t, exec (.lockingTimeout p) s = .next t ∧ portState t p = 1 ∧
       t.get R.LHT_LT_LT = s.get R.LHT_LT_LT ∧ sameBytes s t) ∧
     (portState s p = 1 → ∃ t, exec (.pmdTrainingComplete p cycle) s = .next t ∧ portState t p = 3 ∧
       t.get (R.HAR_LSN_TX_NEXT.at [p]) = 0 ∧ t.get (R.HAR_LSN_RX_EXPECT.at [p]) = 0) ∧
     (s.get R.LHT_FN_FN % Nat.max 1 (s.get (R.HAR_QUAR_CFG_QUAR_WINDOW.at [p])) = 0 →
       (s.port p).windowFn ≠ some (s.get R.LHT_FN_FN) → ∃ t, exec (.quarantineWindowEnd p) s = .next t ∧
       t.get (R.HAR_QUAR_STAT_WINDOW_COUNT.at [p]) = 0 ∧ (t.port p).reasons = [] ∧
       (t.port p).windowFn = some (s.get R.LHT_FN_FN) ∧ otherFieldsKept [R.HAR_QUAR_STAT_WINDOW_COUNT.at [p]] s t) ∧
     (s.get R.LHT_FN_FN % Nat.max 1 (s.get (R.HAR_QUAR_CFG_QUAR_WINDOW.at [p])) ≠ 0 →
       exec (.quarantineWindowEnd p) s = .next s)) ∧
  (∀ (s : State) (p slot tick : Nat), p < 8 →
     (∀ e, slotOf s p slot = some e → e.kind = 2 → ∃ t, exec (.receiveBufferDiscard p slot) s = .next t ∧
       rxOf t p slot = [] ∧ t.get R.LHT_LT_LT = s.get R.LHT_LT_LT ∧ sameBytes s t) ∧
     ((s.port p).retrainAt = some tick → tick ≤ s.get R.LHT_FN_FN → ∃ t, exec (.retrainTick p) s = .next t ∧
       portState t p = 1 ∧ t.get (R.HAR_STATUS_RETRAIN_PENDING.at [p]) = 0 ∧ (t.port p).retrainAt = none) ∧
     ((s.port p).retrainAt = some tick → s.get R.LHT_FN_FN < tick → exec (.retrainTick p) s = .next s))

/-- The sequence check of a flit (R490): in sequence it is passed on and the next LSN is expected; ahead of it the lost flits
are added to LOST; anything else is violation 3; and a quarantined port drops DATA and TIME flits without protest (R513). A
flit that arrives damaged is dropped and counted in DAMAGED, and is never a violation (R488); an IDLE flit in sequence is
ignored; a CONTROL flit of no defined opcode is violation 8 (R509). -/
def Obligations.FlitChecks : Prop :=
  (∀ (s : State) (p : Nat) (bytes : List Nat), typeOf bytes = 1 →
     (flitInOrder p bytes s → judgeFlit p (flitOf bytes) s = .accept (lsnTaken p bytes s)) ∧
     (quarantined s p = false → (flitOf bytes).reservedOk = true → (flitOf bytes).bcast = false →
       (flitOf bytes).dst = moduleNumber s → ∀ d, 0 < d → d < 2 ^ 23 →
       (flitOf bytes).lsn = s.get (R.HAR_LSN_RX_EXPECT.at [p]) + d →
       judgeFlit p (flitOf bytes) s = .accept (lsnTaken p bytes (s.bump (R.HAR_FLIT_ERR_LOST.at [p]) d))) ∧
     (quarantined s p = false → (flitOf bytes).reservedOk = true → (flitOf bytes).bcast = false →
       (flitOf bytes).dst = moduleNumber s → (flitOf bytes).lsn + 1 = s.get (R.HAR_LSN_RX_EXPECT.at [p]) →
       judgeFlit p (flitOf bytes) s = .violates 3 s)) ∧
  (∀ (s : State) (p : Nat) (bytes : List Nat), portState s p = 3 →
     (exec (.flitReceive p bytes true) s = .next (s.bump (R.HAR_FLIT_ERR_DAMAGED.at [p]))) ∧
     (flitInOrder p bytes s → typeOf bytes = 0 → (resolveFn (s.get R.LHT_FN_FN) (flitOf bytes).fn).isSome = true →
       exec (.flitReceive p bytes false) s = .next (s.set (R.HAR_LSN_RX_EXPECT.at [p]) (flitOf bytes).lsn)) ∧
     (flitInOrder p bytes s → typeOf bytes = 3 → 3 < opcodeOf bytes → (s.port p).controls < 16 →
       (resolveFn (s.get R.LHT_FN_FN) (flitOf bytes).fn).isSome = true →
       exec (.flitReceive p bytes false) s = .next (violation p 8 (flitOf bytes)
         ((lsnTaken p bytes s).modPort p (fun v => { v with controls := v.controls + 1 })))))

/-- A DATA flit in sequence is accepted into the buffer of its DATA_RX slot when R499 holds in each of its parts, and
otherwise it is violation 4 or 5; nothing but the port and the expected LSN changes when it is accepted. -/
def Obligations.DataFlitAcceptance : Prop :=
  ∀ (s : State) (p cycle : Nat) (bytes : List Nat) (e : SlotEntry) (fn : Nat), flitInOrder p bytes s → typeOf bytes = 1 →
    slotOf s p (flitOf bytes).slot = some e → e.kind = 2 →
    ((flitOf bytes).src = e.peer → (flitOf bytes).idx < e.len →
      (s.port p).rx.any (fun x => x.1 == rxKey (flitOf bytes).slot (flitOf bytes).idx) = false → cycle < e.cycle →
      resolveFn (s.get R.LHT_FN_FN) (flitOf bytes).fn = some fn → lastRendezvous s = some fn →
      exec (.dataFlitReceive p bytes false cycle) s = .next ((lsnTaken p bytes s).modPort p (fun v =>
        { v with rx := v.rx ++ [(rxKey (flitOf bytes).slot (flitOf bytes).idx,
          ⟨(flitOf bytes).cause, (flitOf bytes).payload⟩)] }))) ∧
    (e.cycle ≤ cycle → exec (.dataFlitReceive p bytes false cycle) s =
      .next (violation p 5 (flitOf bytes) (lsnTaken p bytes s))) ∧
    ((flitOf bytes).src ≠ e.peer → exec (.dataFlitReceive p bytes false cycle) s =
      .next (violation p 5 (flitOf bytes) (lsnTaken p bytes s)))

/-- Control flits in sequence and in form: a HEARTBEAT is kept as the partner's last, a PROTEST is recorded and raises 0x0403,
and a RETRAIN whose tick lies 1 to 65,535 rack frames ahead is honoured while any other is a violation (R509, R510). -/
def Obligations.ControlFlits : Prop :=
  ∀ (s : State) (p : Nat) (bytes : List Nat), p < 8 → flitInOrder p bytes s → typeOf bytes = 3 → (s.port p).controls < 16 →
    (resolveFn (s.get R.LHT_FN_FN) (flitOf bytes).fn).isSome = true → controlFormOk (flitOf bytes) = true →
    (opcodeOf bytes = 1 → ∃ t, exec (.heartbeatReceive p bytes false) s = .next t ∧
      (t.port p).partner = some (leAt (flitOf bytes).payload 1 1, leAt (flitOf bytes).payload 2 1,
        leAt (flitOf bytes).payload 8 8, leAt (flitOf bytes).payload 16 3, leAt (flitOf bytes).payload 20 2)) ∧
    (opcodeOf bytes = 2 → ∃ t, exec (.protestReceive p bytes false) s = .next t ∧
      t.get (R.HAR_PROTEST_RX_LSN.at [p]) = leAt (flitOf bytes).payload 2 3 % 2 ^ 24 ∧
      t.get (R.HAR_PROTEST_RX_SLOT.at [p]) = leAt (flitOf bytes).payload 6 2 % 2 ^ 12 ∧
      t.get (R.HAR_LSN_RX_EXPECT.at [p]) = ((flitOf bytes).lsn + 1) % 2 ^ 24) ∧
    (opcodeOf bytes = 3 → s.get R.LHT_FN_FN < leAt (flitOf bytes).payload 8 8 →
      leAt (flitOf bytes).payload 8 8 ≤ s.get R.LHT_FN_FN + 65535 → ∃ t, exec (.retrainReceive p bytes false) s = .next t ∧
      (t.port p).retrainAt = some (leAt (flitOf bytes).payload 8 8) ∧ t.get (R.HAR_STATUS_RETRAIN_PENDING.at [p]) = 1) ∧
    (opcodeOf bytes = 3 → leAt (flitOf bytes).payload 8 8 ≤ s.get R.LHT_FN_FN → exec (.retrainReceive p bytes false) s =
      .next (violation p 8 (flitOf bytes) ((lsnTaken p bytes s).modPort p (fun v => { v with controls := v.controls + 1 }))))

/-- What a port sends: one HEARTBEAT a rack frame, with state 4 while it is quarantined, the first PROTEST waiting, each DATA flit
of a DATA_TX slot once at its rendezvous, with the CAUSE of R498, and a RETRAIN that names a tick at least two rack frames ahead; each takes the next LSN. -/
def Obligations.PortTransmissions : Prop :=
  ∀ (s : State) (p slot idx : Nat), p < 8 → portState s p = 3 →
    ((s.port p).posted.contains 88 = true → exec (.heartbeatSend p) s = .next s) ∧
    ((s.port p).posted.contains 88 = false → ∃ t f, exec (.heartbeatSend p) s = .next t ∧ t.out = s.out ++ [.flit p f] ∧
      nth f 14 0 = (if quarantined s p then 4 else 3) ∧ (t.port p).posted = 88 :: (s.port p).posted ∧
      t.get (R.HAR_LSN_TX_NEXT.at [p]) = (s.get (R.HAR_LSN_TX_NEXT.at [p]) + 1) % 2 ^ 24 ∧ sameBytes s t) ∧
    (∀ x rest, (s.port p).protests = x :: rest → ∃ t f, exec (.protestSend p) s = .next t ∧ (t.port p).protests = rest ∧
      t.out = s.out ++ [.flit p f] ∧ t.get (R.HAR_PROTEST_TX_LSN.at [p]) = x.lsn % 2 ^ 24) ∧
    (∀ e fn, slotOf s p slot = some e → lastRendezvous s = some fn → e.kind = 1 → idx < e.len →
      1 < s.get R.LHT_STATUS_STATE →
      ((sentAt s p fn).contains (rxKey slot idx) = true → exec (.dataSlotTransmit p slot idx) s = .next s) ∧
      ((sentAt s p fn).contains (rxKey slot idx) = false → exec (.dataSlotTransmit p slot idx) s = .next
        (sendFlit p 1 (sendCause s p slot fn e) e.peer false slot idx fn
          (if sendCause s p slot fn e = 0 then ((KMap.get [] (s.port p).tx slot).drop (240 * idx)).take 240 else [])
          (s.modPort p (fun v => { v with sentFn := some fn, sent := rxKey slot idx :: sentAt s p fn }))))) ∧
    (decodes s 0 = true → domainOn s (portDomain p) = true → ∃ t tick f, exec (.retrainRequest p) s = .next t ∧
      (t.port p).retrainAt = some tick ∧ s.get R.LHT_FN_FN + 2 ≤ tick ∧ (t.port p).retrainOwn = true ∧
      t.out = s.out ++ [.flit p f])

/-! Quays. -/

/-- Index writes: a producer index less than 2³¹ ahead of the old one and no more than a ring ahead of CI is taken, any other
is refused with 0x0205; a consumer index between CI and PI is taken, and restarts the idle timer where CI advances; any other is
refused (R392, R410). -/
def Obligations.QuayIndexWrites : Prop :=
  ∀ (s : State) (func q v : Nat), func ≠ 0 ∨ s.hif.held = [] →
    (quayReached s func q false = true → idxSub v (quayPi s q) < 2 ^ 31 → idxSub v (quayCi s q) ≤ ringWords s q →
      exec (.quayDoorbell func q v) s = .next (s.set (R.QUA_PROD_PI.at [q]) v)) ∧
    (quayReached s func q false = true → 2 ^ 31 ≤ idxSub v (quayPi s q) ∨ ringWords s q < idxSub v (quayCi s q) →
      exec (.quayDoorbell func q v) s = .next (errorNotice q (raise 0x0205 q 0 (s.bump (R.QUA_ERR_DB_REFUSED.at [q]))))) ∧
    (quayReached s func q true = true → 0 < idxSub v (quayCi s q) → idxSub v (quayCi s q) ≤ occupancy s q →
      exec (.quayConsumerWrite func q v) s = .next ((s.set (R.QUA_CONS_CI.at [q]) v).modQuay q
        (fun u => { u with idleDone := false }))) ∧
    (quayReached s func q true = true → idxSub v (quayCi s q) = 0 → exec (.quayConsumerWrite func q v) s = .next s) ∧
    (quayReached s func q true = true → occupancy s q < idxSub v (quayCi s q) →
      exec (.quayConsumerWrite func q v) s =
        .next (errorNotice q (raise 0x0205 q 0 (s.bump (R.QUA_ERR_DB_REFUSED.at [q])))))

/-- The engine reads the header at CI. From a ring in host memory it is judged as it comes back: an errored read halts the quay with
cause 4, a header whose VALID bit is 0 with cause 1, a wrong SEQ with cause 2, one that reaches past PI with cause 3; a good one
becomes the packet in progress and a bad one vanishes (R384, R394 to R396). From a ring in device memory it is read as host traffic
is, behind what waits at the slice (R91, R394). A halted quay holds its cause and raises 0x0202; a bad packet vanishes: it is
counted, CI and SEQ advance past it and no byte of memory changes for it (R399, R413). -/
def Obligations.QuayHeaders : Prop :=
  (∀ (s : State) (q : Nat) (b : QuayBind) (h : List Nat) (bad : Bool), bindOf s q = some b → b.toHost = false →
     quayEnabled s q = true → s.flag (R.QUA_STATUS_HALTED.at [q]) = false → (s.quay q).packet = none →
     (s.quay q).heading = false → occupancy s q ≠ 0 → hostLinkReady s = true → ∀ a u, a = ringByte s q (quayCi s q) 0 →
     u = s.emit (.hostRead b.func a 64) →
     (inDevice s q = true → exec (.quayHeaderRead q h bad) s = .next ((s.modQuay q (fun v => { v with heading := true })).modSlice
       (dpaIsle a) (fun v => { v with hostq := v.hostq ++ [⟨.ringHead q, dpaOffset a, 64, false, [], 0, []⟩] }))) ∧
     (inDevice s q = false →
       exec (.quayHeaderRead q h true) s = .next (quayHalt q 4 u) ∧
       (bit (leAt h 0 8) 63 = false → exec (.quayHeaderRead q h false) s = .next (quayHalt q 1 u)) ∧
       (bit (leAt h 0 8) 63 = true → bits (leAt h 0 8) 0 32 ≠ quaySeq s q →
         exec (.quayHeaderRead q h false) s = .next (quayHalt q 2 u)) ∧
       (bit (leAt h 0 8) 63 = true → bits (leAt h 0 8) 0 32 = quaySeq s q →
         (occupancy s q < bits (leAt h 0 8) 48 8 + 1 → exec (.quayHeaderRead q h false) s = .next (quayHalt q 3 u)) ∧
         (bits (leAt h 0 8) 48 8 + 1 ≤ occupancy s q →
           (packetReason s b h ≠ 0 →
             exec (.quayHeaderRead q h false) s = .next (packetBad q (packetReason s b h) (packetOf s h) u)) ∧
           (packetReason s b h = 0 → ∃ t, exec (.quayHeaderRead q h false) s = .next t ∧
             (t.quay q).packet = some (packetOf s h) ∧ t.get (R.QUA_STATUS_BUSY.at [q]) = 1 ∧ t.out = u.out ∧
             otherFieldsKept [R.QUA_STATUS_BUSY.at [q]] s t ∧ sameBytes s t))))) ∧
  (∀ (s : State) (q cause : Nat) (p : Packet), q < 64 → cause < 8 →
     ((quayHalt q cause s).get (R.QUA_STATUS_HALTED.at [q]) = 1 ∧
       (quayHalt q cause s).get (R.QUA_STATUS_HALT_CAUSE.at [q]) = cause ∧
       (quayHalt q cause s).get (R.QUA_CONS_CI.at [q]) = s.get (R.QUA_CONS_CI.at [q]) ∧ sameBytes s (quayHalt q cause s)) ∧
     (∀ b, bindOf s q = some b → inDevice s q = false →
       (packetBad q cause p s).get (R.QUA_CONS_CI.at [q]) = (s.get (R.QUA_CONS_CI.at [q]) + p.words) % 2 ^ 32 ∧
       (packetBad q cause p s).get (R.QUA_SEQ_SEQ.at [q]) = (s.get (R.QUA_SEQ_SEQ.at [q]) + 1) % 2 ^ 32 ∧
       (packetBad q cause p s).get (R.QUA_COUNT_DROPPED.at [q]) =
         Nat.min (s.get (R.QUA_COUNT_DROPPED.at [q]) + 1) 65535 ∧
       (packetBad q cause p s).get (R.QUA_ERR_REASON.at [q]) = cause ∧
       ((packetBad q cause p s).quay q).packet = none ∧ sameBytes s (packetBad q cause p s)))

/-- A delivery starts once its not-before frame is reached; complete, it makes its bollard addition before anything else, among
the operations of its cycle, then consumes the packet: its header reads zero again, CI and SEQ advance, and it is counted (R397,
R398). At EMIT_OFFSET a quay without room for its packet, beside those still on their way to the ring, counts it as dropped and
raises 0x0203; with room it reserves the packet and its outlet read waits at the slice (R400 to R402). -/
def Obligations.QuayDeliveries : Prop :=
  (∀ (s : State) (q : Nat) (b : QuayBind) (p : Packet) (more : Bool), bindOf s q = some b → (s.quay q).packet = some p →
     (p.notBefore.getD 0 ≤ s.get R.LHT_FN_FN → exec (.quayDeliveryStart q) s = .next (s.modQuay q (fun v =>
       { v with packet := some { p with started := true } }))) ∧
     (s.get R.LHT_FN_FN < p.notBefore.getD 0 → exec (.quayDeliveryStart q) s = .next s) ∧
     (p.started = true → p.bytes ≤ p.written → p.fate = none →
       (p.addition = none → p.notify = false → inDevice s q = false → ∃ t,
         exec (.quayDeliveryComplete ⟨q, more⟩) s = .next t ∧ (t.quay q).packet = none ∧
         t.get (R.QUA_CONS_CI.at [q]) = (s.get (R.QUA_CONS_CI.at [q]) + p.words) % 2 ^ 32 ∧
         t.get (R.QUA_SEQ_SEQ.at [q]) = (s.get (R.QUA_SEQ_SEQ.at [q]) + 1) % 2 ^ 32 ∧
         t.get (R.QUA_STATUS_BUSY.at [q]) = b2n ((s.quay q).emission.isSome || !(s.quay q).closing.isEmpty) ∧
         t.out = s.out ++ [.hostWrite b.func (ringByte s q (quayCi s q) 0) (List.replicate 8 0) false] ∧ sameBytes s t) ∧
       (∀ bol n, p.addition = some (bol, n) → exec (.quayDeliveryComplete ⟨q, more⟩) s =
         .next (consumePacket q b.func p 0 (cycleOp ⟨quayRank q, bol, some (n : Int)⟩ more s))))) ∧
  (∀ (s : State) (q : Nat) (b : QuayBind), bindOf s q = some b → b.toHost = true → quayEnabled s q = true →
     (s.arch b.arch).frame = .wet ∨ (s.arch b.arch).frame = .replay → (s.arch b.arch).voidAt = none → s.frame.running = true →
     s.frame.window = false → (s.quay q).emission = none → hostLinkReady s = true →
     (ringWords s q - (occupancy s q + closingWords s q b) < b.outWords + 1 → exec (.quayEmitOffset q) s =
       .next (raise 0x0203 q 0 (s.bump (R.QUA_COUNT_DROPPED_FULL.at [q])))) ∧
     (b.outWords + 1 ≤ ringWords s q - (occupancy s q + closingWords s q b) → ∃ t, exec (.quayEmitOffset q) s = .next t ∧
       (t.quay q).emission = some { start := (quayPi s q + closingWords s q b) % 2 ^ 32 } ∧
       t.get (R.QUA_STATUS_BUSY.at [q]) = 1 ∧
       (t.slice b.isle).hostq = (s.slice b.isle).hostq ++ [⟨.emission q, b.outlet, 64 * b.outWords, false, [], 0, []⟩] ∧
       otherFieldsKept [R.QUA_STATUS_BUSY.at [q]] s t ∧ sameBytes s t))

/-- Enabling a quay whose ring is not allowed sets ENABLE_ERR; enabling one whose ring is allowed restarts both indices at 0
and SEQ at SEQ_START; disabling it drops its work and clears its halt (R411, R412). A peek of a ring in host memory returns
the header there as it stands, of a TO_HOST quay only where it is valid, and 0 where the ring holds nothing; of a TO_HOST quay it
restarts the idle timer and else changes nothing; an idle timer that runs out raises its notice once (R405, R410). -/
def Obligations.QuayEnableAndPeek : Prop :=
  (∀ (s : State) (func q ctrl : Nat) (b : QuayBind), q < 64 → bindOf s q = some b → b.func = func → decodes s func = true →
     func ≠ 0 ∨ s.hif.held = [] →
     (∀ u, u = writeRest func (R.QUA_CTRL_ENABLE.at [q]).addr ctrl s →
       (ringOk u q = false → exec (.quayEnable func q ctrl) s = .next (u.set (R.QUA_CTRL_ENABLE_ERR.at [q]) 1)) ∧
       (ringOk u q = true → ∃ t, exec (.quayEnable func q ctrl) s = .next t ∧ t.get (R.QUA_CTRL_ENABLE.at [q]) = 1 ∧
         t.get (R.QUA_PROD_PI.at [q]) = 0 ∧ t.get (R.QUA_CONS_CI.at [q]) = 0 ∧
         t.get (R.QUA_SEQ_SEQ.at [q]) = u.get (R.QUA_SEQ_START_START.at [q]) % 2 ^ 32 ∧ sameBytes s t)) ∧
     (quayEnabled (writeRest func (R.QUA_CTRL_ENABLE.at [q]).addr ctrl s) q = true → ∃ t,
       exec (.quayDisable func q ctrl) s = .next t ∧ t.get (R.QUA_CTRL_ENABLE.at [q]) = 0 ∧
       t.get (R.QUA_STATUS_HALTED.at [q]) = 0 ∧ t.get (R.QUA_STATUS_BUSY.at [q]) = 0 ∧ (t.quay q).packet = none ∧
       (t.quay q).emission = none ∧ (t.quay q).closing = [] ∧ sameBytes s t)) ∧
  (∀ (s : State) (func q held : Nat) (b : QuayBind), bindOf s q = some b → decodes s func = true → (func = 0 ∨ b.func = func) →
     func ≠ 0 ∨ s.hif.held = [] →
     (inDevice s q = false → b.toHost = false → exec (.quayPeekRead func q held) s = .next (s.emit (.value
       (if occupancy s q = 0 then 0 else held)))) ∧
     (inDevice s q = false → b.toHost = true → exec (.quayPeekRead func q held) s = .next
       ((s.modQuay q (fun v => { v with idleDone := false })).emit (.value
         (if occupancy s q = 0 || !bit held 63 then 0 else held)))) ∧
     (occupancy s q ≠ 0 → s.get (R.QUA_NOTICE_IDLE_US.at [q]) ≠ 0 → (s.quay q).idleDone = false → ∃ t,
       exec (.quayIdleTimeout q) s = .next t ∧ (t.quay q).idleDone = true ∧ t.flag (R.QUA_STATUS_IDLE.at [q]) = true) ∧
     ((s.quay q).idleDone = true → exec (.quayIdleTimeout q) s = .next s))

/-! The host interface. -/

/-- Naturally aligned register accesses of a function that decodes its BAR0: a write as wide as a listed register sets its fields
by their access codes, one of 8 bytes at a 32-bit register counts as two of 4, and a narrower or misaligned one is discarded and
counted in BAR0_BAD; a read as wide as the register returns its fields and restarts its RC fields, a narrower one has no side
effect, and a misaligned one is refused (R9, R12, R443). -/
def Obligations.RegisterAccessWidths : Prop :=
  ∀ (s : State) (func a v : Nat) (r : Reg), decodes s func = true → regAt (viewAddr func a) = some r → listed s func a = true →
    msixAt func a = none → func ≠ 0 ∨ s.hif.held = [] →
    (r.bytes = 4 → a % 4 = 0 → exec (.registerWrite func a 4 v) s = .next (noneRequested a v (writeReg s func r v))) ∧
    (r.bytes = 8 → a % 8 = 0 → exec (.registerWrite func a 8 v) s = .next (noneRequested a v (writeReg s func r v))) ∧
    (r.bytes = 4 → a % 8 = 0 → exec (.registerWrite func a 8 v) s =
      .next (bar0Write4 func (a + 4) (bits v 32 32) (noneRequested a (bits v 0 32) (writeReg s func r (bits v 0 32))))) ∧
    (∀ width, width = 1 ∨ width = 2 ∨ (width = 4 ∧ a % 4 ≠ 0) →
      exec (.registerWrite func a width v) s = .next (raiseOnceFrame 0x0011 func 0 (s.bump R.GLB_HIF_ERR_BAR0_BAD))) ∧
    (tasAt (viewAddr func a) = none → isleStateAt (viewAddr func a) = none → peekAt (viewAddr func a) = none → tasAt a = none →
      tasAt (a + 4) = none →
      (r.bytes = 8 → a % 8 = 0 →
        exec (.readClear func a 8) s = .next ((clearRead r s func).emit (.value (regValue s r func)))) ∧
      (r.bytes = 4 → a % 4 = 0 →
        exec (.readClear func a 4) s = .next ((clearRead r s func).emit (.value (regValue s r func))))) ∧
    (a % 2 = 0 → ∃ x, exec (.readClear func a 2) s = .next (s.emit (.value x))) ∧
    (∃ x, exec (.readClear func a 1) s = .next (s.emit (.value x))) ∧
    (a % 4 ≠ 0 → tasAt a = none → exec (.readClear func a 4) s =
      .next ((raiseOnceFrame 0x0011 func 0 (s.bump R.GLB_HIF_ERR_BAR0_BAD)).emit (.readRefused func)))

/-- Bad requests and the link: a bad BAR0 read is counted and answered as an unsupported request; other TLPs that the module does
not take are reported with their header, which the log keeps where it holds none; a zero-length read completes with no effect; a
training below full rate or width raises 0x0015; an IDE failure clears IDE_SECURE (R435, R436, R438, R443, R477). A request of the
physical function to BAR0 waits behind those that wait (R444). BAR2: the view and window of later requests are set; a request that
nothing refuses is queued at the slice its view names, one without credit is withheld, a poisoned write is discarded, a refused
read is completed with an abort, and an expired request is withdrawn and refused (R286, R445, R449, R451, R453, R455). -/
def Obligations.HostRequests : Prop :=
  (∀ (s : State) (func tag rate width : Nat) (ide flit : Bool) (hdr : List Nat),
     (∃ t, exec (.bar0BadRequest func tag true) s = .next t ∧ t.out = s.out ++ [.completion tag 1 [] false] ∧
       t.get R.GLB_HIF_ERR_BAR0_BAD = Nat.min (s.get R.GLB_HIF_ERR_BAR0_BAD + 1) (2 ^ R.GLB_HIF_ERR_BAR0_BAD.width - 1)) ∧
     (exec (.malformedTlp func ⟨tag, hdr⟩ .zeroLengthRead) s = .next (s.emit (.completion tag 0 [0, 0, 0, 0] false))) ∧
     (exec (.malformedTlp func ⟨tag, hdr⟩ .poisonedWrite) s = .next (aerReport func "Poisoned TLP Received" hdr s)) ∧
     (exec (.malformedTlp func ⟨tag, hdr⟩ .malformed) s = .next (aerReport func "Malformed TLP" hdr s)) ∧
     (exec (.malformedTlp func ⟨tag, hdr⟩ .unexpectedCompletion) s = .next (aerReport func "Unexpected Completion" hdr s)) ∧
     (exec (.malformedTlp func ⟨tag, hdr⟩ .vendorMessage) s = .next s) ∧
     ((aerReport func "Malformed TLP" hdr s).out = s.out ++ [.aer func "Malformed TLP" hdr] ∧
       (KMap.get [] s.hif.headerLog func = [] →
         KMap.get [] (aerReport func "Malformed TLP" hdr s).hif.headerLog func = hdr) ∧
       (KMap.get [] s.hif.headerLog func ≠ [] → (aerReport func "Malformed TLP" hdr s).hif = s.hif)) ∧
     (domainOn s 1 = true → ∃ t, exec (.linkTrained rate width flit ide) s = .next t ∧ t.get R.GLB_HIF_LINK_RATE = rate % 8 ∧
       t.get R.GLB_HIF_LINK_WIDTH = width % 32 ∧ t.flag R.GLB_HIF_LINK_IDE_SECURE = ide ∧ sameBytes s t) ∧
     (exec .ideIntegrityFailure s = .next (raise 0x0016 0 0
       (aerReport 0 "IDE Check Failed" [] (s.set R.GLB_HIF_LINK_IDE_SECURE 0))))) ∧
  (∀ (s : State) (a b d e : Nat), decodes s 0 = true → s.hif.held ≠ [] → ∀ c ∈ [Instr.registerWrite 0 (a % 2 ^ 26) b d,
       .islStateRead a b, .waiterArm 0 a b, .waiterDisarm 0 a b, .quayDoorbell 0 a b, .quayConsumerWrite 0 a b,
       .quayPeekRead 0 a b, .quayEnable 0 a b, .quayDisable 0 a b, .hostviewWrite a, .bar2WindowWrite a b, .dmaEnable e b,
       .dmaDisable e b, .dmaDoorbell e b, .dmaResume e],
     exec c s = .next { s with hif := { s.hif with held := s.hif.held ++ [⟨c, []⟩] } }) ∧
  (∀ (s : State) (tag x len view offset size : Nat) (data hdr : List Nat), decodes s 0 = true →
     (s.hif.held = [] → exec (.hostviewWrite view) s = .next (s.set R.GLB_HOSTVIEW_VIEW view) ∧
       (size ≤ 7 → exec (.bar2WindowWrite offset size) s =
         .next { s.set R.GLB_BAR2_WINDOW_OFFSET_GIB offset with hif := { s.hif with bar2Size := size } })) ∧
     (∀ dpa, dpa = viewDpa (s.flag R.GLB_HOSTVIEW_VIEW) (bar2Address s x) →
       (0 < len → x + len ≤ 2 ^ (30 + s.hif.bar2Size) →
         (512 ≤ heldReads s → exec (.bar2Request ⟨tag, hdr⟩ x len false [] false) s = .next (s.emit (.withheld tag))) ∧
         (heldReads s < 512 → hostRefused s (dpaIsle dpa) (dpaOffset dpa) len false = false →
           exec (.bar2Request ⟨tag, hdr⟩ x len false [] false) s = .next (s.modSlice (dpaIsle dpa) (fun v =>
             { v with hostq := v.hostq ++ [⟨.bar2 tag hdr, dpaOffset dpa, len, false, [], 0, []⟩] }))) ∧
         (heldReads s < 512 → dramOn s (dpaIsle dpa) = false → ∃ t,
           exec (.bar2Request ⟨tag, hdr⟩ x len false [] false) s = .next t ∧
           t.out = s.out ++ [.completion tag 4 [] false] ∧ sameBytes s t)) ∧
       (data ≠ [] → x + data.length ≤ 2 ^ (30 + s.hif.bar2Size) →
         exec (.bar2Request ⟨tag, hdr⟩ x len true data true) s = .next (aerReport 0 "Poisoned TLP Received" hdr s) ∧
         (2 ^ 21 < stagedBytes s + data.length →
           exec (.bar2Request ⟨tag, hdr⟩ x len true data false) s = .next (s.emit (.withheld tag))) ∧
         (stagedBytes s + data.length ≤ 2 ^ 21 → hostRefused s (dpaIsle dpa) (dpaOffset dpa) data.length true = false →
           exec (.bar2Request ⟨tag, hdr⟩ x len true data false) s = .next (s.modSlice (dpaIsle dpa) (fun v =>
             { v with hostq := v.hostq ++ [⟨.bar2 tag hdr, dpaOffset dpa, data.length, true, data, 0, []⟩] }))))) ∧
     (∀ a, ((s.slices.map (fun e => e.2.hostq)).flatten).find? (ofTag tag) = some a → a.write = false ∨ s.hif.held = [] → ∃ t,
       exec (.bar2RequestExpiry tag) s = .next t ∧
       t.get R.GLB_HIF_ERR_EXPIRED = Nat.min (s.get R.GLB_HIF_ERR_EXPIRED + 1) (2 ^ R.GLB_HIF_ERR_EXPIRED.width - 1) ∧
       (a.write = false → t.out = s.out ++ [.completion tag 4 [] false]) ∧ sameBytes s t ∧
       ∀ i, ∀ b ∈ (t.slice i).hostq, ofTag tag b = false))

/-- DMA control: a doorbell no more than a ring ahead of CI is taken and any other counts in DB_REFUSED; an engine enabled
starts both indices at 0, unless it still holds a descriptor (the model's choice, log entry 30); one disabled with no descriptor
in hand only loses ENABLE; writing HALTED resumes it (R457, R465, R466). A descriptor is read from the ring; one read well is
taken, and one that is malformed, errored or poisoned ends at once with code 1, 2 or 3 and halts the engine; a transfer whose bytes
have all moved ends with code 0, or 5 where data carried EP, and does not halt it (R456, R458 to R465). -/
def Obligations.DmaControlAndDescriptors : Prop :=
  (∀ (s : State) (e pi ctrl : Nat), e < 8 → decodes s 0 = true → s.hif.held = [] →
     (idxSub pi (dmaCi s e) ≤ dmaRing s e → exec (.dmaDoorbell e pi) s = .next (s.set (R.DMA_PROD_PI.at [e]) pi)) ∧
     (dmaRing s e < idxSub pi (dmaCi s e) → exec (.dmaDoorbell e pi) s = .next (s.bump (R.DMA_STATUS_DB_REFUSED.at [e]))) ∧
     (exec (.dmaResume e) s = .next (s.set (R.DMA_STATUS_HALTED.at [e]) 0)) ∧
     ((s.dma e).desc = none → ∃ t, exec (.dmaEnable e ctrl) s = .next t ∧
       t.get (R.DMA_CTRL_ENABLE.at [e]) = 1 ∧ t.get (R.DMA_PROD_PI.at [e]) = 0 ∧ t.get (R.DMA_CONS_CI.at [e]) = 0 ∧
       onlyRegs s t) ∧
     ((s.dma e).desc.isSome = true → exec (.dmaEnable e ctrl) s =
       .next (writeRest 0 (R.DMA_CTRL_ENABLE.at [e]).addr ctrl s)) ∧
     ((s.dma e).desc = none → exec (.dmaDisable e ctrl) s =
       .next ((writeRest 0 (R.DMA_CTRL_ENABLE.at [e]).addr ctrl s).set (R.DMA_CTRL_ENABLE.at [e]) 0))) ∧
  (∀ (s : State) (e : Nat) (raw : List Nat), e < 8 →
     (s.flag (R.DMA_CTRL_ENABLE.at [e]) = true → s.flag (R.DMA_STATUS_HALTED.at [e]) = false → (s.dma e).desc = none →
       dmaPi s e ≠ dmaCi s e → hostLinkReady s = true →
       (∀ d, dmaDescOf raw = some d → exec (.dmaDescriptorStart e raw 0) s =
         .next (((s.set (R.DMA_STATUS_BUSY.at [e]) 1).emit (.hostRead 0 (dmaDescAddr s e) 32)).setDma e { desc := some d })) ∧
       (∀ status code, (status = 0 ∧ dmaDescOf raw = none ∧ code = 1) ∨ (status = 1 ∧ code = 2) ∨ (status = 2 ∧ code = 3) → ∃ t,
         exec (.dmaDescriptorStart e raw status) s = .next t ∧ t.get (R.DMA_STATUS_LAST_CODE.at [e]) = code ∧
         t.get (R.DMA_STATUS_HALTED.at [e]) = 1 ∧ t.get (R.DMA_STATUS_BUSY.at [e]) = 0 ∧
         t.get (R.DMA_CONS_CI.at [e]) = (s.get (R.DMA_CONS_CI.at [e]) + 1) % 2 ^ 32 ∧ sameBytes s t)) ∧
     (∀ d, (s.dma e).desc = some d → d.len ≤ (s.dma e).moved → (s.dma e).moved = (s.dma e).asked → (s.dma e).burst = 0 →
       d.notify = false → ∀ code, code = (if (s.dma e).poisoned then 5 else 0) → ∃ t,
       exec (.dmaTransferComplete e) s = .next t ∧
       t.get (R.DMA_STATUS_LAST_CODE.at [e]) = code ∧ t.get (R.DMA_STATUS_BUSY.at [e]) = 0 ∧
       t.get (R.DMA_STATUS_HALTED.at [e]) = s.get (R.DMA_STATUS_HALTED.at [e]) ∧ (t.dma e).desc = none ∧
       t.get (R.DMA_CONS_CI.at [e]) = (s.get (R.DMA_CONS_CI.at [e]) + 1) % 2 ^ 32 ∧
       t.out = s.out ++ [.hostWrite 0 (dmaDescAddr s e + 24) [code, 0, 0, 0, 0, 0, 0, 128] false] ∧ sameBytes s t))

/-- A round of the arbiter of data for the device grants the engine that wins, issues its read of host memory and holds the room
for what comes back; a round of the arbiter of data for the host grants the engine that wins a read of its slice (R449, R459,
R460, R469). A completion that nothing asked for is reported; one that was asked for is staged at the slice and ends the burst,
and one that never comes ends the engine with code 2 (R448, R463, R477). -/
def Obligations.DmaRoundsAndCompletions : Prop :=
  ∀ (s : State) (r status : Nat) (data hdr : List Nat),
    (hostLinkReady s = true → ∀ toHost arb w d, arb = (if toHost then s.hif.toHost else s.hif.toDevice) → arb.busy = none →
      arbitrate ((List.range 72).map (waitsFor s toHost)) (fun r => effPriority (requesterPrio s r)
        (s.get R.GLB_DMA_ARB_AGE_ROUNDS) (KMap.get 0 arb.lost r)) arb.last = some w → w < 8 → (s.dma w).desc = some d →
      d.toHost = toHost → ∃ t, exec (.dmaArbitrationRound toHost) s = .next t ∧
      (if toHost then t.hif.toHost else t.hif.toDevice).busy = some w ∧
      (if toHost then t.hif.toHost else t.hif.toDevice).last = w ∧ (t.dma w).burst = dmaNext d (s.dma w).asked ∧
      (t.dma w).asked = (s.dma w).asked + dmaNext d (s.dma w).asked ∧
      (toHost = false → t.out = s.out ++ [.hostRead 0 (d.host + (s.dma w).asked) (dmaNext d (s.dma w).asked)] ∧
        KMap.get 0 t.hif.reads w = dmaNext d (s.dma w).asked) ∧
      (toHost = true → t.out = s.out ∧ ∀ dpa, dpa = viewDpa d.direct (d.dev + (s.dma w).asked) →
        (t.slice (dpaIsle dpa)).hostq = (s.slice (dpaIsle dpa)).hostq ++
          [⟨.dma w, dpaOffset dpa, dmaNext d (s.dma w).asked, false, [], 0, []⟩]) ∧ sameBytes s t) ∧
    (KMap.get 0 s.hif.reads r = 0 →
      (status ≠ 1 → exec (.hostReadCompletion ⟨r, hdr⟩ status data) s = .next (aerReport 0 "Unexpected Completion" hdr s)) ∧
      exec (.completionTimeout r) s = .next s) ∧
    (KMap.get 0 s.hif.reads r ≠ 0 → r < 8 →
      (∀ d dpa, (s.dma r).desc = some d → dpa = viewDpa d.direct (d.dev + ((s.dma r).asked - (s.dma r).burst)) → ∃ t,
        exec (.hostReadCompletion ⟨r, hdr⟩ 0 data) s = .next t ∧ KMap.get 0 t.hif.reads r = 0 ∧ (t.dma r).burst = 0 ∧
        (t.slice (dpaIsle dpa)).hostq = (s.slice (dpaIsle dpa)).hostq ++ [⟨.dma r, dpaOffset dpa,
          (data.take (KMap.get 0 s.hif.reads r)).length, true, data.take (KMap.get 0 s.hif.reads r), 0, []⟩]) ∧
      ∃ t, exec (.completionTimeout r) s = .next t ∧ t.get (R.DMA_STATUS_LAST_CODE.at [r]) = 2 ∧
        t.get (R.DMA_STATUS_HALTED.at [r]) = 1)

/-- At a cycle that R91 allows, on a free slice port, the access whose turn it is is served, here one of BAR2 of one code word in
the time that is left: a write is stored through its region, a read is answered with the word's data, and a read that R452
refuses is completed with an abort; where none may start or none waits, nothing happens (R91, R94, R287, R454). -/
def Obligations.HostSliceService : Prop :=
  ∀ (s : State) (i cycle tag : Nat) (hdr : List Nat) (a : HostAcc) (rest : List HostAcc), (s.slice i).hostq = a :: rest →
    (s.slice i).filling = false → s.boot.creset = .none_ → (s.slice i).nbu.any (fun r => r.cmd.host) = false →
    (s.slice i).portFree ≤ cycle → (s.isle i).flight = [] → a.src = .bar2 tag hdr → a.pos = 0 → a.off % 32 = 0 →
    a.off < 2 ^ 29 → a.len = 32 → nextAccess s i cycle = some 0 → (∀ limit, serviceLimit s i cycle = some limit →
      (∀ e, limit = some e → cycle + 18 ≤ e) →
      (hostRefused s i a.off a.len a.write = false → a.write = true → a.data.length = 32 → s.hif.held = [] → ∃ t,
        exec (.hostSliceAccess i cycle) s = .next t ∧ t.stored = (writeWord .host i a.off a.data false
          (noteService i cycle true [(a.off, 32)] s)).stored ∧ t.lagoon = s.lagoon ∧ (t.slice i).hostq = rest) ∧
      (hostRefused s i a.off a.len a.write = false → a.write = false → (regionOf s i a.off).enc = false →
        a.data = [] → a.bad = [] → ∃ t x, exec (.hostSliceAccess i cycle) s = .next t ∧
        t.out = s.out ++ [.completion tag 0 ((decodeWord (storedWord s i a.off) a.off).2.take 32) x] ∧
        (t.slice i).hostq = rest ∧ sameBytes s t) ∧
      (hostRefused s i a.off a.len a.write = true → a.write = false → ∃ t, exec (.hostSliceAccess i cycle) s = .next t ∧
        t.out = s.out ++ [.completion tag 4 [] false] ∧ (t.slice i).hostq = rest ∧ sameBytes s t)) ∧
    (serviceLimit s i cycle = none → exec (.hostSliceAccess i cycle) s = .next s)

/-- Function resets and power states: an FLR of a virtual function disarms its waiter slots and clears its MSI-X table; VF Enable
cleared takes every virtual function away with the same effects, and set makes them present; one of the physical function also
returns the BAR2 window to 0, stops every DMA engine and takes the virtual functions away; D3hot is entered and left; a link loss
stops the engines, discards the requests that wait and changes no bollard; none of them changes a byte of device memory (R433,
R435, R472 to R476). -/
def Obligations.FunctionResetsAndLinkLoss : Prop :=
  ∀ (s : State) (f w n : Nat), w < 256 →
    (slotOwner w = f → ∃ t, exec (.vfFlr f) s = .next t ∧ t.get (R.BOL_WAIT_CTRL_ARM.at [w]) = 0 ∧
      (∀ v k, v < 1024 → k < 4 → msixWord t f v k = if k = 3 then 1 else 0) ∧ sameBytes s t) ∧
    (1 ≤ slotOwner w → slotOwner w ≤ 16 → ∃ t, exec .vfDisable s = .next t ∧ t.get (R.BOL_WAIT_CTRL_ARM.at [w]) = 0 ∧
      t.hif.vfs = 0 ∧ sameBytes s t) ∧
    (n ≤ 16 → s.hif.vfs = 0 → domainOn s 1 = true → ∀ width,
      exec (.registerWrite 0 vfControl width n) s = .next { s with hif := { s.hif with vfs := n } }) ∧
    (∃ t, exec .pfFlr s = .next t ∧ t.get R.GLB_BAR2_WINDOW_OFFSET_GIB = 0 ∧ t.get R.GLB_HOSTVIEW_VIEW = 0 ∧ t.hif.vfs = 0 ∧
      (∀ e, e < 8 → t.get (R.DMA_CTRL_ENABLE.at [e]) = 0) ∧ sameBytes s t) ∧
    (s.hif.d3hot.contains f = false → exec (.d3hotEntry f) s = .next { s with hif := { s.hif with d3hot := f :: s.hif.d3hot } }) ∧
    (exec (.d3hotExit f) s = .next { s with hif := { s.hif with d3hot := s.hif.d3hot.filter (fun g => g != f) } }) ∧
    (∃ t, exec .dataLinkDown s = .next t ∧ (∀ e, e < 8 → t.get (R.DMA_CTRL_ENABLE.at [e]) = 0) ∧ t.hif.held = [] ∧
      (∀ i, ∀ b ∈ (t.slice i).hostq, isBar2 b = false) ∧ (∀ b, b < 4096 → bollard t b = bollard s b) ∧ sameBytes s t)

/-! Schedule instructions. Each statement speaks of an isle whose sequencer is at a word of the opcode, in a live frame in which the word runs. -/

/-- NOP launches nothing and LOOP opens a loop around the BODY words that follow: only the sequencer's place changes (R208,
R209). A pass of MAC, L1, L2SQ, MAX or MIN counts as it launches and changes no byte then; where nothing else is in progress and no
lagoon word is in error, by t0 + 48 + c its accumulators stand in the output buffer over those there before, and with COMMIT = 1 its
output lies from the base of C on and no other byte has changed, with COMMIT = 0 no byte of memory (R152, R164, R168, R169, R172).
A pass that reads an uncorrectable line by either operand changes no byte to its end, and its first such read is detected in the
cycle that touches the line (R120, R175, R227). -/
def Obligations.ArrayPasses : Prop :=
  (∀ (s : State) (i : Nat) (l : Launch),
     (nextLaunch s i 0x00 = some l → ∃ t, exec (.nop i) s = .next t ∧ movesOn i s t ∧ t.regs = s.regs ∧ sameBytes s t) ∧
     (nextLaunch s i 0x01 = some l → ∃ t, exec (.loop i) s = .next t ∧ (t.isle i).pc = (s.isle i).pc + 1 ∧
       (t.isle i).loops = ⟨(s.isle i).pc + 1, (s.isle i).pc + 1 + bits l.word 0 12, bits l.word 56 28, bits l.word 40 16 + 1, 0⟩ ::
         (s.isle i).loops ∧ t.regs = s.regs ∧ sameBytes s t)) ∧
  (∀ (s u : State) (i op : Nat) (c : Instr) (l : Launch) (d : PassShape) (stat strm : Nat × Nat) (accs : List Nat) (first : Option Nat),
     (c, op) ∈ [(Instr.mac i, 0x10), (.l1 i, 0x11), (.l2sq i, 0x12), (.max i, 0x13), (.min i, 0x14)] → launches i op s u l →
     d = l.shape u → stat = passOperand l.pass d true → strm = passOperand l.pass d false →
     accs = (l.cells u (lagoonRead u i stat.1 stat.2) (lagoonRead u i strm.1 strm.2)).map (fun x => x.1) →
     first = earlier (firstBad (readMarks u i (touched l.offset 16 (linesOf stat.1 stat.2))))
       (firstBad (readMarks u i (touched (l.offset + 16) d.cycles (linesOf strm.1 strm.2)))) →
     ∃ t e, exec c s = .next t ∧ movesOn i u t ∧ sameBytes u t ∧ t.regs = u.regs ∧
       (t.isle i).counts.passes = (u.isle i).counts.passes + 1 ∧ e = land i (l.offset + 48 + d.cycles) t ∧
       (quiet i u →
         (e.isle i).outBuf.accs = accs ++ (u.isle i).outBuf.accs.drop accs.length ∧ e.regs = u.regs ∧ slicesKept i [] u e ∧
         (l.pass.commit = false → sameBytes u e) ∧
         (l.pass.commit = true → lagoonKept i [((l.tensor u 2).base, (passBytes l.pass accs).length)] u e ∧
           ∀ k, k < (passBytes l.pass accs).length → (passBytes l.pass accs).length ≤ 2 ^ 20 →
             lagoonGet e i ((l.tensor u 2).base + k) = BitVec.ofNat 8 (nth (passBytes l.pass accs) k 0))) ∧
       (∀ x, first = some x → (u.isle i).flight = [] → sameBytes u e ∧
         ((u.arch l.arch).voidDue = none → (e.arch l.arch).voidDue = some (x, i))))

/-- A block of an integer MAC whose sum stays in int32 adds the exact dot product of its operands, scaled by 2^ASH, and is not
clamped; one that leaves int32 stops at its limit and is (R152, R153). -/
def Obligations.IntegerMacIsExactOrClamped : Prop :=
  ∀ (p : PassWord) (acc : Int) (pairs : List (Nat × Nat)) (dot : Int), p.op = 0x10 → p.sub = false →
    dot = (pairs.map (fun q => intOf (fmtBits p.fmtA) p.sgnA q.1 * intOf (fmtBits p.fmtB) p.sgnB q.2)).sum →
    (-2147483648 ≤ acc + dot * 2 ^ p.ash → acc + dot * 2 ^ p.ash ≤ 2147483647 →
      intBlock p acc pairs = (acc + dot * 2 ^ p.ash, false)) ∧
    (2147483647 < acc + dot * 2 ^ p.ash → intBlock p acc pairs = (2147483647, true)) ∧
    (acc + dot * 2 ^ p.ash < -2147483648 → intBlock p acc pairs = (-2147483648, true))

/-- The vector and sieve instructions complete: each is counted as it launches and changes no register and no byte then; where nothing
else is in progress, what it does to the end changes only the rows of D (R231 to R241, R257 to R275). What VADD, VSUB, VMUL, VMAX,
VMIN, VCVT and VMOV write to a D of one element, readable at t0 + P + d: the clamped sum, difference or product, the larger or smaller
source, and the source itself, converted to the output format (R231, R233, R236, R238, R241). -/
def Obligations.VectorAndSieve : Prop :=
  (∀ (s u : State) (i op d n : Nat) (c : Instr) (l : Launch),
     (c, op, d) ∈ [(Instr.vadd i, 0x20, 0), (.vsub i, 0x21, 0), (.vmul i, 0x22, 0), (.vfma i, 0x23, 0), (.vmax i, 0x24, 0),
       (.vmin i, 0x25, 0), (.vcvt i, 0x26, 0), (.vfn i, 0x27, 0), (.vrsum i, 0x28, 0), (.vrmax i, 0x29, 0), (.vsel i, 0x2A, 0),
       (.vmov i, 0x2B, 0), (.sargmax i, 0x30, 2), (.sboxdec i, 0x31, 2), (.snms i, 0x32, 2)] →
     launches i op s u l →
     ∃ t, exec c s = .next t ∧ movesOn i u t ∧ sameBytes u t ∧ t.regs = u.regs ∧
       (t.isle i).counts.launched = (u.isle i).counts.launched + 1 ∧
       ((u.isle i).flight = [] → lagoonKept i (l.tensor u d).rowSpans u (land i n t) ∧ slicesKept i [] u (land i n t))) ∧
  (∀ (s u : State) (i op : Nat) (c : Instr) (l : Launch) (f : VVal → VVal → VVal),
     (c, op, f) ∈ [(Instr.vadd i, 0x20, fun a b => (vBin (· + ·) flAdd a b).1), (.vsub i, 0x21, fun a b => (vBin (· - ·) flSub a b).1),
       (.vmul i, 0x22, fun a b => (vBin (· * ·) flMul a b).1), (.vmax i, 0x24, fun a b => vPick true a b),
       (.vmin i, 0x25, fun a b => vPick false a b), (.vcvt i, 0x26, fun a _ => a), (.vmov i, 0x2B, fun a _ => a)] →
     launches i op s u l → quiet i u → (l.tensor u 0).desc.rows = 1 → (l.tensor u 0).desc.cols = 1 →
     fmtBits (vecWord l.word).fout = 8 → (l.tensor u 0).desc.esize = 1 →
     ∃ t, exec c s = .next t ∧ lagoonGet (land i (l.offset + vecDepth op (vecWord l.word).func 1 + 1) t) i (l.tensor u 0).base =
       BitVec.ofNat 8 (vOut (vecWord l.word).fout (vecWord l.word).shift
         (f (vIn (vecWord l.word) ((l.tensor u 1).elem u i 0 0)) (vIn (vecWord l.word) ((l.tensor u 2).elem u i 0 0)))).1)

/-- LIFT moves the rows of a slice tensor to the rows of a lagoon tensor, readable at its ready cycle, and changes no other lagoon byte
and no stored word; LOWER stores to the code words of its slice tensor and to no other, with MRG = 1 only to those it fills, and
changes no lagoon byte; neither changes a byte as it launches (R61, R70 to R72, R200, R244 to R246). The merge buffer: an entry
whose first write is 256 cycles past triggers at that cycle unless it has triggered; the triggered entry whose turn it is leaves the
buffer as it commits, storing to its own code word alone; where none is due, or the port or a host interval stands in the way,
nothing changes (R74 to R76). -/
def Obligations.LiftLowerAndMerge : Prop :=
  (∀ (s u : State) (i n : Nat) (l : Launch),
     (launches i 0x40 s u l → ∃ t, exec (.lift i) s = .next t ∧ movesOn i u t ∧ sameBytes u t ∧
       ((u.isle i).flight = [] →
         lagoonKept i (l.tensor u 1).rowSpans u (land i n t) ∧ slicesKept i [] u (land i n t)) ∧
       (quiet i u → (l.tensor u 0).desc.rows = 1 → (l.tensor u 1).desc.rows = 1 →
         (l.tensor u 1).desc.rowLen = (l.tensor u 0).desc.rowLen → (l.tensor u 0).desc.rowLen ≤ 2 ^ 20 →
         (if (l.tensor u 0).words.any (fun o => (regionOf u i o).enc) then l.offset + 24 else l.offset) +
           portCycles (l.tensor u 0).words ≤ n →
         ∀ k, k < (l.tensor u 0).desc.rowLen → lagoonGet (land i n t) i ((l.tensor u 1).base + k) = BitVec.ofNat 8
           (nth (lookWord u i (wordBase ((l.tensor u 0).base + k))).2.data (((l.tensor u 0).base + k) % 32) 0))) ∧
     (launches i 0x41 s u l → ∃ t, exec (.lower i) s = .next t ∧ movesOn i u t ∧ sameBytes u t ∧
       ((u.isle i).flight = [] →
         lagoonKept i [] u (land i n t) ∧ slicesKept i (l.tensor u 1).words u (land i n t) ∧
         (bit l.word 16 = true → (l.tensor u 1).words.all (fun o => (lowerWord ((List.range (l.tensor u 0).desc.rows).map (fun r =>
           ((l.tensor u 1).row r, lagoonRead u i ((l.tensor u 0).row r) (l.tensor u 0).desc.rowLen))) o).1 != fullMask) = true →
           slicesKept i [] u (land i n t))))) ∧
  (∀ (s : State) (i c : Nat),
     (mergeRuns s i = true → ∃ t, exec (.mergeEntryTimeout ⟨i, c⟩) s = .next t ∧ sameBytes s t ∧
       (t.slice i).merge = (s.slice i).merge.map (fun e =>
         if e.trig = none ∧ e.first + 256 ≤ c then { e with trig := some (e.first + 256) } else e)) ∧
     (∀ e, nextMerge i c s = some e → mergeRuns s i = true → commitFits s i c e.len = true → ∃ t,
       exec (.mergeCommit ⟨i, c⟩) s = .next t ∧ (t.slice i).merge = (s.slice i).merge.erase e ∧
       slicesKept i [wordBase e.word] (land i c s) t ∧ lagoonKept i [] (land i c s) t) ∧
     ((∀ e, nextMerge i c s = some e → mergeRuns s i = false ∨ commitFits s i c e.len = false) →
       exec (.mergeCommit ⟨i, c⟩) s = .next s))

/-- The link unit: CSEND sends its source's bytes along its route, CRECV takes the transfer that came along its route and writes it to
its rows, HSEND puts its bytes in the slot of a port that is UP, HRECV writes the slot's payload to its rows and releases the slot as
it ends, and BEND adds to the additions due at cycle F; no other lagoon byte and no stored word changes, and none at the launch
itself (R201 to R207, R247 to R252). -/
def Obligations.LinkInstructionsComplete : Prop :=
  ∀ (s u : State) (i n : Nat) (l : Launch),
    (launches i 0x50 s u l → ∃ t, exec (.csend i) s = .next t ∧ movesOn i u t ∧ sameBytes u t ∧
      (t.arch l.arch).transfers = (u.arch l.arch).transfers ++ [(wRoute l.word, (l.tensor u 0).lagoonBytes u i)]) ∧
    (launches i 0x60 s u l → ∀ x, (u.arch l.arch).transfers.find? (fun t => t.1 == wRoute l.word) = some x → ∃ t,
      exec (.crecv i) s = .next t ∧ movesOn i u t ∧ sameBytes u t ∧ (t.arch l.arch).transfers = (u.arch l.arch).transfers.erase x ∧
      ((u.isle i).flight = [] → lagoonKept i (l.tensor u 0).rowSpans u (land i n t) ∧ slicesKept i [] u (land i n t)) ∧
      (quiet i u → (l.tensor u 0).desc.rows = 1 → x.2.length = (l.tensor u 0).desc.rowLen → x.2.length ≤ 2 ^ 20 →
        l.offset + (l.tensor u 0).transfer ≤ n → ∀ k, k < x.2.length →
        lagoonGet (land i n t) i ((l.tensor u 0).base + k) = BitVec.ofNat 8 (nth x.2 k 0))) ∧
    (launches i 0x51 s u l → portState u (wPort l.word) = 3 → ∃ t, exec (.hsend i) s = .next t ∧ movesOn i u t ∧ sameBytes u t ∧
      KMap.get [] (t.port (wPort l.word)).tx (wSlot l.word) = (l.tensor u 0).lagoonBytes u i) ∧
    (launches i 0x51 s u l → portState u (wPort l.word) ≠ 3 → ∃ t, exec (.hsend i) s = .next t ∧ movesOn i u t ∧ sameBytes u t ∧
      t.ports = u.ports) ∧
    (launches i 0x61 s u l → ∀ e, slotOf u (wPort l.word) (wSlot l.word) = some e → ∃ t, exec (.hrecv i) s = .next t ∧
      movesOn i u t ∧ sameBytes u t ∧
      ((u.isle i).flight = [] → lagoonKept i (l.tensor u 0).rowSpans u (land i n t) ∧ slicesKept i [] u (land i n t) ∧
        (l.offset + 96 + (l.tensor u 0).transfer ≤ n → rxOf (land i n t) (wPort l.word) (wSlot l.word) = [])) ∧
      (quiet i u → (l.tensor u 0).desc.rows = 1 → (l.tensor u 0).desc.rowLen ≤ 2 ^ 20 →
        (slotPayload u (wPort l.word) (wSlot l.word) e).length = (l.tensor u 0).desc.rowLen →
        l.offset + 96 + (l.tensor u 0).transfer ≤ n → ∀ k, k < (l.tensor u 0).desc.rowLen →
        lagoonGet (land i n t) i ((l.tensor u 0).base + k) =
          BitVec.ofNat 8 (nth (slotPayload u (wPort l.word) (wSlot l.word) e) k 0))) ∧
    (launches i 0x80 s u l → ∃ t, exec (.bend i) s = .next t ∧ movesOn i u t ∧ sameBytes u t ∧
      (t.arch l.arch).bends = (u.arch l.arch).bends ++ [(bits l.word 16 12, bits l.word 0 16)] ∧
      ∀ b, bollard t b = bollard u b)

/-! Near-bank units. -/

/-- An operation of the NBUs is worked once and its records are kept; it stores to the words of its write streams in the
addressed banks and to no other, and a command that arrived damaged or found no NBU powered stores nothing (R355, R372, R381).
A FERRY hands its command to the NBUs of its isle, damaged or not, unless a replay skips it, and stores nothing; a command that ends
gives its result rows to the lagoon at the end of its result beats and frees the NBUs; a host command ends with its result code in
NBU_HSTATUS (R89, R254, R362, R371, R378). A host NBU command is queued behind the accesses that wait, or sets OVERRUN while one is
in hand; one of a bad format is refused with result 2, one that reaches a sealed word with 3, one too long for F with 4; one granted
the bus whose time suffices starts; a bus round grants the host when it alone waits and its burst fits, and no one where none fits
(R357, R368, R373 to R375, R378, R379). -/
def Obligations.NbuOperations : Prop :=
  (∀ (s : State) (i n op : Nat) (c : Instr) (r : NbuRun),
     (c, op) ∈ [(Instr.nbuFill i n, 1), (.nbuCopy i n, 2), (.nbuAcc i n, 3), (.nbuAxpby i n, 4), (.nbuAdamw i n, 5),
       (.nbuSumsq i n, 6)] →
     (s.slice i).nbu.find? (fun x => x.cmd.op == op && !x.worked) = some r → nbuRuns s = true →
     ∃ t r', exec c s = .next t ∧
       (t.slice i).nbu = modFirst (fun x => x.cmd.op == op && !x.worked) (fun _ => r') (s.slice i).nbu ∧
       r'.worked = true ∧ r'.cmd = r.cmd ∧ lagoonKept i [] s t ∧
       slicesKept i ((r.cmd.bankList.map (fun b => (r.cmd.writes.map (fun k => (List.range r.cmd.words).map (fun j =>
         wordBase (bankOffset b (r.cmd.addr k j))))).flatten)).flatten) s t ∧
       (r.dropped = true ∨ r.absent = true → t.stored = s.stored) ∧
       (r.dropped = false → r.absent = false → r.stopped = false → domainOn s (10 + i / 64) = true → r'.done = none)) ∧
  (∀ (s u : State) (i damaged : Nat) (l : Launch), launches i 0x70 s u l →
     (bit l.word 81 = false ∨ (u.arch l.arch).skip.contains (l.isle, l.index, l.iters) = false → ∃ t x,
       exec (.ferry i damaged) s = .next t ∧ movesOn i u t ∧ (t.slice i).nbu = (u.slice i).nbu ++ [x] ∧
       x.cmd = .ofBeats (ferryCmd l u).beats ∧ x.dropped = (damaged != 0) ∧ x.absent = !domainOn u (10 + i / 64) ∧
       x.worked = false ∧ sameBytes u t) ∧
     (bit l.word 81 = true → (u.arch l.arch).skip.contains (l.isle, l.index, l.iters) = true → ∃ t,
       exec (.ferry i damaged) s = .next t ∧ movesOn i u t ∧ (t.slice i).nbu = (u.slice i).nbu ∧ sameBytes u t)) ∧
  (∀ (s : State) (i : Nat) (damaged : List (Nat × Nat)) (r : NbuRun),
     (s.slice i).nbu.find? (fun x => x.worked && (!x.cmd.host || decide (x.records.length ≤ x.sent))) = some r →
     (r.cmd.host = false → ∃ t, exec (.nbuOperationEnd i damaged) s = .next t ∧ (t.slice i).nbu = (s.slice i).nbu.erase r ∧
       sameBytes s t ∧
       (∀ a rows len, damaged = [] → archOf s i = some a → (s.arch a).voidAt = none → r.result = some (rows, len) →
         (t.isle i).flight = insertFlight { due := r.resultEnd, act := .rows (rowsAt len rows
           ((r.records.map (fun w => (leBytes 8 w).map (fun b => b.toNat))).flatten)) } (s.isle i).flight)) ∧
     (r.cmd.host = true → r.dropped = false → r.done = none → i < 256 → ∃ t,
       exec (.nbuOperationEnd i damaged) s = .next t ∧ (t.slice i).nbu = (s.slice i).nbu.erase r ∧
       t.get (R.NBU_HSTATUS_BUSY.at [i / 64, i % 64]) = 0 ∧ t.get (R.NBU_HSTATUS_RESULT.at [i / 64, i % 64]) = 1 ∧ sameBytes s t)) ∧
  (∀ (s : State) (i op layers banks imm c damaged : Nat), i < 256 →
     (decodes s 0 = true → domainOn s (6 + i / 64) = true →
       (s.flag (R.NBU_HSTATUS_BUSY.at [i / 64, i % 64]) = true → ∃ t, exec (.hostNbuCommand i op layers banks imm) s = .next t ∧
         t.get (R.NBU_HSTATUS_OVERRUN.at [i / 64, i % 64]) = 1 ∧ (t.slice i).hostCmd = (s.slice i).hostCmd) ∧
       (s.flag (R.NBU_HSTATUS_BUSY.at [i / 64, i % 64]) = false → ∃ t x, exec (.hostNbuCommand i op layers banks imm) s = .next t ∧
         (t.slice i).hostCmd = some x ∧ x.op = op % 256 ∧ x.host = true ∧ (t.slice i).cmdBehind = (s.slice i).hostq.length ∧
         t.get (R.NBU_HSTATUS_BUSY.at [i / 64, i % 64]) = 1)) ∧
     (∀ x code, (s.slice i).hostCmd = some x →
       (if nbuFormatOk x = false then code = 2 else if nbuAllOpen s i x = false then code = 3
         else code = 4 ∧ s.image.isSome = true ∧ frameCycles s < x.hostSpan) → ∃ t,
       exec (.hostNbuCommandStart i c damaged) s = .next t ∧ (t.slice i).hostCmd = none ∧
       t.get (R.NBU_HSTATUS_BUSY.at [i / 64, i % 64]) = 0 ∧ t.get (R.NBU_HSTATUS_RESULT.at [i / 64, i % 64]) = code ∧
       sameBytes s t) ∧
     (∀ x, (s.slice i).hostCmd = some x → nbuFormatOk x = true → nbuAllOpen s i x = true →
       (s.image = none ∨ x.hostSpan ≤ frameCycles s) → (s.slice i).hostGrant = some c → hostCmdFits s i c = true → ∃ t r,
       exec (.hostNbuCommandStart i c damaged) s = .next t ∧ (t.slice i).hostCmd = none ∧
       (t.slice i).nbu = (s.slice i).nbu ++ [r] ∧ r.cmd = .ofBeats x.beats ∧ r.dropped = (damaged != 0) ∧ r.worked = false ∧
       sameBytes s t) ∧
     (hostBeats s i c ≠ 0 → burstFits s i c (hostBeats s i c) = true → ∃ t, exec (.ferryArbitrationRound i c 0 0) s = .next t ∧
       (t.slice i).ferryLast = 0 ∧ (t.slice i).busFree = c + burstCycles (hostBeats s i c) ∧
       (hostCmdFits s i c = true → (t.slice i).hostGrant = some c) ∧ t.regs = s.regs) ∧
     (hostBeats s i c = 0 ∨ burstFits s i c (hostBeats s i c) = false →
       exec (.ferryArbitrationRound i c 0 0) s = .next s))

/-! Void frames and isle states. -/

/-- An uncorrectable read detected in cycle c of a live frame makes that the detection its void point follows, unless an earlier one, or
one of the same cycle in a lower isle, stands; a pass that made the read is poisoned from then on (R128, R175, R227). At the void
point, 24 cycles after the detection, the frame is void at that cycle, and its transfers and bollard additions are dropped; where the
frame is void or over, nothing happens (R84, R128). What the void point does in each isle: the merge buffer and the working area lose
their contents, a pass in progress is aborted in its phase and its columns ramp down from those switching, OUTCOME becomes 2, and the
voids count one more; stored words and resident bytes stay (R84 to R86, R169, R174, R177, R178). A ramp-down ends when its columns
are down (R177). -/
def Obligations.VoidFrames : Prop :=
  (∀ (s u : State) (i a c : Nat) (byPass : Bool), archOf s i = some a → inFrame s a = true → u = land i c s → ∃ t,
     exec (.uncorrectableReadDetect ⟨i, c, byPass⟩) s = .next t ∧ sameBytes u t ∧ t.regs = u.regs ∧
     (t.arch a).voidDue = some (match (u.arch a).voidDue with
       | some (d, j) => if c < d ∨ (c = d ∧ i < j) then (c, i) else (d, j)
       | none => (c, i)) ∧
     (t.isle i).pass = (if byPass then (u.isle i).pass.map (fun p => { p with poisonAt := earlier p.poisonAt (some c) })
       else (u.isle i).pass)) ∧
  (∀ (s u : State) (a v c source : Nat),
     (inFrame s a = true → u = (islesOf s a).foldl (fun t i => land i v t) s → (u.arch a).voidDue = some (c, source) → c + 24 = v →
       ∃ t, exec (.voidPoint a v) s = .next t ∧ (t.arch a).voidAt = some v ∧ (t.arch a).transfers = [] ∧ (t.arch a).bends = [] ∧
       (t.arch a).voidDue = none ∧ (∀ b, b < 4096 → bollard t b = bollard s b) ∧
       ((∀ i, (s.isle i).flight = []) → slicesKept 0 [] s t)) ∧
     (inFrame s a = false → exec (.voidPoint a v) s = .next s)) ∧
  (∀ (s : State) (i c : Nat) (r : Nat × Nat), (s.isle i).ramping = some r →
     (rampEnd r ≤ c → ∃ t, exec (.arrayRampDownEnd ⟨i, c⟩) s = .next t ∧ (t.isle i).ramping = none ∧ sameBytes s t ∧
       ((s.dom (2 + i / 64)).state ≠ .down → t.regs = s.regs)) ∧
     (c < rampEnd r → exec (.arrayRampDownEnd ⟨i, c⟩) s = .next s)) ∧
  (∀ (s t : State) (v cause source i : Nat), t = voidIsle v cause source i s →
     (t.slice i).merge = [] ∧ (t.isle i).outcome = 2 ∧ (t.isle i).pass = none ∧
     (t.isle i).voidCause = (if cause = 1 ∧ i ≠ source then 2 else cause) ∧
     (t.isle i).counts.voids = Nat.min ((s.isle i).counts.voids + 1) (2 ^ 32 - 1) ∧
     ((s.isle i).flight = [] → t.stored = s.stored ∧ t.regs = s.regs ∧
       (∀ a, a < 2 ^ 20 → a / 8 < (0x2000 + (s.isle i).residentBytes) / 8 → lagoonGet t i a = lagoonGet s i a) ∧
       (∀ p k, (s.isle i).pass = some p → passPhase p v = some k → (t.isle i).abortCycle = v ∧ (t.isle i).abortPhase = k ∧
         (t.isle i).ramping = some (v, passColumns p v))))

/-- State requests: while local frames run, QUIESCE, RESUME and ON wait for the next boundary; while none run they are applied
at once, RUN to QUIESCED, QUIESCED to RUN, with every isle of the archipelago, OFF to HELD with the lagoon to be filled; OFF is
applied at once; a request that its state does not allow counts a refusal (R132, R133, R135). When the lagoon fill of a HELD isle
ends, every byte of its lagoon reads 0, the isle is IDLE and its live epoch has moved (R132, R136, R333). A full read of ISL_STATE
returns the copied state with its STALE bit, and raises 0x0D03 once per local frame when it is stale; one of a byte has no side
effect; and while earlier requests of the function wait, the read waits behind them (R12, R137, R138, R444). -/
def Obligations.IsleStates : Prop :=
  (∀ (s : State) (i v : Nat), i < 256 → decodes s 0 = true → domainOn s 0 = true →
     (s.frame.running = true → ∀ c r, (c, r) ∈ [(Instr.quiesce i, 1), (.resume i, 2), (.on i, 4)] → ∃ t, exec c s = .next t ∧
       t.get (R.ISL_STATE_REQ_REQ.at [i]) = r ∧ t.requests = s.requests.filter (fun j => j != i) ++ [i] ∧
       isleState t i = isleState s i) ∧
     (s.frame.running = false → archOf s i = none →
       ((s.isle i).state = .run → ∃ t, exec (.quiesce i) s = .next t ∧ isleState t i = .quiesced) ∧
       ((s.isle i).state = .quiesced → ∃ t, exec (.resume i) s = .next t ∧ isleState t i = .run)) ∧
     (s.frame.running = false → ∀ a, a < 32 → archOf s i = some a → i ∈ islesOf s a →
       ((∀ j ∈ islesOf s a, isleState s j = .run) → ∃ t, exec (.quiesce i) s = .next t ∧
         ∀ j ∈ islesOf s a, isleState t j = .quiesced) ∧
       ((∀ j ∈ islesOf s a, isleState s j = .quiesced) → s.ckp.holds.contains a = false → ∃ t, exec (.resume i) s = .next t ∧
         ∀ j ∈ islesOf s a, isleState t j = .run)) ∧
     (s.frame.running = false → (s.isle i).state = .off → domainOn s (2 + i / 64) = true → domainOn s (6 + i / 64) = true → ∃ t,
       exec (.on i) s = .next t ∧ isleState t i = .held ∧ (t.isle i).filling = true) ∧
     ((s.isle i).state ≠ .off → ∃ t, exec (.off i v) s = .next t ∧ isleState t i = .off ∧ (archOf s i = none → sameBytes s t)) ∧
     ((s.isle i).state = .off → ∃ t, exec (.off i v) s = .next t ∧
       t.get (R.ISL_STATE_REQ_REQ_REFUSED.at [i]) = Nat.min (s.get (R.ISL_STATE_REQ_REQ_REFUSED.at [i]) + 1)
         (2 ^ R.ISL_STATE_REQ_REQ_REFUSED.width - 1))) ∧
  (∀ (s : State) (i : Nat), i < 256 → (s.isle i).filling = true → (s.isle i).state = .held →
     ∃ t, exec (.lagoonFillEnd i) s = .next t ∧ isleState t i = .idle ∧ (t.isle i).filling = false ∧
       (∀ a, lagoonGet t i a = 0#8) ∧ (∀ j a, j ≠ i → a < 2 ^ 20 → lagoonGet t j a = lagoonGet s j a) ∧
       t.get (R.ISL_EPOCH_LIVE_EPOCH.at [i]) = (s.get (R.ISL_EPOCH_LIVE_EPOCH.at [i]) + 1) % 2 ^ R.ISL_EPOCH_LIVE_EPOCH.width) ∧
  (∀ (s : State) (i off width : Nat), i < 256 → decodes s 0 = true → domainOn s 0 = true → domainOn s 1 = true →
     (s.hif.held = [] →
       (bit (isleStateWord s i) 3 = true → exec (.islStateRead (8 * i) 4) s =
         .next ((raiseOnce 0x0D03 i 0 s).emit (.value (isleStateWord s i)))) ∧
       (bit (isleStateWord s i) 3 = false → exec (.islStateRead (8 * i) 4) s = .next (s.emit (.value (isleStateWord s i)))) ∧
       (off < 4 → exec (.islStateRead (8 * i + off) 1) s = .next (s.emit (.value (bits (isleStateWord s i) (8 * off) 8))))) ∧
     (s.hif.held ≠ [] → exec (.islStateRead (8 * i + off) width) s =
       .next { s with hif := { s.hif with held := s.hif.held ++ [⟨.islStateRead (8 * i + off) width, []⟩] } }))

/-! Background work in the slices. -/

/-- A refresh slot at its place in the open service window, and one of a self-timed slice, advances the slice's pointer modulo 16,384
and its count, and no other slice; at any other cycle, and when the frame has had its S slots, none runs (R289, R293, R295). A scrub
step walks one row of the half of the banks that refresh leaves it and advances that half's pointer alone, and starts nowhere else in
a window than where refresh and the step before leave room (R336 to R339). A lagoon scrub rewrites and counts a word with one bit in
error, leaves and counts one with two, and finds nothing in a lagoon free of error (R308 to R310). A stack's fill leaves its filling
slices zero with their pointers at 0; and a rate window ends, once its frames have passed, at 0 and sets CROSSED when its threshold,
if any, is reached (R335, R350, R519). -/
def Obligations.RefreshAndScrub : Prop :=
  (∀ (s : State) (i c : Nat), dramOn s i = true →
     (windowOpen s = true → selfTimed s (stackOf i) = false →
       (∀ high, slotAt s i (s.slice i).slotsFrame = some (c, high) → ∃ t, exec (.refreshSlot ⟨i, c⟩) s = .next t ∧
         (t.slice i).refreshPtr = ((s.slice i).refreshPtr + 1) % 16384 ∧ (t.slice i).slots = ((s.slice i).slots + 1) % 2 ^ 64 ∧
         (∀ j, j ≠ i → t.slice j = s.slice j) ∧ t.regs = s.regs ∧ sameBytes s t) ∧
       ((∀ high, slotAt s i (s.slice i).slotsFrame ≠ some (c, high)) → exec (.refreshSlot ⟨i, c⟩) s = .next s)) ∧
     (slotsFor s (stackOf i) s.frame.lengthNs ≤ (s.slice i).slotsFrame → exec (.refreshSlot ⟨i, c⟩) s = .next s) ∧
     (selfTimed s (stackOf i) = true → ∃ t, exec (.selfTimedRefreshSlot i) s = .next t ∧
       (t.slice i).refreshPtr = ((s.slice i).refreshPtr + 1) % 16384 ∧ (t.slice i).slots = ((s.slice i).slots + 1) % 2 ^ 64 ∧
       (∀ j, j ≠ i → t.slice j = s.slice j) ∧ sameBytes s t)) ∧
  (∀ (s : State) (i c : Nat) (high : Bool) (ptr other : Field), i < 256 → dramOn s i = true → (s.slice i).filling = false →
     high = (if selfTimed s (stackOf i) then (s.slice i).scrubHigh else scrubHalf s i c) →
     (ptr, other) = (if high then (R.SLC_SCRUB_PTR_H.at [i], R.SLC_SCRUB_PTR_L.at [i])
       else (R.SLC_SCRUB_PTR_L.at [i], R.SLC_SCRUB_PTR_H.at [i])) →
     (selfTimed s (stackOf i) = true ∨ scrubFits s i c = true → ∃ t, exec (.scrubStep i c) s = .next t ∧
       t.get ptr = (s.get ptr + 1) % 2 ^ 19 ∧ t.get other = s.get other ∧ (t.slice i).scrubHigh = !high ∧ lagoonKept i [] s t ∧
       slicesKept i ((List.range 16).map (fun n => scrubRow (s.get ptr) high + 32 * n)) s t) ∧
     (selfTimed s (stackOf i) = false → scrubFits s i c = false → exec (.scrubStep i c) s = .next s)) ∧
  (∀ (s : State) (i w j k : Nat), windowOpen s = true → (s.isle i).state ≠ .off → (s.isle i).filling = false → s.lagoonErr = [] →
     w < 2 ^ 17 → 8 * w < 0x2000 + (s.isle i).residentBytes → j < k → k < 72 →
     exec (.lagoonScrub i []) s = .next s ∧
     (∃ t, exec (.lagoonScrub i [(w, 2 ^ k)]) s = .next t ∧ t.lagoonErr = [] ∧
       (t.isle i).counts.lagCe = Nat.min ((s.isle i).counts.lagCe + 1) 65535 ∧ sameBytes s t) ∧
     (∃ t, exec (.lagoonScrub i [(w, 2 ^ j + 2 ^ k)]) s = .next t ∧ t.lagoonErr = [(i * 2 ^ 17 + w, 2 ^ j + 2 ^ k)] ∧
       (t.isle i).counts.lagUe = Nat.min ((s.isle i).counts.lagUe + 1) 65535 ∧ lagoonKept i [(8 * w, 8)] s t ∧
       slicesKept i [] s t)) ∧
  (∀ (s : State) (i k now : Nat), i < 256 →
     (k < 4 → domainOn s (6 + k) = true → released s = true → ∃ t, exec (.stackFillEnd k) s = .next t ∧
       ∀ j, j < 64 → (s.slice (64 * k + j)).filling = true → (t.slice (64 * k + j)).filling = false ∧
         t.get (R.SLC_SCRUB_PTR_L.at [64 * k + j]) = 0 ∧
         ∀ o, (storedWord t (64 * k + j) o).take 32 = List.replicate 32 0) ∧
     ((s.slice i).winFrames < 2 ^ s.get (R.SLC_CE_RATE_RATE_WIN_LOG2.at [i]) → exec (.ceWindowEnd i now) s = .next s) ∧
     (2 ^ s.get (R.SLC_CE_RATE_RATE_WIN_LOG2.at [i]) ≤ (s.slice i).winFrames →
       (s.get (R.SLC_CE_RATE_CE_THRESH.at [i]) = 0 ∨ (s.slice i).winCount < s.get (R.SLC_CE_RATE_CE_THRESH.at [i]) →
         exec (.ceWindowEnd i now) s = .next (s.modSlice i (fun v => { v with winCount := 0, winFrames := 0 }))) ∧
       ((∀ p ∈ s.parts, ∀ j ∈ p.isles, j < 256) → s.get (R.SLC_CE_RATE_CE_THRESH.at [i]) ≠ 0 →
         s.get (R.SLC_CE_RATE_CE_THRESH.at [i]) ≤ (s.slice i).winCount → ∃ t, exec (.ceWindowEnd i now) s = .next t ∧
         t.get (R.SLC_CE_RATE_CROSSED.at [i]) = 1 ∧ (t.slice i).winCount = 0 ∧ sameBytes s t)) ∧
     (i < 8 → (s.port i).fecFrames < 2 ^ s.get (R.HAR_FEC_RATE_WIN_LOG2.at [i]) → exec (.fecWindowEnd i now) s = .next s) ∧
     (i < 8 → 2 ^ s.get (R.HAR_FEC_RATE_WIN_LOG2.at [i]) ≤ (s.port i).fecFrames →
       s.get (R.HAR_FEC_RATE_FEC_THRESH.at [i]) ≠ 0 → s.get (R.HAR_FEC_RATE_FEC_THRESH.at [i]) ≤ (s.port i).fecWindow → ∃ t,
       exec (.fecWindowEnd i now) s = .next t ∧ t.get (R.HAR_FEC_RATE_CROSSED.at [i]) = 1 ∧ (t.port i).fecWindow = 0 ∧
       sameBytes s t))

/-- Key commands wait for the boundary while the isle runs local frames; applied, LOAD fills an EMPTY slot with the 64 bytes of
SLC_KEY_DATA and clears them, or is refused when the slot is loaded or the halves are equal; ZEROIZE empties a slot; FLIP_ARM
arms the mask; no stored byte changes (R325 to R329, R344). -/
def Obligations.KeysAndFlip : Prop :=
  ∀ (s : State) (i w : Nat), i < 256 → decodes s 0 = true → dramOn s i = true →
    (runsFrames s i = true → ∀ c op, (c, op) ∈ [(Instr.keyLoad i w, 1), (.keyZeroize i w, 2)] → ∃ t, exec c s = .next t ∧
      t.get (R.SLC_KEY_CMD_PENDING.at [i]) = 1 ∧ (t.slice i).keyCmd = some (op, bits w 0 6) ∧
      (∀ k, keyOf t i k = keyOf s i k) ∧ sameBytes s t) ∧
    (runsFrames s i = false → keyOf s i (bits w 0 6) = none → (keyData s i).take 32 ≠ (keyData s i).drop 32 → ∃ t,
      exec (.keyLoad i w) s = .next t ∧ keyOf t i (bits w 0 6) = some (keyData s i) ∧ keyData t i = List.replicate 64 0 ∧
      bit (t.get (R.SLC_KEY_STATE_LOADED.at [i])) (bits w 0 6) = true ∧ t.get (R.SLC_KEY_CMD_PENDING.at [i]) = 0 ∧
      sameBytes s t) ∧
    (runsFrames s i = false → (keyOf s i (bits w 0 6)).isSome = true ∨ (keyData s i).take 32 = (keyData s i).drop 32 → ∃ t,
      exec (.keyLoad i w) s = .next t ∧ t.get (R.SLC_KEY_CMD_REFUSED.at [i]) = 1 ∧ (∀ k, keyOf t i k = keyOf s i k) ∧
      sameBytes s t) ∧
    (runsFrames s i = false → ∃ t, exec (.keyZeroize i w) s = .next t ∧ keyOf t i (bits w 0 6) = none ∧
      (∀ k, k ≠ bits w 0 6 → keyOf t i k = keyOf s i k) ∧ sameBytes s t) ∧
    (∃ t, exec (.flipArm i w) s = .next t ∧ t.get (R.SLC_FLIP_CTRL_ARM.at [i]) = 1 ∧ onlyRegs s t)

/-! Images and schedules. FRV_IMG_STATUS holds 0 IDLE, 1 CHECKING, 2 STAGED. -/

/-- START of an idle loader begins the fetch, and otherwise sets OVERRUN; CANCEL drops a staged image; the checks end with the
first breach reported and nothing loaded, or with the image staged, which takes effect at once where neither frames nor
rendezvous ask it to wait; KEY_REVOKE revokes a slot that is neither the signer's nor the last (R552, R569 to R577). -/
def Obligations.ImageLoading : Prop :=
  ∀ (s : State) (w : Nat) (fetched : Option (List Nat)), decodes s 0 = true → domainOn s 0 = true →
    (bit w 1 = false → s.get R.FRV_IMG_STATUS_STATE = 0 → ∃ t, exec (.imageLoadStart w) s = .next t ∧
      t.get R.FRV_IMG_STATUS_STATE = 1 ∧ t.get R.FRV_IMG_STATUS_RESULT = 0 ∧ t.get R.FRV_IMG_STATUS_REFUSAL = 0 ∧
      t.out = s.out ++ [.hostRead 0 (s.get R.FRV_IMG_ADDR_ADDR * 2 ^ 12) 128] ∧ t.image = s.image ∧ sameBytes s t) ∧
    (bit w 1 = false → s.get R.FRV_IMG_STATUS_STATE ≠ 0 →
      exec (.imageLoadStart w) s = .next (s.set R.FRV_IMG_STATUS_OVERRUN 1)) ∧
    (bit w 0 = false → s.get R.FRV_IMG_STATUS_STATE = 2 → ∃ t, exec (.imageCancel w) s = .next t ∧ t.staged = none ∧
      t.get R.FRV_IMG_STATUS_STATE = 0 ∧ t.get R.FRV_IMG_STATUS_RESULT = 3 ∧ t.image = s.image ∧ sameBytes s t) ∧
    (bit w 0 = false → s.get R.FRV_IMG_STATUS_STATE ≠ 2 → exec (.imageCancel w) s = .next s) ∧
    (s.get R.FRV_IMG_STATUS_STATE = 1 →
      (∀ x, checkImage s fetched = .error x → ∃ t, exec (.imageCheckEnd fetched) s = .next t ∧
        t.get R.FRV_IMG_STATUS_STATE = 0 ∧ t.get R.FRV_IMG_STATUS_RESULT = 2 ∧
        t.get R.FRV_IMG_STATUS_REFUSAL = x.code % 2 ^ R.FRV_IMG_STATUS_REFUSAL.width ∧ t.image = s.image ∧
        t.staged = s.staged ∧ sameBytes s t) ∧
      ∀ im, checkImage s fetched = .ok im →
        (s.frame.running = true → ∃ t, exec (.imageCheckEnd fetched) s = .next t ∧ t.staged = some im ∧
          t.get R.FRV_IMG_STATUS_STATE = 2 ∧ t.get R.FRV_IMG_STATUS_RESULT = 1 ∧ t.image = s.image ∧ sameBytes s t) ∧
        (s.frame.running = false → meetsRendezvous s = false → ∃ t, exec (.imageCheckEnd fetched) s = .next t ∧
          t.image = some im ∧ t.staged = none ∧ t.get R.FRV_IMG_STATUS_STATE = 0 ∧ t.get R.FRV_IMG_STATUS_LOADED = 1)) ∧
    (∀ k, k < 4 → bit s.fuses.revoked k = false → (∀ im, s.image = some im → im.signer ≠ k) →
      (∃ j, j < 4 ∧ j ≠ k ∧ bit s.fuses.revoked j = false ∧ nth s.fuses.keys j [] ≠ []) → ∃ t,
      exec (.keyRevoke (2 ^ k)) s = .next t ∧ t.fuses.revoked = s.fuses.revoked.lor (2 ^ k) ∧ sameBytes s t) ∧
    (∀ k im, k < 4 → s.image = some im → im.signer = k → exec (.keyRevoke (2 ^ k)) s = .next s)

/-- A schedule load: START of an idle loader takes the archipelago, its image and its digest and begins the fetch, and
otherwise sets OVERRUN; the checks end refused with the first breach and nothing installed, or accepted and waiting for the
boundary; the install writes each isle's programs, descriptors and resident area and ends the load (R103 to R110). -/
def Obligations.ScheduleLoading : Prop :=
  ∀ (s : State) (w : Nat) (j : SchedJob) (fetched : Option (List Nat)),
    (decodes s 0 = true → domainOn s 0 = true →
      (s.flag R.FRV_SCHED_STATUS_BUSY = true → ∃ t, exec (.scheduleLoadStart w) s = .next t ∧
        t.get R.FRV_SCHED_STATUS_OVERRUN = 1 ∧ onlyRegs s t) ∧
      (s.flag R.FRV_SCHED_STATUS_BUSY = false → ∃ t, exec (.scheduleLoadStart w) s = .next t ∧
        t.get R.FRV_SCHED_STATUS_BUSY = 1 ∧ t.get R.FRV_SCHED_STATUS_ARCH = bits w 0 5 ∧
        t.sched = some { arch := bits w 0 5, addr := s.get R.FRV_SCHED_ADDR_ADDR * 2 ^ 12, image := s.image, digest := archDigest s (bits w 0 5) } ∧
        t.out = s.out ++ [.hostRead 0 (s.get R.FRV_SCHED_ADDR_ADDR * 2 ^ 12) 128] ∧ sameBytes s t)) ∧
    (s.sched = some j → j.accepted = none → j.installing = false →
      (j.touched = true → ∃ t, exec (.scheduleCheckEnd fetched) s = .next t ∧ t.sched = none ∧
        t.get R.FRV_SCHED_STATUS_RESULT = 2 ∧ t.get R.FRV_SCHED_STATUS_REFUSAL = 3) ∧
      (j.touched = false → ∀ x, checkPackage s j fetched = some x → ∃ t, exec (.scheduleCheckEnd fetched) s = .next t ∧
        t.sched = none ∧ t.get R.FRV_SCHED_STATUS_BUSY = 0 ∧ t.get R.FRV_SCHED_STATUS_RESULT = 2 ∧
        t.get R.FRV_SCHED_STATUS_REFUSAL = x.code % 256 ∧ (∀ i, t.isle i = s.isle i) ∧ sameBytes s t) ∧
      (j.touched = false → checkPackage s j fetched = none → s.frame.running = true → ∃ t,
        exec (.scheduleCheckEnd fetched) s = .next t ∧
        t.sched = some { j with accepted := some (pkgIsles (fetched.getD [])) } ∧ t.regs = s.regs ∧
        (∀ i, t.isle i = s.isle i) ∧ sameBytes s t)) ∧
    (s.sched = some j → j.installing = true → j.arch < 32 → ∀ p, j.accepted = some [p] → p.isle ∈ islesOf s j.arch →
      (s.isle p.isle).state = .install → ∃ t, exec .scheduleInstallEnd s = .next t ∧ t.sched = none ∧
      t.get R.FRV_SCHED_STATUS_BUSY = 0 ∧ t.get R.FRV_SCHED_STATUS_RESULT = 1 ∧
      t.get (R.FRV_ARCH_STATE_INSTALLED.at [j.arch]) = 1 ∧ (t.isle p.isle).program = p.words ∧
      (t.isle p.isle).descs = p.descs ∧ (t.isle p.isle).state = .install ∧ (t.arch j.arch).gen = false ∧
      (p.resident.length ≤ 2 ^ 20 - 0x2000 → (∀ b ∈ p.resident, b < 256) →
        lagoonRead t p.isle 0x2000 p.resident.length = p.resident))

/-! Checkpoints. CKP_STATUS holds 0 IDLE, 1 QUIESCING, 2 SENDING, 3 SEALED, 4 RESTORING. -/

/-- Writes of CKP_CTRL and CKP_RESTORE, and the wait for an answer: REQUEST begins a checkpoint that takes the next generation
and quiesces the archipelagos in RUN; ENABLE asks for a FULL one next; disabling abandons with LAST = 7; CLEAR_MAPS clears
every dirty map; REFUGE_RESET gives the refuge up; START restores what the refuge owns; and a SEAL unanswered is abandoned
with LAST = 2 (R744, R758, R759, R767 to R770). -/
def Obligations.CheckpointControl : Prop :=
  ∀ (s : State) (w now : Nat),
    (decodes s 0 = true → domainOn s 0 = true →
      (bit w 7 = false → bit w 10 = false → bit w 0 = true → s.flag R.CKP_CTRL_ENABLE = true → ckpState s = 0 → ∃ t,
        exec (.checkpointRequest w now) s = .next t ∧ ckpState t = 1 ∧ t.get R.CKP_STATUS_CAUSE = 4 ∧
        t.get R.CKP_GEN_CURRENT = (s.get R.CKP_GEN_CURRENT + 1) % 2 ^ 32 ∧
        t.ckp.holds = (archNumbers s).filter (fun a => archState s a == .run) ∧ sameBytes s t) ∧
      (bit w 5 = false → bit w 7 = false → bit w 10 = false → s.flag R.CKP_CTRL_ENABLE = false → ∃ t,
        exec (.checkpointEnable w now) s = .next t ∧ t.get R.CKP_CTRL_ENABLE = 1 ∧ t.get R.CKP_CTRL_FULL_NEXT = 1 ∧
        ckpState t = ckpState s ∧ t.ckp = s.ckp ∧ sameBytes s t) ∧
      (bit w 5 = false → bit w 7 = false → bit w 10 = false → 1 ≤ ckpState s → ckpState s ≤ 3 → ∃ t,
        exec (.checkpointDisable w now) s = .next t ∧ t.get R.CKP_CTRL_ENABLE = 0 ∧ ckpState t = 0 ∧
        t.get R.CKP_STATUS_LAST = 7 ∧
        t.get R.CKP_COUNT_ABANDONED = Nat.min (s.get R.CKP_COUNT_ABANDONED + 1) 65535 ∧ t.ckp.holds = [] ∧ t.ckp.todo = [] ∧
        sameBytes s t) ∧
      (bit w 5 = false → bit w 10 = false → ∃ t, exec (.clearMaps w now) s = .next t ∧
        (∀ i k, i < 256 → k < 256 → t.get (R.CKP_MAP_BITS.at [i, k]) = 0) ∧ sameBytes s t) ∧
      (bit w 5 = false → bit w 7 = false → ∃ t, exec (.refugeReset w now) s = .next t ∧
        t.get R.CKP_REFUGE_STAT_COMMITTED_GEN = 0 ∧ t.get R.CKP_REFUGE_STAT_OWNED = 0 ∧
        t.get R.CKP_REFUGE_STAT_PARTNER = 0 ∧ t.ckp.received = [] ∧ lagoonKept 0 [] s t) ∧
      (ckpState s = 0 → s.flag R.CKP_REFUGE_STAT_OWNED = true → ∃ t, exec (.restoreStart w) s = .next t ∧ ckpState t = 4 ∧
        t.get R.CKP_RESTORE_BUSY = 1 ∧ t.get R.CKP_PROGRESS_SENT = 0 ∧ sameBytes s t) ∧
      (ckpState s ≠ 0 ∨ s.flag R.CKP_REFUGE_STAT_OWNED = false → ∃ t, exec (.restoreStart w) s = .next t ∧
        ckpState t = ckpState s ∧ onlyRegs s t)) ∧
    (ckpState s = 3 → Nat.max 1 (s.get R.CKP_CFG_ABANDON_RDV) ≤ s.ckp.waited → s.flag R.CKP_STATUS_PENDING = false → ∃ t,
      exec (.abandonExpiry now) s = .next t ∧ ckpState t = 0 ∧ t.get R.CKP_STATUS_LAST = 2 ∧
      t.get R.CKP_COUNT_ABANDONED = Nat.min (s.get R.CKP_COUNT_ABANDONED + 1) 65535 ∧ sameBytes s t) ∧
    (s.ckp.waited < Nat.max 1 (s.get R.CKP_CFG_ABANDON_RDV) → exec (.abandonExpiry now) s = .next s)

/-- Units received: a PIECE of a restore is queued at its slice as a write of its own 1 KiB; one for a buddy that is not enabled is
refused with NAK reason 6; a SEAL of the generation already committed is answered with ACK; an ACK commits the checkpoint at
its source, a MISS sends what it lists again, and a NAK abandons with its reason, BASE asking for a FULL one next (R762 to
R771). -/
def Obligations.CheckpointUnits : Prop :=
  ∀ (s : State) (p slot k now : Nat) (u : CkpUnit), unitAt s p slot k = some u →
    (u.kind = 1 → u.page < 8192 → u.piece < 64 → dramOn s u.isle = true →
      (u.restore = true → s.flag R.CKP_CTRL_RESTORE_ACCEPT = true → (rxFor u s).isSome = true → ∃ t,
        exec (.pieceReceive p slot k) s = .next t ∧ sameBytes s t ∧
        ∃ a, (t.slice u.isle).hostq = (s.slice u.isle).hostq ++ [a] ∧ a.write = true ∧
          a.off = u.page * 65536 + 1024 * u.piece ∧ a.len = 1024 ∧ a.data = (u.body ++ List.replicate 1024 0).take 1024) ∧
      (u.restore = false → s.flag R.CKP_CTRL_ENABLE = false → ∀ r, rxFor u s = some r → r.refused = false → ∃ t,
        exec (.pieceReceive p slot k) s = .next t ∧ t.ckp.replies = s.ckp.replies ++
          [(u.src, CkpUnit.bytes { blankUnit s 5 u.gen false with count := 6 })] ∧ sameBytes s t)) ∧
    (u.kind = 2 → u.restore = false → ∀ r, rxFor u s = some r → r.refused = false →
      s.flag R.CKP_REFUGE_STAT_OWNED = true → s.get R.CKP_REFUGE_STAT_PARTNER = u.src → committedGen s = u.gen → ∃ t,
      exec (.sealReceive p slot k) s = .next t ∧
      t.ckp.replies = s.ckp.replies ++ [(u.src, CkpUnit.bytes (blankUnit s 3 u.gen false))] ∧ sameBytes s t) ∧
    (answers s u = true →
      (u.kind = 3 → ckpState s = 3 → s.flag R.CKP_STATUS_PENDING = false → ∃ t, exec (.ackReceive p slot k now) s = .next t ∧
        ckpState t = 0 ∧ t.get R.CKP_GEN_ACKED = u.gen % 2 ^ 32 ∧ t.get R.CKP_STATUS_LAST = 1 ∧
        t.get R.CKP_COUNT_COMMITTED = (s.get R.CKP_COUNT_COMMITTED + 1) % 2 ^ 32 ∧ t.ckp.holds = [] ∧
        (s.ckp.full = true → t.get R.CKP_CTRL_FULL_NEXT = 0) ∧ sameBytes s t) ∧
      (u.kind = 4 → ckpState s = 3 → ∃ t, exec (.missReceive p slot k) s = .next t ∧ ckpState t = 2 ∧
        t.get R.CKP_COUNT_RESENT = Nat.min (s.get R.CKP_COUNT_RESENT + Nat.min u.count 256) 65535 ∧ sameBytes s t) ∧
      (u.kind = 5 → 1 ≤ ckpState s → ckpState s ≤ 3 → s.flag R.CKP_STATUS_PENDING = false → ∃ t,
        exec (.nakReceive p slot k now) s = .next t ∧ ckpState t = 0 ∧ t.get R.CKP_STATUS_LAST = u.count % 8 ∧
        (u.count = 4 → t.get R.CKP_CTRL_FULL_NEXT = 1) ∧ sameBytes s t))

/-! The keel store. KEL_STATUS holds 0 UNMOUNTED, 1 MOUNTED, 2 COMPACTING, 3 FULL, 4 FAILED. -/

/-- A record appended takes NEXT_SEQ and joins the queue's end, while the queue holds at most 64 KiB; a WEAR record carries
the counters with 3,600 s added; a READ begins to fetch the record of a SEQ and is BUSY until its last byte is read, or answers NOT_FOUND; a host record is
queued and BUSY until it is durable, or refused; and each command is ignored with OVERRUN while BUSY (R717, R719, R721, R737,
R740, R741). Compaction and
transfers: at 75 % a compaction starts on the next generation and covers what is durable, and below it does not; a snapshot
read back well becomes the current one, one that fails is written again twice and then the store is FAILED; no write
starts in the foreground zone and no read in the service window; the last chunk of a record makes it durable in its block; a
block erased is fresh; and a firmware write gives way to a journal append that waits (R721 to R731, R738, R741, R783). -/
def Obligations.KeelStore : Prop :=
  (∀ (s : State) (kind w : Nat) (payload : List Nat), keelState s ≠ 0 →
     (kind ∈ [1, 2, 3, 4, 5, 8] → payload.length ≤ 4076 → ∀ r, r = ⟨kind, s.get R.KEL_SEQ_NEXT_SEQ, s.keel.boot, payload⟩ →
       queueBytes (s.keelQueue ++ [r]) ≤ 65536 → ∃ t, exec (.keelAppend kind payload) s = .next t ∧
       t.keelQueue = s.keelQueue ++ [r] ∧ t.get R.KEL_SEQ_NEXT_SEQ = (s.get R.KEL_SEQ_NEXT_SEQ + 1) % 2 ^ 32 ∧
       otherFieldsKept [R.KEL_SEQ_NEXT_SEQ] s t ∧ sameBytes s t) ∧
     (∀ wear r, wear = setNth s.keel.wear 1 ((nth s.keel.wear 1 0 + 3600) % 2 ^ 64) →
       r = ⟨5, s.get R.KEL_SEQ_NEXT_SEQ, s.keel.boot, (wear.map (fun c => le 8 c)).flatten⟩ →
       queueBytes (s.keelQueue ++ [r]) ≤ 65536 → ∃ t, exec .wearRecord s = .next t ∧ t.keelQueue = s.keelQueue ++ [r] ∧
       t.keel.wear = wear ∧ sameBytes s t) ∧
     (decodes s 0 = true → domainOn s 0 = true →
       (s.flag R.KEL_CMD_BUSY = true → ∀ c, c ∈ [Instr.keelRead w, .keelHostAppend w, .keelCompact w] → ∃ t,
         exec c s = .next t ∧ t.get R.KEL_CMD_OVERRUN = 1 ∧ onlyRegs s t) ∧
       (s.flag R.KEL_CMD_BUSY = false →
         (∀ r, (keelRecords s).find? (fun x => x.seq == s.get R.KEL_ARG_SEQ) = some r → ∃ t, exec (.keelRead w) s = .next t ∧
           t.keel.reading = some (r.bytes, 0) ∧ t.get R.KEL_CMD_BUSY = 1 ∧ t.keelQueue = s.keelQueue ∧ sameBytes s t) ∧
         ((keelRecords s).find? (fun x => x.seq == s.get R.KEL_ARG_SEQ) = none → ∃ t, exec (.keelRead w) s = .next t ∧
           t.get R.KEL_CMD_RESULT = 1 ∧ onlyRegs s t) ∧
         ∀ u n, u = writeRest 0 0x800018 w s → n = u.get R.KEL_CMD_LENGTH →
           (n = 0 ∨ 1024 < n ∨ keelState s = 3 ∨ keelState s = 4 → ∃ t, exec (.keelHostAppend w) s = .next t ∧
             t.get R.KEL_CMD_RESULT = 2 ∧ onlyRegs s t) ∧
           (0 < n → n ≤ 1024 → keelState s ≠ 3 → keelState s ≠ 4 → ∀ r, r = ⟨7, s.get R.KEL_SEQ_NEXT_SEQ, s.keel.boot,
               le 2 (u.get R.KEL_CMD_KEY) ++ [0, 0] ++ writeBuffer s n⟩ → queueBytes (s.keelQueue ++ [r]) ≤ 65536 → ∃ t,
             exec (.keelHostAppend w) s = .next t ∧ t.get R.KEL_CMD_BUSY = 1 ∧ t.keelQueue = s.keelQueue ++ [r] ∧
             t.keel.hostSeq = some r.seq ∧ sameBytes s t)))) ∧
  (∀ (s : State) (w cycle : Nat) (ok : Bool) (c : Compaction) (r : KeelRecord),
     (keelOccupancy s < 75 → exec .compactionStart s = .next s) ∧
     (keelState s ≠ 0 → s.keel.compaction = none → 75 ≤ keelOccupancy s → s.keel.failed = false → ∃ t x,
       exec .compactionStart s = .next t ∧ t.keel.compaction = some x ∧ x.snap.gen = ((currentSnap s).gen + 1) % 2 ^ 32 ∧
       x.snap.covers = s.get R.KEL_SEQ_DURABLE_SEQ ∧ x.snap.body = snapshotBody (keelRecords s) ∧ sameBytes s t) ∧
     (keelState s ≠ 0 → s.keel.compaction = none → decodes s 0 = true → domainOn s 0 = true →
       s.flag R.KEL_CMD_BUSY = false → ∃ t, exec (.keelCompact w) s = .next t ∧ t.keel.compaction.isSome = true ∧
       t.get R.KEL_CMD_RESULT = 0) ∧
     (s.keel.compaction = some c → c.written = true →
       (∃ t, exec (.compactionEnd true) s = .next t ∧ t.keel.compaction = none ∧ keelSlot t = 1 - keelSlot s ∧
         currentSnap t = c.snap ∧ t.get R.KEL_SNAP_GENERATION = c.snap.gen % 2 ^ 32 ∧ sameBytes s t) ∧
       (c.failures < 2 → ∃ t, exec (.compactionEnd false) s = .next t ∧
         t.keel.compaction = some { c with chunks := 0, erased := 0, failures := c.failures + 1 } ∧ t.regs = s.regs) ∧
       (2 ≤ c.failures → ∃ t, exec (.compactionEnd false) s = .next t ∧ t.keel.compaction = none ∧ t.keel.failed = true)) ∧
     (s.frame.running = true → s.frame.window = false → ∀ x, (∀ n, x ≠ .read n) →
       exec (.keelWriteTransfer x cycle ok) s = .next s) ∧
     (s.frame.running = true → s.frame.window = true → ∀ n, exec (.keelWriteTransfer (.read n) cycle ok) s = .next s) ∧
     (keelState s ≠ 0 → ∀ bytes got n, s.keel.reading = some (bytes, got) → keelFits (.read n) cycle s = true →
       keelTakes (.read n) s = true →
       (got + n < bytes.length → ∃ t, exec (.keelWriteTransfer (.read n) cycle ok) s = .next t ∧
         t.keel.reading = some (bytes, got + n) ∧ t.regs = s.regs ∧ sameBytes s t) ∧
       (bytes.length ≤ got + n → ∃ t, exec (.keelWriteTransfer (.read n) cycle ok) s = .next t ∧ t.keel.reading = none ∧
         t.get R.KEL_CMD_BUSY = 0 ∧ t.get R.KEL_CMD_RESULT = 0 ∧
         (∀ k, k < 1024 → t.get (R.KEL_RD_BUF_WORD.at [k]) = leAt bytes (4 * k) 4) ∧ sameBytes s t)) ∧
     (s.frame.running = false → keelState s ≠ 0 →
       exec (.keelWriteTransfer .status cycle ok) s =
         .next (s.setKeel { s.keel with ready := ok, working := s.keel.working && !ok }) ∧
       (appendWaits s = true → exec (.keelWriteTransfer (.program .firmware) cycle ok) s = .next s ∧
         exec (.keelWriteTransfer (.erase .firmware) cycle ok) s = .next s) ∧
       (appendWaits s = false → s.keel.ready = true → ∀ f, s.pil.fw = some f →
         (f.erased < f.blocks → ∃ t, exec (.keelWriteTransfer (.erase .firmware) cycle true) s = .next t ∧
           t.pil.fw = some { f with erased := f.erased + 1 } ∧ t.keel.ready = false ∧ t.regs = s.regs ∧ sameBytes s t) ∧
         (f.written < f.chunks → f.written / 128 < f.erased → ∃ t,
           exec (.keelWriteTransfer (.program .firmware) cycle true) s = .next t ∧
           t.pil.fw = some { f with written := f.written + 1 } ∧ t.keel.ready = false ∧ t.regs = s.regs ∧ sameBytes s t)) ∧
       (s.keel.ready = true → s.keel.fresh = true → s.keelQueue.head? = some r → mayAppend s r = true →
         s.keel.used + r.size ≤ 4096 → r.size / 32 ≤ s.keel.chunks + 1 → ∃ t,
         exec (.keelWriteTransfer (.program .ring) cycle true) s = .next t ∧ t.keelQueue = s.keelQueue.drop 1 ∧
         t.get R.KEL_SEQ_DURABLE_SEQ = r.seq % 2 ^ 32 ∧
         (keelBlock t s.keel.block).records = (keelBlock s s.keel.block).records ++ [r] ∧ sameBytes s t) ∧
       (s.keel.ready = true → s.keel.fresh = false → isLive s s.keel.block = false → ∃ t,
         exec (.keelWriteTransfer (.erase .ring) cycle true) s = .next t ∧ t.keel.fresh = true ∧ t.keel.used = 0 ∧
         keelBlock t s.keel.block = {} ∧ t.regs = s.regs ∧ sameBytes s t)))

/-! The facility interface. FAC_SWO_CTRL holds 0 OFF, 1 ON, 2 WAIT_RETRY, 3 TRIPPED, 4 BACKFEED. -/

/-- Stop channels: the first channel to leave RUN after release turns PD2 to PD15 off, latches the stop with LT and starts the
discrepancy timer, whose expiry is a channel fault; both latches clear only while both channels are in RUN, and the stop latch
only without a fault (R686 to R697). -/
def Obligations.StopChannels : Prop :=
  ∀ (s : State) (v w : Nat),
    (s.fac.aRun = true → s.fac.bRun = true → released s = true → domainOn s 17 = true → ∃ t,
      exec (.stopChannelChange false false v) s = .next t ∧ t.fac.aRun = false ∧ t.fac.timing = true ∧
      t.get R.FAC_STOP_STOP_LATCHED = 1 ∧ t.get R.FAC_STOP_TIME_LT = s.get R.LHT_LT_LT % 2 ^ 64 ∧
      t.get R.FAC_STOP_DEMAND = 1 ∧
      ∀ d, 2 ≤ d → d ≤ 15 → (t.dom d).target = false ∧ (domainOn s d = true → (t.dom d).state = .down)) ∧
    (s.fac.aRun = true → exec (.stopChannelChange false true v) s = .next s) ∧
    (s.fac.timing = true → ∃ t, exec .discrepancyExpiry s = .next t ∧ t.get R.FAC_STOP_CHANNEL_FAULT = 1 ∧
      t.fac.timing = false ∧ sameBytes s t) ∧
    (s.fac.timing = false → exec .discrepancyExpiry s = .next s) ∧
    (decodes s 0 = true → domainOn s 17 = true →
      (bit w 4 = false → s.flag R.FAC_STOP_STOP_LATCHED = true →
        (s.fac.aRun = true → s.fac.bRun = true → s.flag R.FAC_STOP_CHANNEL_FAULT = false → ∃ t,
          exec (.stopLatchClear w) s = .next t ∧ t.get R.FAC_STOP_STOP_LATCHED = 0 ∧ sameBytes s t) ∧
        (s.fac.aRun = false ∨ s.fac.bRun = false ∨ s.flag R.FAC_STOP_CHANNEL_FAULT = true → ∃ t,
          exec (.stopLatchClear w) s = .next t ∧ t.get R.FAC_STOP_STOP_LATCHED = 1 ∧
          t.get R.FAC_STOP_CLEAR_REFUSED = 1 ∧ onlyRegs s t)) ∧
      (bit w 3 = false → s.flag R.FAC_STOP_CHANNEL_FAULT = true →
        (s.fac.aRun = true → s.fac.bRun = true → ∃ t, exec (.channelFaultClear w) s = .next t ∧
          t.get R.FAC_STOP_CHANNEL_FAULT = 0 ∧ onlyRegs s t) ∧
        (s.fac.aRun = false ∨ s.fac.bRun = false → ∃ t, exec (.channelFaultClear w) s = .next t ∧
          t.get R.FAC_STOP_CHANNEL_FAULT = 1 ∧ t.get R.FAC_STOP_CLEAR_REFUSED = 1 ∧ onlyRegs s t)))

/-- Switched outputs: a command turns an output ON or OFF unless BACKFEED holds it; a trip counts and waits to retry while
RETRY is set and fewer than three retries are used, and else stays TRIPPED; a retry returns to ON and counts; ten seconds ON
clear the count; the back-feed latch holds an output that is off, and clears only when its pin is at 2.0 V or below (R698 to
R705). LOOP and the pump: a commanded current is applied as 0 or between 4,000 and 20,000 µA; each measurement sets the
headroom and COMPLIANCE; COMPLIANCE_LOST follows it and makes the valve suspect; LOOP_OPEN follows the current; PUMP_FAULT
sets without VAUX while the pump is commanded on and clears after a good second (R681, R682, R706 to R709). -/
def Obligations.SwitchedOutputsAndLoop : Prop :=
  (∀ (s : State) (n w mv : Nat), n < 2 → domainOn s 17 = true →
     (decodes s 0 = true →
       (swoState s n ≠ 4 → ∃ t, exec (.swoCommand n w) s = .next t ∧ swoState t n = b2n (bit w 0) ∧
         t.get (swoCmd n) = b2n (bit w 0) ∧ sameBytes s t) ∧
       (swoState s n = 4 → ∃ t, exec (.swoCommand n w) s = .next t ∧ swoState t n = 4 ∧ t.get (swoCmd n) = b2n (bit w 0) ∧
         sameBytes s t) ∧
       (s.flag (swoLatch n) = true → mv ≤ 2000 → ∃ t, exec (.backfeedClear n w mv) s = .next t ∧ t.get (swoLatch n) = 0 ∧
         swoState t n = b2n (bit w 0) ∧ sameBytes s t) ∧
       (s.flag (swoLatch n) = true → 2000 < mv → ∃ t, exec (.backfeedClear n w mv) s = .next t ∧ t.get (swoLatch n) = 1 ∧
         t.get (swoRefused n) = 1 ∧ sameBytes s t)) ∧
     (swoState s n = 1 → ∃ t, exec (.swoTrip n) s = .next t ∧ t.get (swoOver n) = 1 ∧
       t.get (swoTrips n) = Nat.min (s.get (swoTrips n) + 1) (2 ^ (swoTrips n).width - 1) ∧
       swoState t n = (if s.flag (swoRetry n) && decide (s.get (swoUsed n) < 3) then 2 else 3) ∧ sameBytes s t) ∧
     (swoState s n = 2 → ∃ t, exec (.swoRetry n) s = .next t ∧ swoState t n = 1 ∧
       t.get (swoUsed n) = Nat.min (s.get (swoUsed n) + 1) (2 ^ (swoUsed n).width - 1) ∧ sameBytes s t) ∧
     (swoState s n = 1 → exec (.swoRetryReset n) s = .next (s.set (swoUsed n) 0) ∧ exec (.backfeedLatch n) s = .next s) ∧
     (swoState s n ≠ 1 → swoState s n ≠ 4 → ∃ t, exec (.backfeedLatch n) s = .next t ∧ swoState t n = 4 ∧
       t.get (swoLatch n) = 1 ∧ sameBytes s t)) ∧
  (∀ (s : State) (w vaux pin ua n : Nat) (swo : List (Nat × Nat)),
     (decodes s 0 = true → domainOn s 17 = true →
       exec (.loopCommand w) s = .next (s.set R.FAC_LOOP_CTRL_CMD_UA (loopApplied (bits w 0 15)))) ∧
     (loopApplied 0 = 0 ∧ (0 < ua → 4000 ≤ loopApplied ua ∧ loopApplied ua ≤ 20000) ∧
       (4000 ≤ ua → ua ≤ 20000 → loopApplied ua = ua)) ∧
     (domainOn s 17 = true → ∃ t, exec (.loopHeadroomMeasure vaux pin ua swo) s = .next t ∧
       t.get R.FAC_LOOP_STATUS_HEADROOM_MV = (vaux - pin) % 65536 ∧
       t.get R.FAC_LOOP_STATUS_COMPLIANCE = b2n (s.get R.FAC_LOOP_CTRL_CMD_UA != 0 && decide (vaux - pin < 1500)) ∧
       t.get R.FAC_LOOP_MEAS_CURRENT_UA = ua % 65536 ∧ sameBytes s t) ∧
     (domainOn s 17 = true → s.flag R.FAC_LOOP_STATUS_COMPLIANCE ≠ s.flag R.FAC_LOOP_STATUS_COMPLIANCE_LOST → ∃ t,
       exec .complianceLost s = .next t ∧
       t.flag R.FAC_LOOP_STATUS_COMPLIANCE_LOST = s.flag R.FAC_LOOP_STATUS_COMPLIANCE ∧
       t.flag R.THM_COOL_STAT_VALVE_SUSPECT = s.flag R.FAC_LOOP_STATUS_COMPLIANCE ∧ sameBytes s t) ∧
     (domainOn s 17 = true → s.get R.FAC_LOOP_MEAS_CURRENT_UA < 3600 → s.flag R.FAC_LOOP_STATUS_LOOP_OPEN = false →
       4000 ≤ s.get R.FAC_LOOP_CTRL_CMD_UA → exec .loopOpen s = .next (raise 0x070B noUnit 0 (s.set R.FAC_LOOP_STATUS_LOOP_OPEN 1))) ∧
     (domainOn s 17 = true → 3600 ≤ s.get R.FAC_LOOP_MEAS_CURRENT_UA → s.flag R.FAC_LOOP_STATUS_LOOP_OPEN = true →
       exec .loopOpen s = .next (s.set R.FAC_LOOP_STATUS_LOOP_OPEN 0)) ∧
     (pumpOutput s = some n →
       (domainOn s 17 = true → swoState s n = 1 → s.flag R.THM_COOL_STAT_PUMP_FAULT = true → ∃ t,
         exec .pumpFaultClear s = .next t ∧ t.get R.THM_COOL_STAT_PUMP_FAULT = 0 ∧ sameBytes s t) ∧
       (s.flag (swoCmd n) = true → s.flag R.THM_COOL_STAT_PUMP_FAULT = false → ∃ t, exec .vauxLoss s = .next t ∧
         t.get R.THM_COOL_STAT_PUMP_FAULT = 1 ∧ sameBytes s t)) ∧
     (pumpOutput s = none → exec .pumpFaultClear s = .next s ∧ exec .vauxLoss s = .next s))

/-! Sensors and power. -/

/-- A conversion within range sets the reading and the three flags by their thresholds and hysteresis; the third in a row out
of range fails the sensor, which clears its flags and takes no further conversion (R657, R659, R660, R665). A die's supply
measurement is kept in the service window; every 1 ms each die's compensation takes the sum and number of its readings in
service; every 10 ms a cooling record joins the list and the sums start again (R661, R662, R680). -/
def Obligations.Sensors : Prop :=
  (∀ (s : State) (n count now v : Nat) (x : Int), n < 428 → (dieOf n).powered s = true → (s.sensor n).failed = false →
     (convert s n count = (x, true) → ∃ t, exec (.sensorConversion n count now v) s = .next t ∧ t.sensor n =
       { converted := true, reading := x, outOfRange := 0, failed := false,
         warn := flagAfter s n .warn x (s.sensor n).warn, throt := flagAfter s n .throt x (s.sensor n).throt,
         shut := flagAfter s n .shut x (s.sensor n).shut }) ∧
     (convert s n count = (x, false) → 2 ≤ (s.sensor n).outOfRange → ∃ t,
       exec (.sensorConversion n count now v) s = .next t ∧ (t.sensor n).failed = true ∧ (t.sensor n).warn = false ∧
       (t.sensor n).throt = false ∧ (t.sensor n).shut = false ∧ (∀ m, m ≠ n → t.sensor m = s.sensor m) ∧ sameBytes s t ∧
       exec (.sensorConversion n count now v) t = .next t)) ∧
  (∀ (s : State) (die measured cycle : Nat) (d : Die),
     (allDies.find? (fun x => x.index == die) = some d → d.powered s = true → s.thermal.calFree ≤ cycle →
       windowHolds s cycle 128 = true → ∃ t, exec (.sensorCalibration ⟨die, cycle⟩ measured) s = .next t ∧ KMap.get 0 t.thermal.supply die = measured ∧
       (∀ k, k ≠ die → KMap.get 0 t.thermal.supply k = KMap.get 0 s.thermal.supply k) ∧ t.regs = s.regs ∧ sameBytes s t) ∧
     (d ∈ allDies → d.sensors.filter (inService s) ≠ [] → ∃ t, exec .compensationUpdate s = .next t ∧
       KMap.get (0, 0) t.thermal.comp d.index = ((d.sensors.filter (inService s)).foldl
         (fun (a : Int) n => a + (s.sensor n).reading) 0, (d.sensors.filter (inService s)).length) ∧
       t.regs = s.regs ∧ sameBytes s t) ∧
     (∃ t, exec .coolingRecord s = .next t ∧ t.meter.coolSum = 0 ∧ t.meter.coolSamples = 0 ∧
       t.thermal.cool = ((s.meter.coolSum / Nat.max 1 s.meter.coolSamples, (hottestLogic s).getD 0) :: s.thermal.cool).take 255 ∧
       sameBytes s t))

/-- Shutdown and settings: a shutdown flag turns its die's domains off and latches with its sensor; the latch clears once
every sensor in service has cooled by its hysteresis, and else reports CLEAR_REFUSED; thresholds are cut to their limits,
ignored when not in order or locked; LOCK is set (R664, R669, R673, R858). -/
def Obligations.ThermalShutdownAndThresholds : Prop :=
  ∀ (s : State) (n v w : Nat) (rest : List Nat),
    (s.thermal.due = n :: rest → released s = true → ∃ t, exec (.thermalShutdown v) s = .next t ∧ t.thermal.due = rest ∧
      t.get R.THM_SHUTDOWN_LATCHED = 1 ∧
      (s.flag R.THM_SHUTDOWN_LATCHED = false → t.get R.THM_SHUTDOWN_SENSOR = n % 2 ^ R.THM_SHUTDOWN_SENSOR.width) ∧
      ∀ d ∈ shutDomains (dieOf n), (t.dom d).target = false ∧ (domainOn s d = true → (t.dom d).state = .down)) ∧
    (s.thermal.due = [] → exec (.thermalShutdown v) s = .next s) ∧
    (decodes s 0 = true → domainOn s 0 = true →
      (s.flag R.THM_SHUTDOWN_LATCHED = true →
        ((∀ m, m < 428 → inService s m = true → (s.sensor m).reading ≤
            threshold s m .shut - 8 * (hysteresis s (dieOf m).isDram .shut : Int)) → ∃ t,
          exec (.shutdownLatchClear w) s = .next t ∧ t.get R.THM_SHUTDOWN_LATCHED = 0 ∧ t.thermal.shut = [] ∧ sameBytes s t) ∧
        (∀ m, m < 428 → inService s m = true → threshold s m .shut - 8 * (hysteresis s (dieOf m).isDram .shut : Int) <
            (s.sensor m).reading → ∃ t, exec (.shutdownLatchClear w) s = .next t ∧ t.get R.THM_SHUTDOWN_LATCHED = 1 ∧
          t.get R.THM_SHUTDOWN_CLEAR_REFUSED = 1 ∧ onlyRegs s t)) ∧
      (s.flag R.THM_CTRL_LOCK = false → bits w 0 8 < bits w 8 8 → bits w 8 8 ≤ R.THM_THRESH_LOGIC_THROT_C.reset →
        bits w 0 8 ≤ R.THM_THRESH_LOGIC_WARN_C.reset → exec (.thresholdWrite false w) s = .next
          ((s.set R.THM_THRESH_LOGIC_WARN_C (bits w 0 8)).set R.THM_THRESH_LOGIC_THROT_C (bits w 8 8))) ∧
      (∀ dram, s.flag R.THM_CTRL_LOCK = true ∨ bits w 8 8 ≤ Nat.min (bits w 0 8)
          (if dram then R.THM_THRESH_DRAM_WARN_C.reset else R.THM_THRESH_LOGIC_WARN_C.reset) →
        exec (.thresholdWrite dram w) s = .next s) ∧
      (exec .thmLock s = .next (s.set R.THM_CTRL_LOCK 1)))

/-- Domain requests: an on request waits for the boundary while local frames run, and otherwise begins U1 when the parent is
ON; one a latch refuses changes no domain; an off request takes the domain and its descendants down in one cycle; each step of
the sequencer leads to the next, the last of the way up to ON, the last of the way down to OFF, or HOLD_OFF for a stack's
memory, which ends in OFF; once released, a die whose self-test fails leaves service and one that passes with all its domains ON
is in service (R24, R28, R629 to R639, R672, R690). Power faults: a rail step that exceeds its limit stops bring-up, or
records the fault and takes the domain down to FAULT; a rail that leaves its window faults the domain it feeds; a clock that
loses its lock is counted and reads unlocked, and where that is no power fault its die leaves service; overpower makes every running frame void with one cycle (R129, R608, R640 to
R642). -/
def Obligations.PowerDomains : Prop :=
  (∀ (s : State) (d v : Nat) (ok : Bool), 2 ≤ d → d ≤ 17 →
     (decodes s 0 = true → domainOn s 0 = true →
       (released s = true → s.frame.running = true →
         exec (.domainOnRequest d) s = .next (s.modDom d (fun x => { x with waitBoundary := true }))) ∧
       (released s = true → s.frame.running = false → latchRefuses s d = false → (s.dom d).state = .off →
         (s.dom d).target = false → domainOn s (parentOf d) = true → ∃ t, exec (.domainOnRequest d) s = .next t ∧
         (t.dom d).state = .up ∧ (t.dom d).step = .u1 ∧ (t.dom d).target = true ∧ sameBytes s t) ∧
       (released s = true → s.frame.running = false → latchRefuses s d = true → ∃ t, exec (.domainOnRequest d) s = .next t ∧
         t.doms = s.doms ∧ t.get R.PWR_SEQ_REFUSED = Nat.min (s.get R.PWR_SEQ_REFUSED + 1) (2 ^ R.PWR_SEQ_REFUSED.width - 1) ∧
         sameBytes s t) ∧
       (released s = true → domainOn s d = true → ∃ t, exec (.domainOffRequest d v) s = .next t ∧
         ∀ e ∈ d :: descendants d, (t.dom e).target = false ∧ (domainOn s e = true → (t.dom e).state = .down)) ∧
       (released s = false → exec (.domainOffRequest d v) s = .next (s.bump R.PWR_SEQ_REFUSED))) ∧
     ((s.dom d).state = .up → (s.dom d).target = true →
       ((s.dom d).step = .u7 → bootState s ≠ 3 → ∃ t, exec (.sequencerStepComplete ⟨d, v⟩ ok) s = .next t ∧ domainOn t d = true ∧
         t.get (pwrStateField d) = 2 ∧ (released s = true → ∀ b ∈ healthBits d,
           (ok = false → health t b = false) ∧
           (ok = true → (∀ e ∈ dieDomains b, e ≠ d → domainOn s e = true) → health t b = true))) ∧
       ((s.dom d).step = .u1 → ∃ t, exec (.sequencerStepComplete ⟨d, v⟩ ok) s = .next t ∧ (t.dom d).state = .up ∧
         (t.dom d).step = .u2 ∧ sameBytes s t)) ∧
     ((s.dom d).state = .down → (s.dom d).target = false → (s.dom d).toFault = false →
       ((s.dom d).step = .d1 → ∃ t, exec (.sequencerStepComplete ⟨d, v⟩ ok) s = .next t ∧ (t.dom d).state = .down ∧
         (t.dom d).step = .d2 ∧ sameBytes s t) ∧
       ((s.dom d).step = .d4 → ∃ t, exec (.sequencerStepComplete ⟨d, v⟩ ok) s = .next t ∧
         (t.dom d).state = (if 6 ≤ d ∧ d ≤ 9 then .hold else .off) ∧ sameBytes s t)) ∧
     ((s.dom d).state = .hold → (s.dom d).target = false → ∃ t, exec (.holdOffExpiry d) s = .next t ∧
       (t.dom d).state = .off ∧ sameBytes s t) ∧
     ((s.dom d).state ≠ .hold → exec (.holdOffExpiry d) s = .next s)) ∧
  (∀ (s : State) (d v n : Nat),
     (2 ≤ d → d ≤ 17 → (s.dom d).state = .up → (s.dom d).step = .u2 ∨ (s.dom d).step = .u3 ∨ (s.dom d).step = .u4 →
       (bootState s = 3 → ∃ t, exec (.powerGoodTimeout d v) s = .next t ∧ bootState t = 8 ∧ t.get R.GLB_BOOT_STOP_CAUSE = 7) ∧
       (bootState s ≠ 3 → (s.dom d).toFault = false → ∃ t, exec (.powerGoodTimeout d v) s = .next t ∧
         (t.dom d).state = .down ∧ (t.dom d).toFault = true ∧ t.get R.PWR_FAULT_DOMAIN = d ∧ t.get R.PWR_FAULT_CAUSE = 2)) ∧
     ((s.dom d).step = .none_ → exec (.powerGoodTimeout d v) s = .next s) ∧
     (8 ≤ n → n ≤ 11 → domainOn s (n - 6) = true → (s.dom (n - 6)).toFault = false → ∃ t,
       exec (.railOutOfRegulation n v) s = .next t ∧ (t.dom (n - 6)).state = .down ∧ (t.dom (n - 6)).toFault = true ∧
       t.get R.PWR_FAULT_DOMAIN = n - 6 ∧ t.get R.PWR_FAULT_CAUSE = 1) ∧
     (8 ≤ n → n ≤ 11 → domainOn s (n - 6) = false → exec (.railOutOfRegulation n v) s = .next s) ∧
     (n < 60 → bit (s.get R.PWR_CLK_LOCK_LOCKED) n = true → ∃ t, exec (.clockLockLoss n v) s = .next t ∧
       bit (t.get R.PWR_CLK_LOCK_LOCKED) n = false ∧
       t.get R.PWR_CLK_FREQ_UNLOCKS = Nat.min (s.get R.PWR_CLK_FREQ_UNLOCKS + 1) (2 ^ R.PWR_CLK_FREQ_UNLOCKS.width - 1) ∧
       (clockFault n = none → health t (clockDie n) = false)) ∧
     (bit (s.get R.PWR_CLK_LOCK_LOCKED) n = false → exec (.clockLockLoss n v) s = .next s) ∧
     (∃ t, exec (.overpower v) s = .next t ∧ t.get R.PWR_FAULT_CAUSE = 4 ∧
       (∀ a, a < 32 → (partOf s a).isSome = true → inWet s a = true → (t.arch a).voidAt = some v) ∧
       ((∀ i, (s.isle i).flight = []) → slicesKept 0 [] s t)))

/-- Voltage and cap: the loop moves its setpoint by 5 mV within its limits, down only in a service window or while no local
frames run, and a margin that runs out at the upper limit, or with a setpoint held, is a power fault of the stack; the third failed write returns to the setpoint last acknowledged; a host cap of 0 is none, and any other is held
between 200 W and the fused cap; each sample is added to the sums of its zone (R4, R646, R647, R650, R651, R836). -/
def Obligations.VoltageAndCap : Prop :=
  ∀ (s : State) (k v w mw : Nat) (e : Bool) (rails : List (Nat × Nat)),
    (k < 4 → s.flag (R.PWR_AVS_EN.at [k]) = true → domainOn s (2 + k) = true → ∀ mv, mv = s.get (R.PWR_AVS_VSET_MV.at [k]) →
      (mv < avsUpper s → ∃ t, exec (.avsAdjust k true false v) s = .next t ∧
        t.get (R.PWR_AVS_VSET_MV.at [k]) = Nat.min (mv + 5) (avsUpper s) ∧ sameBytes s t) ∧
      (avsUpper s ≤ mv ∨ (s.getAvs k).held = true → ∃ t, exec (.avsAdjust k true true v) s = .next t ∧
        t.get R.PWR_FAULT_DOMAIN = 2 + k ∧ t.get R.PWR_FAULT_CAUSE = 5 ∧
        ((s.dom (2 + k)).toFault = false → (t.dom (2 + k)).state = .down)) ∧
      (s.frame.running = false ∨ s.frame.window = true → avsLower s < mv →
        exec (.avsAdjust k false e v) s = .next (writeVset k (Nat.max (mv - 5) (avsLower s)) s)) ∧
      (s.frame.running = true → s.frame.window = false → exec (.avsAdjust k false e v) s = .next s)) ∧
    (k < 4 → (s.getAvs k).tries < 2 → exec (.avsWriteTimeout k) s =
      .next (s.setAvs k { s.getAvs k with tries := (s.getAvs k).tries + 1 })) ∧
    (k < 4 → 2 ≤ (s.getAvs k).tries → ∃ t, exec (.avsWriteTimeout k) s = .next t ∧ (t.getAvs k).held = true ∧
      t.get (R.PWR_AVS_VSET_MV.at [k]) = (s.getAvs k).acked % 2048 ∧
      t.get R.GLB_SUPPLY_AVS_ERR = Nat.min (s.get R.GLB_SUPPLY_AVS_ERR + 1) 255 ∧ sameBytes s t) ∧
    (decodes s 0 = true → domainOn s 0 = true →
      (bits w 0 16 = 0 → ∃ t, exec (.hostCapWrite w) s = .next t ∧ t.get R.PWR_CAP_HOST_CAP_W = 0 ∧
        t.get R.PWR_CAP_EFFECTIVE_W = s.get R.GLB_FUSE_PCAP_W % 65536 ∧ onlyRegs s t) ∧
      (0 < bits w 0 16 → 200 ≤ s.get R.GLB_FUSE_PCAP_W → ∃ t, exec (.hostCapWrite w) s = .next t ∧
        t.get R.PWR_CAP_HOST_CAP_W = Nat.min (s.get R.GLB_FUSE_PCAP_W) (Nat.max 200 (bits w 0 16)) ∧
        t.get R.PWR_CAP_EFFECTIVE_W = Nat.min (s.get R.GLB_FUSE_PCAP_W) (Nat.max 200 (bits w 0 16)) ∧
        otherFieldsKept [R.PWR_CAP_HOST_CAP_W, R.PWR_CAP_EFFECTIVE_W] s t ∧ onlyRegs s t)) ∧
    (∃ t, exec (.powerSample rails mw) s = .next t ∧ t.meter.samples = s.meter.samples + 1 ∧
      t.meter.coolSum = s.meter.coolSum + mw ∧
      (t.meter.fgSum, t.meter.svcSum) = (if s.frame.running && !s.frame.window then (s.meter.fgSum + mw, s.meter.svcSum)
        else (s.meter.fgSum, s.meter.svcSum + mw)) ∧
      (∀ r, r < 13 → r < rails.length → t.get (R.GLB_RAIL_MV.at [r]) = (nth rails r (0, 0)).1 % 65536) ∧ sameBytes s t)

/-! Frames, bring-up and resets. GLB_BOOT holds 0 AON, 1 PILOT, 2 KEEL, 3 POWER_UP, 4 SELF_TEST, 5 REPAIR, 6 FILL, 7 RELEASED, 8 STOPPED, 9 WAIT_STOP, 10 COMPUTE_RESET. -/

/-- Cycle F completes what the isles have in progress, opens the service window and flips the generation bit of each archipelago whose frame has its effect; a boundary
closes the frame that ends; a rack tick takes FN and LT to the next rack frame, and at a frame's last begins the frame chosen
with each archipelago in the kind admitted; the isle clocks relock (R23, R32, R37, R47, R87, R586). -/
def Obligations.FramesAndTicks : Prop :=
  ∀ (s u : State) (now : Nat),
    (s.frame.running = true → s.frame.window = false →
      u = (s.isles.map (fun e => e.1)).foldl (fun t i => land i (frameCycles s) t) s → ∃ t, exec .frameEnd s = .next t ∧
      t.frame.window = true ∧ t.frame.running = true ∧ (∀ a ∈ archNumbers s, (t.arch a).ended = true) ∧
      (∀ a ∈ endingArchs u, (t.arch a).gen = !(s.arch a).gen) ∧ lagoonKept 0 [] u t ∧
      ((∀ i, (s.isle i).flight = []) → (∀ a ∈ endingArchs s, (t.arch a).gen = !(s.arch a).gen) ∧ lagoonKept 0 [] s t)) ∧
    (s.frame.running = false ∨ s.frame.window = true → exec .frameEnd s = .next s) ∧
    (s.get R.LHT_FN_FN + 1 < s.frame.endFn → exec (.localFrameBoundary now) s = .next s) ∧
    (s.frame.endFn ≤ s.get R.LHT_FN_FN + 1 → s.frame.running = true → s.frame.closed = false → ∃ t,
      exec (.localFrameBoundary now) s = .next t ∧ t.frame.closed = true) ∧
    (s.lh.running = false → exec (.rackTick now) s = .next s) ∧
    (s.lh.running = true → s.lh.hasOrigin = true → periodNs s ≠ 0 → s.frame.running = true → s.staged = none →
      s.get R.LHT_FN_FN + 1 < 2 ^ 64 →
      (s.get R.LHT_FN_FN + 1 < s.frame.endFn → ∃ t, exec (.rackTick now) s = .next t ∧
        t.get R.LHT_FN_FN = s.get R.LHT_FN_FN + 1 ∧ t.get R.LHT_LT_LT = tickLt s (s.get R.LHT_FN_FN + 1) ∧
        t.frame.running = true ∧ t.frame.endFn = s.frame.endFn ∧ sameBytes s t) ∧
      (s.frame.endFn ≤ s.get R.LHT_FN_FN + 1 → s.frame.closed = true → s.lh.step = none → lhState s ≠ 0 → ∃ t,
        exec (.rackTick now) s = .next t ∧ t.get R.LHT_FN_FN = s.get R.LHT_FN_FN + 1 ∧
        t.get R.LHT_LOCAL_FN_FN_S = s.get R.LHT_FN_FN + 1 ∧ t.frame.running = true ∧ t.frame.window = false ∧
        t.frame.closed = false ∧ t.frame.endFn = s.get R.LHT_FN_FN + 1 + s.frame.nextK ∧
        (∀ a ∈ archNumbers s, (t.arch a).frame = (s.arch a).next) ∧ sameBytes s t)) ∧
    (s.frame.relock = true → ∃ t, exec .isleClockRelock s = .next t ∧ t.frame.relock = false ∧
      (∀ k o, k < 4 → o < 9 → domainOn s (2 + k) = true → bit (t.get R.PWR_CLK_LOCK_LOCKED) (11 * k + o) = true) ∧
      otherFieldsKept [R.PWR_CLK_LOCK_LOCKED] s t ∧ sameBytes s t) ∧
    (s.frame.relock = false → exec .isleClockRelock s = .next s)

/-- The phases of bring-up, each from the one before it, and where each stops: fuse copies that differ, VARIANT 0b11, a
keel device that lacks what the module needs, no firmware, no snapshot, a stop demanded, a die that fails (R593 to R611). -/
def Obligations.BringUpPhases : Prop :=
  ∀ (s : State) (strap b jesd : Nat) (failed : List Nat) (okA okB : Bool),
    (s.flag R.GLB_SUPPLY_MAIN_EN = false →
      (s.fuses.copyA = s.fuses.copyB → s.fuses.copyA.1 < 3 → ∃ t, exec (.aonPhase strap) s = .next t ∧
        t.get R.GLB_RACK_MOD_STRAP = strap % 64 ∧ t.get R.GLB_FUSE_FMAX_MHZ = s.fuses.copyA.2.1 % 2 ^ R.GLB_FUSE_FMAX_MHZ.width ∧
        bootState t = bootState s ∧ onlyRegs s t) ∧
      (s.fuses.copyA = s.fuses.copyB → s.fuses.copyA.1 = 3 → ∃ t, exec (.aonPhase strap) s = .next t ∧ bootState t = 8 ∧
        (bootState s ≠ 8 → t.get R.GLB_BOOT_STOP_CAUSE = 2)) ∧
      (s.fuses.copyA ≠ s.fuses.copyB → ∃ t, exec (.aonPhase strap) s = .next t ∧ bootState t = 8 ∧
        (bootState s ≠ 8 → t.get R.GLB_BOOT_STOP_CAUSE = 1))) ∧
    (s.flag R.GLB_SUPPLY_MAIN_EN = true → domainOn s 0 = false → bootState s ≠ 8 →
      (s.fuses.copyA ≠ s.fuses.copyB → ∃ t, exec (.pilotPhase (okA, okB) jesd) s = .next t ∧ bootState t = 8 ∧
        t.get R.GLB_BOOT_STOP_CAUSE = 1) ∧
      (s.fuses.copyA = s.fuses.copyB → s.get R.GLB_FUSE_VARIANT = 3 → ∃ t, exec (.pilotPhase (okA, okB) jesd) s = .next t ∧
        bootState t = 8 ∧ t.get R.GLB_BOOT_STOP_CAUSE = 2) ∧
      (s.fuses.copyA = s.fuses.copyB → s.get R.GLB_FUSE_VARIANT ≠ 3 →
        (bits jesd 0 6 = 63 → ∀ n, s.pil.fwA = some n → s.fuses.fwFloor ≤ n → ∃ t,
          exec (.pilotPhase (true, false) jesd) s = .next t ∧ bootState t = 1 ∧ domainOn t 0 = true ∧ domainOn t 1 = true ∧
          t.get R.PIL_FW_ACTIVE = 0 ∧ t.keel.suspends = bit jesd 6 ∧ sameBytes s t) ∧
        (bits jesd 0 6 ≠ 63 → ∃ t, exec (.pilotPhase (okA, okB) jesd) s = .next t ∧ bootState t = 8 ∧
          t.get R.GLB_BOOT_STOP_CAUSE = 3) ∧
        (∃ t, exec (.pilotPhase (false, false) jesd) s = .next t ∧ bootState t = 8 ∧ t.get R.GLB_BOOT_STOP_CAUSE = 3))) ∧
    (bootState s = 1 →
      (s.keel.snapA.valid = true → ∃ t, exec .keelPhase s = .next t ∧ bootState t = 2 ∧ sameBytes s t) ∧
      (s.keel.snapA.valid = false → s.keel.snapB.valid = false → ∃ t, exec .keelPhase s = .next t ∧ bootState t = 8 ∧
        t.get R.GLB_BOOT_STOP_CAUSE = 3)) ∧
    (bootState s = 2 →
      (stopDemanded s = true → ∃ t, exec .powerUpPhase s = .next t ∧ bootState t = 9 ∧ t.doms = s.doms) ∧
      (stopDemanded s = false → s.flag R.FAC_STOP_CHANNEL_FAULT = false → domainOn s 0 = true → (s.dom 17).state = .off → ∃ t,
        exec .powerUpPhase s = .next t ∧ bootState t = 3 ∧ (t.dom 17).state = .up ∧ (t.dom 17).target = true)) ∧
    (bootState s = 3 → (∀ d, d < 16 → domainOn s (d + 2) = true) →
      (∃ t, exec (.selfTestPhase [] failed) s = .next t ∧ bootState t = 4 ∧ (∀ x, x < 40 → health t x = true)) ∧
      (b < 40 → ∃ t, exec (.selfTestPhase [b] failed) s = .next t ∧ bootState t = 8 ∧ t.get R.GLB_BOOT_STOP_CAUSE = 4 ∧
        t.get R.GLB_BOOT_DETAIL = b ∧ ∀ x, x < 40 → x ≠ b → health t x = true)) ∧
    (bootState s = 4 → s.fuses.failedIsles = [] → fieldRecords s = [] →
      (s.boot.failedNow = [] → ∃ t, exec .repairPhase s = .next t ∧ bootState t = 5 ∧ t.boot.placed = [] ∧
        t.get R.GLB_INVENTORY_SPARES_FREE = 16) ∧
      (s.boot.failedNow = [b] → b < 272 → b % 68 < 64 → ∃ t, exec .repairPhase s = .next t ∧ bootState t = 5 ∧
        KMap.get 0 t.boot.placed (64 * (b / 68) + b % 68) = 1 ∧ t.get R.GLB_INVENTORY_SPARES_FREE = 15)) ∧
    (bootState s = 5 → ∃ t, exec .fillPhase s = .next t ∧ bootState t = 6 ∧ ∀ i, i < 256 → (t.slice i).filling = true ∧
      (∀ a, lagoonGet t i a = 0#8) ∧ ∀ o, (storedWord t i o).take 32 = List.replicate 32 0) ∧
    (mayRelease s = true → ∃ t, exec (.release b) s = .next t ∧ bootState t = 7 ∧
      t.get R.GLB_INVENTORY_LOGICAL_ISLES = 256 ∧ t.get R.GLB_BOOT_TIME_RELEASE_US = Nat.min b (2 ^ 32 - 1) ∧
      (∀ i, i < 256 → (s.isle i).state = .held → (t.isle i).state = .idle) ∧ sameBytes s t)

/-- Resets of the module, the supplies and the host link: the key in GLB_MRESET, a pilot's watchdog, and losses of MAIN_PG or
REFCLK25 leave no image, no memory and every domain but PD1 off, and keep the fuses and the keel's snapshots; loss of the AON
supply leaves every register at its reset value; the host link's reset and the loss of REFCLK100 stop the DMA engines and
change no memory (R590 to R592, R782, R842 to R848, R856). The compute reset: START of a released module sets BUSY, and
DEFERRED while a schedule is written; the reset stops local frames, waits to be quiescent, tests and repairs, leaves each
isle's working area zero, and ends RELEASED with its count and its time (R612 to R625). -/
def Obligations.Resets : Prop :=
  (∀ (s : State) (w core : Nat),
     (decodes s 0 = true → domainOn s 0 = true → bits w 0 16 = 0x5A3C → bit w 16 = true → ∃ t,
       exec (.moduleReset w) s = .next t ∧ t.image = none ∧ t.lagoon = [] ∧ t.stored = [] ∧ t.fuses = s.fuses ∧
       t.keel.snapA = s.keel.snapA ∧ (∀ d, d ≠ 1 → (t.dom d).state = .off)) ∧
     (bits w 0 16 ≠ 0x5A3C ∨ bit w 16 = false → exec (.moduleReset w) s = .next s) ∧
     (domainOn s 0 = true → core < 8 → ∃ t, exec (.pilotWatchdogExpiry core) s = .next t ∧ t.image = none ∧
       t.boot.watchdog = some core ∧ t.lagoon = [] ∧ t.stored = [] ∧ t.fuses = s.fuses) ∧
     (∃ t, exec .aonSupplyLoss s = .next t ∧ t.regs = [] ∧ t.doms = [] ∧ t.lagoon = [] ∧ t.stored = [] ∧ t.image = none ∧
       t.fuses = s.fuses ∧ t.keel.snapA = s.keel.snapA ∧ t.pil.fwA = s.pil.fwA) ∧
     (∀ c f, (c, f) ∈ [(Instr.mainPgLoss, R.GLB_SUPPLY_MAIN_PG), (.refclk25Loss, R.GLB_SUPPLY_REFCLK25_OK)] →
       (s.flag f = true → ∃ t, exec c s = .next t ∧ t.image = none ∧ t.lagoon = [] ∧ t.stored = [] ∧ t.boot.brownout = true ∧
         t.fuses = s.fuses ∧ ∀ d, (t.dom d).state = .off) ∧
       (s.flag f = false → exec c s = .next s)) ∧
     (s.flag R.GLB_SUPPLY_REFCLK100_OK = true → ∃ t, exec .refclk100Loss s = .next t ∧ t.get R.GLB_SUPPLY_REFCLK100_OK = 0 ∧
       (∀ e, e < 8 → t.get (R.DMA_CTRL_ENABLE.at [e]) = 0) ∧ sameBytes s t) ∧
     (domainOn s 1 = true → ∃ t, exec .hostLinkReset s = .next t ∧ t.hif.d3hot = [] ∧
       (∀ e, e < 8 → t.get (R.DMA_CTRL_ENABLE.at [e]) = 0) ∧ sameBytes s t)) ∧
  (∀ (s : State) (w v us : Nat),
     (decodes s 0 = true → domainOn s 0 = true → s.flag R.GLB_CRESET_BUSY = false →
       (bootState s = 7 → ∃ t, exec (.computeResetRequest w) s = .next t ∧ t.get R.GLB_CRESET_BUSY = 1 ∧
         t.get R.GLB_CRESET_DEFERRED = b2n (installing s) ∧ onlyRegs s t) ∧
       (bootState s ≠ 7 → ∃ t, exec (.computeResetRequest w) s = .next t ∧ t.get R.GLB_CRESET_REFUSED = 1 ∧
         t.flag R.GLB_CRESET_BUSY = false ∧ onlyRegs s t)) ∧
     (s.flag R.GLB_CRESET_BUSY = true → s.boot.creset = .none_ → installing s = false → ∃ t,
       exec (.computeResetStart v) s = .next t ∧ t.boot.creset = .stopping ∧ bootState t = 10 ∧ t.frame.running = false ∧
       t.get R.GLB_CRESET_DEFERRED = 0 ∧ ((∀ i, (s.isle i).flight = []) → slicesKept 0 [] s t)) ∧
     (s.boot.creset = .stopping →
       exec .computeResetQuiescent s = .next { s with boot := { s.boot with creset := .testing } }) ∧
     (s.boot.creset = .testing → s.boot.placed = [] → s.fuses.failedIsles = [] → fieldRecords s = [] → ∃ t,
       exec (.computeResetSelfTestEnd []) s = .next t ∧ t.boot.creset = .restarting ∧ t.boot.moved = [] ∧
       ((∀ i, (s.isle i).flight = []) → slicesKept 0 [] s t ∧ ∀ i a, i < 256 → (s.isle i).state ≠ .off →
         0x2000 + (s.isle i).residentBytes ≤ a → a < 2 ^ 20 → lagoonGet t i a = 0#8)) ∧
     (s.boot.creset = .restarting → ∃ t, exec (.computeResetEnd us) s = .next t ∧ t.boot.creset = .none_ ∧ bootState t = 7 ∧
       t.get R.GLB_CRESET_BUSY = 0 ∧ t.get R.GLB_CRESET_COUNT = (s.get R.GLB_CRESET_COUNT + 1) % 2 ^ R.GLB_CRESET_COUNT.width ∧
       t.get R.GLB_BOOT_TIME_CRESET_US = Nat.min us (2 ^ 32 - 1) ∧ sameBytes s t))

/-! Pilots and management. -/

/-- The mailbox: START of an idle mailbox takes the command and sets BUSY, and of a busy one OVERRUN; GET_INFO answers the
versions; FW_UPDATE of an image in order begins to write the slot not running, waits until it is written, and ends with
what is read back, or fails to verify and changes nothing; FW_COMMIT_FLOOR raises the floor, no
further than 32 and the version that runs; KEY_ENROLL writes an empty slot and no other; any other opcode answers BAD_OPCODE
(R781, R784 to R788). The cache directory: a request is held for its line alone; in a round each line takes one decision: a
line no core holds goes to the one core that asks, and a holder gives up the line that another waits for (R775, R776). -/
def Obligations.MailboxAndDirectory : Prop :=
  (∀ (s : State) (op : Nat) (image : Option Nat) (m : MbxCmd),
     (decodes s 0 = true → domainOn s 0 = true → ∀ c x, (c, x) ∈ [(Instr.getInfo, 1), (.fwUpdate, 2), (.fwCommitFloor, 3),
         (.keyEnroll, 4), (.mailboxBadOpcode op, op)] →
       (s.flag R.PIL_MBX_STATUS_BUSY = true → exec c s = .next (s.set R.PIL_MBX_STATUS_OVERRUN 1)) ∧
       (s.flag R.PIL_MBX_STATUS_BUSY = false → ∃ t y, exec c s = .next t ∧ t.pil.cmd = some y ∧ y.opcode = x % 256 ∧
         t.get R.PIL_MBX_STATUS_BUSY = 1 ∧ t.get R.PIL_MBX_CMD_OPCODE = x % 256 ∧ sameBytes s t)) ∧
     (s.pil.cmd = some m → firmwareGoing s = true → exec (.mailboxCommandEnd image) s = .next s) ∧
     (s.pil.cmd = some m → m.opcode = 2 → s.pil.fw = none → leAt m.arg 0 4 ≤ 2 ^ 23 → ∀ n, image = some n → s.fuses.fwFloor ≤ n →
       keelState s ≠ 4 → ∃ t, exec (.mailboxCommandEnd image) s = .next t ∧ t.pil.cmd = some m ∧
       t.get R.PIL_MBX_STATUS_BUSY = s.get R.PIL_MBX_STATUS_BUSY ∧ t.pil.fw =
         some { version := n % 2 ^ 16, blocks := cdiv (leAt m.arg 0 4) 4096, chunks := cdiv (leAt m.arg 0 4) 32 } ∧
       (s.flag R.PIL_FW_ACTIVE = false → t.pil.fwB = none ∧ t.pil.fwA = s.pil.fwA) ∧ sameBytes s t) ∧
     (s.pil.cmd = some m → firmwareGoing s = false →
       (m.opcode = 2 → s.pil.fw.isSome = true ∨ (firmwareRefused m image s).isSome = true) → ∃ t,
       exec (.mailboxCommandEnd image) s = .next t ∧ t.pil.cmd = none ∧
       t.get R.PIL_MBX_STATUS_BUSY = 0 ∧ t.get R.PIL_MBX_STATUS_DONE = 1 ∧ sameBytes s t ∧
       (m.opcode = 1 → t.get R.PIL_MBX_STATUS_RESULT = 0 ∧ t.get (R.PIL_MBX_RSP_BYTES.at [0]) =
         s.get R.PIL_FW_VERSION_A % 65536 + s.get R.PIL_FW_VERSION_B % 65536 * 65536) ∧
       (m.opcode = 2 → s.pil.fw = none → 2 ^ 23 < leAt m.arg 0 4 → t.get R.PIL_MBX_STATUS_RESULT = 2 ∧ t.pil.fwA = s.pil.fwA ∧
         t.pil.fwB = s.pil.fwB) ∧
       (m.opcode = 2 → s.pil.fw = none → leAt m.arg 0 4 ≤ 2 ^ 23 →
         (image = none → t.get R.PIL_MBX_STATUS_RESULT = 3 ∧ t.pil.fwA = s.pil.fwA ∧ t.pil.fwB = s.pil.fwB) ∧
         (∀ n, image = some n → n < s.fuses.fwFloor → t.get R.PIL_MBX_STATUS_RESULT = 4 ∧ t.pil.fwA = s.pil.fwA ∧
           t.pil.fwB = s.pil.fwB) ∧
         (∀ n, image = some n → s.fuses.fwFloor ≤ n → keelState s = 4 → t.get R.PIL_MBX_STATUS_RESULT = 7 ∧
           t.pil.fwA = s.pil.fwA ∧ t.pil.fwB = s.pil.fwB)) ∧
       (∀ f, m.opcode = 2 → s.pil.fw = some f → t.pil.fw = none ∧
         (image = none → t.get R.PIL_MBX_STATUS_RESULT = 7 ∧ t.pil.fwA = s.pil.fwA ∧ t.pil.fwB = s.pil.fwB) ∧
         (image ≠ none → t.get R.PIL_MBX_STATUS_RESULT = 0 ∧
           (s.flag R.PIL_FW_ACTIVE = false → t.pil.fwB = some f.version ∧ t.pil.fwA = s.pil.fwA))) ∧
       (m.opcode = 3 → s.fuses.fwFloor < 32 → s.fuses.fwFloor < runningVersion s → t.get R.PIL_MBX_STATUS_RESULT = 0 ∧
         s.fuses.fwFloor < t.fuses.fwFloor ∧ t.fuses.fwFloor ≤ Nat.min 32 (runningVersion s)) ∧
       (m.opcode = 3 → 32 ≤ s.fuses.fwFloor → t.get R.PIL_MBX_STATUS_RESULT = 5 ∧ t.fuses = s.fuses) ∧
       (∀ k, m.opcode = 4 → nth m.arg 0 0 = k → 1 ≤ k → k ≤ 3 → ((m.arg.drop 4).take 32).all (fun b => b == 0) = false →
         (nth s.fuses.keys k [] = [] → t.get R.PIL_MBX_STATUS_RESULT = 0 ∧
           nth t.fuses.keys k [] = (m.arg.drop 4).take 32 ∧ ∀ j, j ≠ k → nth t.fuses.keys j [] = nth s.fuses.keys j []) ∧
         (nth s.fuses.keys k [] ≠ [] → t.get R.PIL_MBX_STATUS_RESULT = 6 ∧ t.fuses = s.fuses)) ∧
       (m.opcode = 0 ∨ 4 < m.opcode → t.get R.PIL_MBX_STATUS_RESULT = 1 ∧ t.fuses = s.fuses))) ∧
  (∀ (s : State) (core line cycle : Nat), domainOn s 0 = true → core < 8 →
     ((cacheLine s line).owner ≠ some core → (cacheLine s line).requests = [] → (cacheLine s line).order = [] → ∃ t,
       exec (.ownershipRequest core line cycle none) s = .next t ∧ (cacheLine t line).requests = [(core, cycle)] ∧
       (cacheLine t line).owner = (cacheLine s line).owner ∧ (∀ n, n ≠ line → cacheLine t n = cacheLine s n) ∧ sameBytes s t) ∧
     (s.pil.lines.rising = true → ∃ t, exec .directoryRound s = .next t ∧
       (∀ n, cacheLine t n = (lineRound (cacheLine s n)).1) ∧ sameBytes s t ∧
       ((cacheLine s line).order = [] → (cacheLine s line).requests = [(core, cycle)] → (cacheLine s line).owner = none →
         (cacheLine t line).owner = some core ∧ (cacheLine t line).requests = [] ∧
         (cacheLine t line).pointer = (core + 1) % 8) ∧
       (∀ next rest, (cacheLine s line).order = next :: rest →
         ((cacheLine s line).owner.isSome = true → (cacheLine t line).owner = none) ∧
         ((cacheLine s line).owner = none → (cacheLine t line).owner = some next ∧ (cacheLine t line).order = rest))))

/-- The management endpoint answers on the binding asked while the pilots are up: MCTP control, PLDM base and repository, and
SPDM, whose IDE_KM over DOE takes the link's stream to Secure; a request for an endpoint ID of its own is taken from 1 to 254; packets that are bad or of another type are counted and
not answered (R790 to R795). Sensors and effecters: a disabled sensor reports so and an enabled one its reading; a refused
setting answers an error and changes no domain; with MGMT_WRITE_EN the host cap is set, and a domain's off request needs none
(R795, R801 to R804). Events to the receiver: it is set and read back; the oldest event is sent, and leaves the queue once
answered; one that no answer follows is sent again up to three times and then dropped with its count; PIL_LOCK sets LOCK (R796
to R799, R858). The TAP: reset and IDCODE select the identification register, which IDCODE shifts out; SAMPLE/PRELOAD captures
the pins and loads the cells; EXTEST, CLAMP and HIGHZ are in force only while PD2 to PD15 are off, and else act as BYPASS and
are reported (R805 to R808). -/
def Obligations.Management : Prop :=
  (∀ (s : State) (vdm : Bool) (k : Nat), mctpUp s vdm = true →
     (∀ c name code vs, (c, name, code, vs) ∈ ([
         (Instr.getEndpointId vdm, "Get Endpoint ID", 0, [(s.get (eidField vdm) : Int)]),
         (.getMctpVersionSupport vdm 0xFF, "Get MCTP Version Support", 0, [1, 3]),
         (.getMessageTypeSupport vdm, "Get Message Type Support", 0, [0, 1, 5]),
         (.unsupportedControlCommand vdm k, "MCTP Control", 5, [(k : Int)]),
         (.getPldmVersion vdm 2, "GetPLDMVersion", 0, [1, 2]), (.getPldmTypes vdm, "GetPLDMTypes", 0, [0, 2]),
         (.getPldmCommands vdm 0, "GetPLDMCommands", 0, [2, 3, 4, 5]),
         (.getPdrRepositoryInfo vdm, "GetPDRRepositoryInfo", 0, [68])] : List (Instr × String × Nat × List Int)) →
       exec c s = .next (s.emit (.mctp vdm name code vs))) ∧
     (1 ≤ k → k ≤ 18 → exec (.getPdr vdm k) s = .next (s.emit (.mctp vdm "GetPDR" 0 [(k : Int), 0, (k : Int)]))) ∧
     (k = 0 ∨ 68 < k → exec (.getPdr vdm k) s = .next (s.emit (.mctp vdm "GetPDR" 0x82 []))) ∧
     (1 ≤ k → k < 255 → ∃ t, exec (.setEndpointId vdm k) s = .next t ∧ t.get (eidField vdm) = k ∧
       otherFieldsKept [eidField vdm] s t ∧ t.out = s.out ++ [.mctp vdm "Set Endpoint ID" 0 [(k : Int)]]) ∧
     (∃ x y, exec (.getEndpointUuid vdm) s = .next (s.emit (.mctp vdm "Get Endpoint UUID" 0 [x, y]))) ∧
     (∃ x, exec (.getTid vdm) s = .next (s.emit (.mctp vdm "GetTID" 0 [x]))) ∧
     (exec (.mctpUnsupportedType vdm) s = .next (s.bump R.PIL_MCTP_ERR_UNSUPPORTED)) ∧
     (∃ t, exec (.mctpBadPacket vdm) s = .next t ∧
       t.get R.PIL_MCTP_ERR_BAD = Nat.min (s.get R.PIL_MCTP_ERR_BAD + 1) (2 ^ R.PIL_MCTP_ERR_BAD.width - 1) ∧ t.out = s.out) ∧
     (∀ path, vdm = (path != 0) → (∃ x, exec (.spdmRequest path .measurements) s = .next (s.emit (.spdm path "measurements"
         (x :: ((List.range 8).map (fun w => le 4 (s.get (R.FRV_DIGEST_BYTES.at [w])))).flatten)))) ∧
       (∃ x, exec (.spdmRequest path .certificates) s = .next (s.emit (.spdm path "certificate chain" [x]))) ∧
       exec (.spdmRequest path .ideKm) s = .next (if path = 2 then
         (s.set R.GLB_HIF_LINK_IDE_SECURE 1).emit (.spdm path "IDE_KM" []) else s))) ∧
  (∀ (s : State) (vdm : Bool) (id v w : Nat), mctpUp s vdm = true →
     (1 ≤ id → id ≤ 18 →
       (s.pil.disabled.contains id = true →
         exec (.getSensorReading vdm id) s = .next (s.emit (.mctp vdm "GetSensorReading" 0 [1]))) ∧
       (s.pil.disabled.contains id = false → sensorPowered s id = true → ∀ x, sensorReading s id = some x →
         exec (.getSensorReading vdm id) s = .next (s.emit (.mctp vdm "GetSensorReading" 0
           [0, x, (levelOf (sensorLimits s id) x : Int)]))) ∧
       (exec (.getSensorThresholds vdm id) s = .next (s.emit (.mctp vdm "GetSensorThresholds" 0
         (limitValues (sensorLimits s id).warn ++ limitValues (sensorLimits s id).crit ++
           limitValues (sensorLimits s id).fatal ++ limitValues (sensorLimits s id).low)))) ∧
       (∀ on, ∃ t, exec (.setNumericSensorEnable vdm id on) s = .next t ∧ t.pil.disabled.contains id = !on ∧ t.regs = s.regs)) ∧
     (s.flag R.PIL_CTRL_MGMT_WRITE_EN = true →
       (∃ t, exec (.setNumericEffecterValue vdm 70 w) s = .next t ∧
         t.regs = (setHostCap w s).regs ∧ t.out = s.out ++ [.mctp vdm "SetNumericEffecterValue" 0 []]) ∧
       (s.flag R.GLB_CRESET_BUSY = false → bootState s = 7 → ∃ t, exec (.setStateEffecterStates vdm 60 1 v) s = .next t ∧
         t.get R.GLB_CRESET_BUSY = 1 ∧ t.out = s.out ++ [.mctp vdm "SetStateEffecterStates" 0 []])) ∧
     (s.flag R.PIL_CTRL_MGMT_WRITE_EN = false →
       (∃ t, exec (.setNumericEffecterValue vdm id w) s = .next t ∧ t.out = s.out ++ [.mctp vdm "SetNumericEffecterValue" 1 []] ∧
         t.get R.PWR_CAP_HOST_CAP_W = s.get R.PWR_CAP_HOST_CAP_W ∧ t.doms = s.doms) ∧
       (∃ t, exec (.setStateEffecterStates vdm 60 1 v) s = .next t ∧
         t.out = s.out ++ [.mctp vdm "SetStateEffecterStates" 1 []] ∧ t.get R.GLB_CRESET_BUSY = s.get R.GLB_CRESET_BUSY ∧
         t.doms = s.doms)) ∧
     (1 ≤ id → id ≤ 16 → released s = true → domainOn s (id + 1) = true → ∃ t,
       exec (.setStateEffecterStates vdm id 2 v) s = .next t ∧ (t.dom (id + 1)).state = .down ∧
       (t.dom (id + 1)).target = false) ∧
     (1 ≤ id → id ≤ 16 → exec (.getStateEffecterStates vdm id) s = .next (s.emit (.mctp vdm "GetStateEffecterStates" 0
       [(s.get (pwrStateField (id + 1)) : Int)]))) ∧
     (exec (.getNumericEffecterValue vdm 70) s = .next (s.emit (.mctp vdm "GetNumericEffecterValue" 0
       [(s.get R.PWR_CAP_HOST_CAP_W : Int)])))) ∧
  (∀ (s : State) (vdm : Bool) (eid w : Nat) (e : PldmEvent) (rest : List PldmEvent),
     (mctpUp s vdm = true → (∃ t, exec (.setEventReceiver vdm eid) s = .next t ∧ t.get R.PIL_PLDM_RECEIVER_SET = 1 ∧
         t.get R.PIL_PLDM_RECEIVER_EID = eid % 256 ∧ t.flag R.PIL_PLDM_RECEIVER_VDM = vdm ∧
         t.out = s.out ++ [.mctp vdm "SetEventReceiver" 0 []]) ∧
       exec (.getEventReceiver vdm) s = .next (s.emit (.mctp vdm "GetEventReceiver" 0
         [(s.get R.PIL_PLDM_RECEIVER_SET : Int), (s.get R.PIL_PLDM_RECEIVER_EID : Int), (s.get R.PIL_PLDM_RECEIVER_VDM : Int)]))) ∧
     (mctpUp s (s.flag R.PIL_PLDM_RECEIVER_VDM) = true → s.pldm = e :: rest →
       (s.pldmTries = 0 → ∃ t, exec (.platformEventMessage true) s = .next t ∧ t.pldm = rest ∧ t.pldmTries = 0 ∧
         t.out = s.out ++ [.mctp (s.flag R.PIL_PLDM_RECEIVER_VDM) "PlatformEventMessage" 0
           ((s.get R.PIL_PLDM_RECEIVER_EID : Int) :: eventValues e)]) ∧
       (s.pldmTries = 0 → ∃ t, exec (.platformEventMessage false) s = .next t ∧ t.pldm = s.pldm ∧ t.pldmTries = 1) ∧
       (0 < s.pldmTries → exec (.platformEventMessage true) s = .next s) ∧
       (0 < s.pldmTries → s.pldmTries < 4 → ∃ t, exec (.platformEventRetryTimeout false) s = .next t ∧ t.pldm = s.pldm ∧
         t.pldmTries = s.pldmTries + 1) ∧
       (4 ≤ s.pldmTries → s.flag R.PIL_PLDM_RECEIVER_SET = false → ∃ t,
         exec (.platformEventRetryTimeout false) s = .next t ∧ t.pldm = rest ∧ t.pldmTries = 0 ∧
         t.get R.PIL_PLDM_FWD_DROPPED = Nat.min (s.get R.PIL_PLDM_FWD_DROPPED + 1) (2 ^ R.PIL_PLDM_FWD_DROPPED.width - 1))) ∧
     (decodes s 0 = true → domainOn s 0 = true → ∃ t, exec (.pilLock w) s = .next t ∧ t.get R.PIL_CTRL_LOCK = 1 ∧ onlyRegs s t)) ∧
  (∀ (s : State) (code : Nat) (pins cells : List Bool),
     (∃ t, exec .tapReset s = .next t ∧ t.pil.tap.instr = 1 ∧ t.pil.tap.active = false ∧ t.out = s.out ∧ sameBytes s t) ∧
     (∃ t, exec .idcode s = .next t ∧ t.pil.tap.instr = 1 ∧ t.pil.tap.active = false ∧
       t.out = s.out ++ [.tap 1 R.PIL_IDCODE_IDCODE.reset] ∧ sameBytes s t) ∧
     (∃ t x, exec (.samplePreload pins cells) s = .next t ∧ t.pil.tap.instr = 2 ∧ t.pil.tap.cells = cells ∧
       t.out = s.out ++ [.tap 2 x] ∧ (∀ k, k < pins.length → bit x k = nth pins k false) ∧ sameBytes s t) ∧
     (∀ c n, (c, n) ∈ [(Instr.extest, 0), (.clamp, 4), (.highz, 5)] →
       (scanAllowed s = true → ∃ t, exec c s = .next t ∧ t.pil.tap.instr = n ∧ t.pil.tap.active = true ∧ sameBytes s t) ∧
       (scanAllowed s = false → ∃ t, exec c s = .next t ∧ t.pil.tap.instr = n ∧ t.pil.tap.active = false ∧
         (domainOn s 0 = true → t.get R.PIL_JTAG_STAT_EXTEST_BLOCKED = 1) ∧ sameBytes s t)) ∧
     (∃ t, exec (.bypass code) s = .next t ∧ t.pil.tap.instr = code % 256 ∧ t.pil.tap.active = false ∧ sameBytes s t))
end

