-- ==== Sys2Proof/Laws/KMap.lean ====
section
/-!
SUPPORT. Laws of the sparse maps: a read after a write, and that every operation keeps the keys rising.
-/
namespace Sys2Proof.KMap

variable {α : Type}

/-- Every key of the map is above a bound. -/
def above (lo : Nat) (m : KMap α) : Prop := ∀ e ∈ m, lo < e.1

theorem get_erase_same (d : α) (m : KMap α) (k : Nat) : get d (erase m k) k = d := by
  induction m with
  | nil => rfl
  | cons e m ih =>
    obtain ⟨a, v⟩ := e
    by_cases h : a = k
    · simp [erase, h, ih]
    · simp [erase, get, h, ih]

theorem get_erase_ne (d : α) (m : KMap α) {k k' : Nat} (h : k ≠ k') : get d (erase m k) k' = get d m k' := by
  induction m with
  | nil => rfl
  | cons e m ih =>
    obtain ⟨a, v⟩ := e
    by_cases ha : a = k
    · subst ha; simp [erase, get, h, ih]
    · by_cases hb : a = k'
      · subst hb; simp [erase, get, ha]
      · simp [erase, get, ha, hb, ih]

theorem get_insert_same (d v : α) (m : KMap α) (k : Nat) (h : ∀ e ∈ m, e.1 ≠ k) : get d (insert k v m) k = v := by
  induction m with
  | nil => simp [insert, get]
  | cons e m ih =>
    obtain ⟨a, w⟩ := e
    have ha : a ≠ k := h (a, w) (by simp)
    have ih := ih (fun e he => h e (by simp [he]))
    by_cases hk : k < a
    · simp [insert, get, hk]
    · simp [insert, get, hk, ha, ih]

theorem get_insert_ne (d v : α) (m : KMap α) {k k' : Nat} (h : k ≠ k') : get d (insert k v m) k' = get d m k' := by
  induction m with
  | nil => simp [insert, get, h]
  | cons e m ih =>
    obtain ⟨a, w⟩ := e
    by_cases hk : k < a
    · simp [insert, get, hk, h]
    · by_cases hb : a = k'
      · subst hb; simp [insert, get, hk]
      · simp [insert, get, hk, hb, ih]

theorem mem_erase {m : KMap α} {k : Nat} {e : Nat × α} : e ∈ erase m k ↔ e ∈ m ∧ e.1 ≠ k := by
  induction m with
  | nil => simp [erase]
  | cons x m ih =>
    obtain ⟨a, v⟩ := x
    by_cases h : a = k
    · subst h
      rw [erase, if_pos rfl, ih, List.mem_cons]
      constructor
      · rintro ⟨h1, h2⟩; exact ⟨Or.inr h1, h2⟩
      · rintro ⟨h1 | h1, h2⟩
        · subst h1; exact absurd rfl h2
        · exact ⟨h1, h2⟩
    · rw [erase, if_neg h, List.mem_cons, ih, List.mem_cons]
      constructor
      · rintro (h1 | ⟨h1, h2⟩)
        · subst h1; exact ⟨Or.inl rfl, h⟩
        · exact ⟨Or.inr h1, h2⟩
      · rintro ⟨h1 | h1, h2⟩
        · exact Or.inl h1
        · exact Or.inr ⟨h1, h2⟩

theorem mem_insert {m : KMap α} {k : Nat} {v : α} {e : Nat × α} : e ∈ insert k v m ↔ e = (k, v) ∨ e ∈ m := by
  induction m with
  | nil => simp [insert]
  | cons x m ih =>
    obtain ⟨a, w⟩ := x
    by_cases h : k < a
    · simp [insert, h]
    · rw [insert, if_neg h, List.mem_cons, ih, List.mem_cons]
      constructor
      · rintro (h | h | h) <;> simp [h]
      · rintro (h | h | h) <;> simp [h]

/-- A read after a write to the same key gives the value written. -/
@[simp] theorem get_put_same [DecidableEq α] (d : α) (m : KMap α) (k : Nat) (v : α) : get d (put d m k v) k = v := by
  unfold put
  split
  · rename_i h; rw [get_erase_same, h]
  · exact get_insert_same d v _ k (fun e he => (mem_erase.mp he).2)

/-- A write leaves every other key as it was. -/
theorem get_put_ne [DecidableEq α] (d d' : α) (m : KMap α) {k k' : Nat} (v : α) (h : k ≠ k') :
    get d' (put d m k v) k' = get d' m k' := by
  unfold put
  split
  · exact get_erase_ne d' m h
  · rw [get_insert_ne d' v _ h, get_erase_ne d' m h]

theorem rising_cons {a : Nat} {v : α} {m : KMap α} : rising ((a, v) :: m) = true ↔ above a m ∧ rising m = true := by
  induction m generalizing a v with
  | nil => simp [rising, above]
  | cons x m ih =>
    obtain ⟨b, w⟩ := x
    rw [rising, Bool.and_eq_true, decide_eq_true_eq, ih]
    constructor
    · rintro ⟨hab, hb, hm⟩
      refine ⟨?_, hb, hm⟩
      intro e he
      rcases List.mem_cons.mp he with h | h
      · subst h; exact hab
      · exact Nat.lt_trans hab (hb e h)
    · rintro ⟨ha, hb, hm⟩
      exact ⟨ha (b, w) (by simp), hb, hm⟩

@[simp] theorem rising_nil : rising ([] : KMap α) = true := rfl

/-- Unlisting a key keeps the keys rising. -/
theorem rising_erase {m : KMap α} {k : Nat} (h : rising m = true) : rising (erase m k) = true := by
  induction m with
  | nil => rfl
  | cons x m ih =>
    obtain ⟨a, v⟩ := x
    have ⟨ha, hm⟩ := rising_cons.mp h
    by_cases hk : a = k
    · simp [erase, hk, ih hm]
    · rw [erase, if_neg hk]
      exact rising_cons.mpr ⟨fun e he => ha e (mem_erase.mp he).1, ih hm⟩

/-- An insertion at a key the map does not list keeps the keys rising. -/
theorem rising_insert {m : KMap α} {k : Nat} {v : α} (h : rising m = true) (hk : ∀ e ∈ m, e.1 ≠ k) :
    rising (insert k v m) = true := by
  induction m with
  | nil => rfl
  | cons x m ih =>
    obtain ⟨a, w⟩ := x
    have ⟨ha, hm⟩ := rising_cons.mp h
    by_cases hka : k < a
    · rw [insert, if_pos hka]
      refine rising_cons.mpr ⟨?_, h⟩
      intro e he
      rcases List.mem_cons.mp he with h' | h'
      · subst h'; exact hka
      · exact Nat.lt_trans hka (ha e h')
    · rw [insert, if_neg hka]
      refine rising_cons.mpr ⟨?_, ih hm (fun e he => hk e (by simp [he]))⟩
      intro e he
      rcases mem_insert.mp he with h' | h'
      · subst h'
        have := hk (a, w) (by simp)
        show a < k
        have h2 : a ≠ k := this
        omega
      · exact ha e h'

/-- A write keeps the keys rising. -/
@[simp] theorem rising_put [DecidableEq α] {d : α} {m : KMap α} {k : Nat} {v : α} (h : rising m = true) :
    rising (put d m k v) = true := by
  unfold put
  split
  · exact rising_erase h
  · exact rising_insert (rising_erase h) (fun e he => (mem_erase.mp he).2)

/-- A write lists no entry but the one written and those already listed. -/
theorem mem_put [DecidableEq α] {d : α} {m : KMap α} {k : Nat} {v : α} {e : Nat × α} (h : e ∈ put d m k v) :
    (e = (k, v) ∧ v ≠ d) ∨ (e ∈ m ∧ e.1 ≠ k) := by
  unfold put at h
  split at h
  · exact Or.inr (mem_erase.mp h)
  · rename_i hv
    rcases mem_insert.mp h with h | h
    · exact Or.inl ⟨h, hv⟩
    · exact Or.inr (mem_erase.mp h)

/-- Unlisting the entries that fail a test keeps the keys rising. -/
@[simp] theorem rising_filter {m : KMap α} {p : Nat × α → Bool} (h : rising m = true) : rising (m.filter p) = true := by
  induction m with
  | nil => rfl
  | cons x m ih =>
    obtain ⟨a, v⟩ := x
    have ⟨ha, hm⟩ := rising_cons.mp h
    rw [List.filter_cons]
    split
    · exact rising_cons.mpr ⟨fun e he => ha e (List.mem_filter.mp he).1, ih hm⟩
    · exact ih hm

theorem mem_dropRange {m : KMap α} {lo hi : Nat} {e : Nat × α} : e ∈ dropRange m lo hi ↔ e ∈ m ∧ (e.1 < lo ∨ hi ≤ e.1) := by
  simp [dropRange]

@[simp] theorem rising_dropRange {m : KMap α} {lo hi : Nat} (h : rising m = true) : rising (dropRange m lo hi) = true :=
  rising_filter h

/-- What reads after a range is unlisted. -/
theorem get_dropRange (d : α) (m : KMap α) (lo hi k : Nat) :
    get d (dropRange m lo hi) k = if lo ≤ k ∧ k < hi then d else get d m k := by
  induction m with
  | nil => simp [dropRange, get]
  | cons e m ih =>
    obtain ⟨a, v⟩ := e
    have ih' : get d (m.filter (fun e => decide (e.1 < lo ∨ hi ≤ e.1))) k = if lo ≤ k ∧ k < hi then d else get d m k := ih
    unfold dropRange
    rw [List.filter_cons]
    split
    · rename_i h
      have h' : a < lo ∨ hi ≤ a := by simpa using h
      by_cases hk : a = k
      · subst hk; simp only [get, if_true]; rw [if_neg (by omega)]
      · simpa [get, hk] using ih'
    · rename_i h
      have h' : ¬(a < lo ∨ hi ≤ a) := by simpa using h
      by_cases hk : a = k
      · subst hk; rw [ih', if_pos (by omega), if_pos (by omega)]
      · simpa [get, hk] using ih'

theorem get_dropRange_out {d : α} {m : KMap α} {lo hi k : Nat} (h : k < lo ∨ hi ≤ k) :
    get d (dropRange m lo hi) k = get d m k := by rw [get_dropRange, if_neg (by omega)]

theorem get_dropRange_in {d : α} {m : KMap α} {lo hi k : Nat} (h : lo ≤ k) (h' : k < hi) :
    get d (dropRange m lo hi) k = d := by rw [get_dropRange, if_pos ⟨h, h'⟩]

/-- An entry that reads as an unlisted one, or as some value, does so after a range is unlisted. -/
theorem get_dropRange_or {d v : α} {m : KMap α} {lo hi k : Nat} (h : get d m k = d ∨ get d m k = v) :
    get d (dropRange m lo hi) k = d ∨ get d (dropRange m lo hi) k = v := by
  rw [get_dropRange]; split
  · exact Or.inl rfl
  · exact h

theorem get_dropRange_unlisted {d : α} {m : KMap α} {lo hi k : Nat} (h : get d m k = d) : get d (dropRange m lo hi) k = d := by
  rw [get_dropRange, h, ite_self]

end Sys2Proof.KMap
end

