-- ==== Sys2Proof/Laws/State.lean ====
section
/-!
SUPPORT. The fields of the state that each named update leaves as they were, one lemma a field, so that no proof unfolds a
record update.
-/
namespace Sys2Proof.Machine

/-! `State.set`. -/
@[simp] theorem State.set_pending (s : State) (f : Field) (v : Nat) : (s.set f v).pending = s.pending := rfl
@[simp] theorem State.set_pwrShadow (s : State) (f : Field) (v : Nat) : (s.set f v).pwrShadow = s.pwrShadow := rfl
@[simp] theorem State.set_out (s : State) (f : Field) (v : Nat) : (s.set f v).out = s.out := rfl
@[simp] theorem State.set_draws (s : State) (f : Field) (v : Nat) : (s.set f v).draws = s.draws := rfl
@[simp] theorem State.set_log (s : State) (f : Field) (v : Nat) : (s.set f v).log = s.log := rfl
@[simp] theorem State.set_pldm (s : State) (f : Field) (v : Nat) : (s.set f v).pldm = s.pldm := rfl
@[simp] theorem State.set_pldmTries (s : State) (f : Field) (v : Nat) : (s.set f v).pldmTries = s.pldmTries := rfl
@[simp] theorem State.set_keelQueue (s : State) (f : Field) (v : Nat) : (s.set f v).keelQueue = s.keelQueue := rfl
@[simp] theorem State.set_keel (s : State) (f : Field) (v : Nat) : (s.set f v).keel = s.keel := rfl
@[simp] theorem State.set_lh (s : State) (f : Field) (v : Nat) : (s.set f v).lh = s.lh := rfl
@[simp] theorem State.set_frame (s : State) (f : Field) (v : Nat) : (s.set f v).frame = s.frame := rfl
@[simp] theorem State.set_doms (s : State) (f : Field) (v : Nat) : (s.set f v).doms = s.doms := rfl
@[simp] theorem State.set_avs (s : State) (f : Field) (v : Nat) : (s.set f v).avs = s.avs := rfl
@[simp] theorem State.set_meter (s : State) (f : Field) (v : Nat) : (s.set f v).meter = s.meter := rfl
@[simp] theorem State.set_fuses (s : State) (f : Field) (v : Nat) : (s.set f v).fuses = s.fuses := rfl
@[simp] theorem State.set_boot (s : State) (f : Field) (v : Nat) : (s.set f v).boot = s.boot := rfl
@[simp] theorem State.set_ckp (s : State) (f : Field) (v : Nat) : (s.set f v).ckp = s.ckp := rfl
@[simp] theorem State.set_thermal (s : State) (f : Field) (v : Nat) : (s.set f v).thermal = s.thermal := rfl
@[simp] theorem State.set_refresh (s : State) (f : Field) (v : Nat) : (s.set f v).refresh = s.refresh := rfl
@[simp] theorem State.set_fac (s : State) (f : Field) (v : Nat) : (s.set f v).fac = s.fac := rfl
@[simp] theorem State.set_pil (s : State) (f : Field) (v : Nat) : (s.set f v).pil = s.pil := rfl
@[simp] theorem State.set_archs (s : State) (f : Field) (v : Nat) : (s.set f v).archs = s.archs := rfl
@[simp] theorem State.set_requests (s : State) (f : Field) (v : Nat) : (s.set f v).requests = s.requests := rfl
@[simp] theorem State.set_isles (s : State) (f : Field) (v : Nat) : (s.set f v).isles = s.isles := rfl
@[simp] theorem State.set_slices (s : State) (f : Field) (v : Nat) : (s.set f v).slices = s.slices := rfl
@[simp] theorem State.set_image (s : State) (f : Field) (v : Nat) : (s.set f v).image = s.image := rfl
@[simp] theorem State.set_staged (s : State) (f : Field) (v : Nat) : (s.set f v).staged = s.staged := rfl
@[simp] theorem State.set_imageAddr (s : State) (f : Field) (v : Nat) : (s.set f v).imageAddr = s.imageAddr := rfl
@[simp] theorem State.set_sched (s : State) (f : Field) (v : Nat) : (s.set f v).sched = s.sched := rfl
@[simp] theorem State.set_quays (s : State) (f : Field) (v : Nat) : (s.set f v).quays = s.quays := rfl
@[simp] theorem State.set_cycleOps (s : State) (f : Field) (v : Nat) : (s.set f v).cycleOps = s.cycleOps := rfl
@[simp] theorem State.set_cycleArms (s : State) (f : Field) (v : Nat) : (s.set f v).cycleArms = s.cycleArms := rfl
@[simp] theorem State.set_ports (s : State) (f : Field) (v : Nat) : (s.set f v).ports = s.ports := rfl
@[simp] theorem State.set_hif (s : State) (f : Field) (v : Nat) : (s.set f v).hif = s.hif := rfl
@[simp] theorem State.set_lagoon (s : State) (f : Field) (v : Nat) : (s.set f v).lagoon = s.lagoon := rfl
@[simp] theorem State.set_lagoonErr (s : State) (f : Field) (v : Nat) : (s.set f v).lagoonErr = s.lagoonErr := rfl
@[simp] theorem State.set_stored (s : State) (f : Field) (v : Nat) : (s.set f v).stored = s.stored := rfl

/-! `State.setFlag`. -/
@[simp] theorem State.setFlag_pending (s : State) (f : Field) (b : Bool) : (s.setFlag f b).pending = s.pending := rfl
@[simp] theorem State.setFlag_pwrShadow (s : State) (f : Field) (b : Bool) : (s.setFlag f b).pwrShadow = s.pwrShadow := rfl
@[simp] theorem State.setFlag_out (s : State) (f : Field) (b : Bool) : (s.setFlag f b).out = s.out := rfl
@[simp] theorem State.setFlag_draws (s : State) (f : Field) (b : Bool) : (s.setFlag f b).draws = s.draws := rfl
@[simp] theorem State.setFlag_log (s : State) (f : Field) (b : Bool) : (s.setFlag f b).log = s.log := rfl
@[simp] theorem State.setFlag_pldm (s : State) (f : Field) (b : Bool) : (s.setFlag f b).pldm = s.pldm := rfl
@[simp] theorem State.setFlag_pldmTries (s : State) (f : Field) (b : Bool) : (s.setFlag f b).pldmTries = s.pldmTries := rfl
@[simp] theorem State.setFlag_keelQueue (s : State) (f : Field) (b : Bool) : (s.setFlag f b).keelQueue = s.keelQueue := rfl
@[simp] theorem State.setFlag_keel (s : State) (f : Field) (b : Bool) : (s.setFlag f b).keel = s.keel := rfl
@[simp] theorem State.setFlag_lh (s : State) (f : Field) (b : Bool) : (s.setFlag f b).lh = s.lh := rfl
@[simp] theorem State.setFlag_frame (s : State) (f : Field) (b : Bool) : (s.setFlag f b).frame = s.frame := rfl
@[simp] theorem State.setFlag_doms (s : State) (f : Field) (b : Bool) : (s.setFlag f b).doms = s.doms := rfl
@[simp] theorem State.setFlag_avs (s : State) (f : Field) (b : Bool) : (s.setFlag f b).avs = s.avs := rfl
@[simp] theorem State.setFlag_meter (s : State) (f : Field) (b : Bool) : (s.setFlag f b).meter = s.meter := rfl
@[simp] theorem State.setFlag_fuses (s : State) (f : Field) (b : Bool) : (s.setFlag f b).fuses = s.fuses := rfl
@[simp] theorem State.setFlag_boot (s : State) (f : Field) (b : Bool) : (s.setFlag f b).boot = s.boot := rfl
@[simp] theorem State.setFlag_ckp (s : State) (f : Field) (b : Bool) : (s.setFlag f b).ckp = s.ckp := rfl
@[simp] theorem State.setFlag_thermal (s : State) (f : Field) (b : Bool) : (s.setFlag f b).thermal = s.thermal := rfl
@[simp] theorem State.setFlag_refresh (s : State) (f : Field) (b : Bool) : (s.setFlag f b).refresh = s.refresh := rfl
@[simp] theorem State.setFlag_fac (s : State) (f : Field) (b : Bool) : (s.setFlag f b).fac = s.fac := rfl
@[simp] theorem State.setFlag_pil (s : State) (f : Field) (b : Bool) : (s.setFlag f b).pil = s.pil := rfl
@[simp] theorem State.setFlag_archs (s : State) (f : Field) (b : Bool) : (s.setFlag f b).archs = s.archs := rfl
@[simp] theorem State.setFlag_requests (s : State) (f : Field) (b : Bool) : (s.setFlag f b).requests = s.requests := rfl
@[simp] theorem State.setFlag_isles (s : State) (f : Field) (b : Bool) : (s.setFlag f b).isles = s.isles := rfl
@[simp] theorem State.setFlag_slices (s : State) (f : Field) (b : Bool) : (s.setFlag f b).slices = s.slices := rfl
@[simp] theorem State.setFlag_image (s : State) (f : Field) (b : Bool) : (s.setFlag f b).image = s.image := rfl
@[simp] theorem State.setFlag_staged (s : State) (f : Field) (b : Bool) : (s.setFlag f b).staged = s.staged := rfl
@[simp] theorem State.setFlag_imageAddr (s : State) (f : Field) (b : Bool) : (s.setFlag f b).imageAddr = s.imageAddr := rfl
@[simp] theorem State.setFlag_sched (s : State) (f : Field) (b : Bool) : (s.setFlag f b).sched = s.sched := rfl
@[simp] theorem State.setFlag_quays (s : State) (f : Field) (b : Bool) : (s.setFlag f b).quays = s.quays := rfl
@[simp] theorem State.setFlag_cycleOps (s : State) (f : Field) (b : Bool) : (s.setFlag f b).cycleOps = s.cycleOps := rfl
@[simp] theorem State.setFlag_cycleArms (s : State) (f : Field) (b : Bool) : (s.setFlag f b).cycleArms = s.cycleArms := rfl
@[simp] theorem State.setFlag_ports (s : State) (f : Field) (b : Bool) : (s.setFlag f b).ports = s.ports := rfl
@[simp] theorem State.setFlag_hif (s : State) (f : Field) (b : Bool) : (s.setFlag f b).hif = s.hif := rfl
@[simp] theorem State.setFlag_lagoon (s : State) (f : Field) (b : Bool) : (s.setFlag f b).lagoon = s.lagoon := rfl
@[simp] theorem State.setFlag_lagoonErr (s : State) (f : Field) (b : Bool) : (s.setFlag f b).lagoonErr = s.lagoonErr := rfl
@[simp] theorem State.setFlag_stored (s : State) (f : Field) (b : Bool) : (s.setFlag f b).stored = s.stored := rfl

/-! `State.bump`. -/
@[simp] theorem State.bump_pending (s : State) (f : Field) (n : Nat) : (s.bump f n).pending = s.pending := rfl
@[simp] theorem State.bump_pwrShadow (s : State) (f : Field) (n : Nat) : (s.bump f n).pwrShadow = s.pwrShadow := rfl
@[simp] theorem State.bump_out (s : State) (f : Field) (n : Nat) : (s.bump f n).out = s.out := rfl
@[simp] theorem State.bump_draws (s : State) (f : Field) (n : Nat) : (s.bump f n).draws = s.draws := rfl
@[simp] theorem State.bump_log (s : State) (f : Field) (n : Nat) : (s.bump f n).log = s.log := rfl
@[simp] theorem State.bump_pldm (s : State) (f : Field) (n : Nat) : (s.bump f n).pldm = s.pldm := rfl
@[simp] theorem State.bump_pldmTries (s : State) (f : Field) (n : Nat) : (s.bump f n).pldmTries = s.pldmTries := rfl
@[simp] theorem State.bump_keelQueue (s : State) (f : Field) (n : Nat) : (s.bump f n).keelQueue = s.keelQueue := rfl
@[simp] theorem State.bump_keel (s : State) (f : Field) (n : Nat) : (s.bump f n).keel = s.keel := rfl
@[simp] theorem State.bump_lh (s : State) (f : Field) (n : Nat) : (s.bump f n).lh = s.lh := rfl
@[simp] theorem State.bump_frame (s : State) (f : Field) (n : Nat) : (s.bump f n).frame = s.frame := rfl
@[simp] theorem State.bump_doms (s : State) (f : Field) (n : Nat) : (s.bump f n).doms = s.doms := rfl
@[simp] theorem State.bump_avs (s : State) (f : Field) (n : Nat) : (s.bump f n).avs = s.avs := rfl
@[simp] theorem State.bump_meter (s : State) (f : Field) (n : Nat) : (s.bump f n).meter = s.meter := rfl
@[simp] theorem State.bump_fuses (s : State) (f : Field) (n : Nat) : (s.bump f n).fuses = s.fuses := rfl
@[simp] theorem State.bump_boot (s : State) (f : Field) (n : Nat) : (s.bump f n).boot = s.boot := rfl
@[simp] theorem State.bump_ckp (s : State) (f : Field) (n : Nat) : (s.bump f n).ckp = s.ckp := rfl
@[simp] theorem State.bump_thermal (s : State) (f : Field) (n : Nat) : (s.bump f n).thermal = s.thermal := rfl
@[simp] theorem State.bump_refresh (s : State) (f : Field) (n : Nat) : (s.bump f n).refresh = s.refresh := rfl
@[simp] theorem State.bump_fac (s : State) (f : Field) (n : Nat) : (s.bump f n).fac = s.fac := rfl
@[simp] theorem State.bump_pil (s : State) (f : Field) (n : Nat) : (s.bump f n).pil = s.pil := rfl
@[simp] theorem State.bump_archs (s : State) (f : Field) (n : Nat) : (s.bump f n).archs = s.archs := rfl
@[simp] theorem State.bump_requests (s : State) (f : Field) (n : Nat) : (s.bump f n).requests = s.requests := rfl
@[simp] theorem State.bump_isles (s : State) (f : Field) (n : Nat) : (s.bump f n).isles = s.isles := rfl
@[simp] theorem State.bump_slices (s : State) (f : Field) (n : Nat) : (s.bump f n).slices = s.slices := rfl
@[simp] theorem State.bump_image (s : State) (f : Field) (n : Nat) : (s.bump f n).image = s.image := rfl
@[simp] theorem State.bump_staged (s : State) (f : Field) (n : Nat) : (s.bump f n).staged = s.staged := rfl
@[simp] theorem State.bump_imageAddr (s : State) (f : Field) (n : Nat) : (s.bump f n).imageAddr = s.imageAddr := rfl
@[simp] theorem State.bump_sched (s : State) (f : Field) (n : Nat) : (s.bump f n).sched = s.sched := rfl
@[simp] theorem State.bump_quays (s : State) (f : Field) (n : Nat) : (s.bump f n).quays = s.quays := rfl
@[simp] theorem State.bump_cycleOps (s : State) (f : Field) (n : Nat) : (s.bump f n).cycleOps = s.cycleOps := rfl
@[simp] theorem State.bump_cycleArms (s : State) (f : Field) (n : Nat) : (s.bump f n).cycleArms = s.cycleArms := rfl
@[simp] theorem State.bump_ports (s : State) (f : Field) (n : Nat) : (s.bump f n).ports = s.ports := rfl
@[simp] theorem State.bump_hif (s : State) (f : Field) (n : Nat) : (s.bump f n).hif = s.hif := rfl
@[simp] theorem State.bump_lagoon (s : State) (f : Field) (n : Nat) : (s.bump f n).lagoon = s.lagoon := rfl
@[simp] theorem State.bump_lagoonErr (s : State) (f : Field) (n : Nat) : (s.bump f n).lagoonErr = s.lagoonErr := rfl
@[simp] theorem State.bump_stored (s : State) (f : Field) (n : Nat) : (s.bump f n).stored = s.stored := rfl

/-! `State.count`. -/
@[simp] theorem State.count_pending (s : State) (f : Field) (n : Nat) : (s.count f n).pending = s.pending := rfl
@[simp] theorem State.count_pwrShadow (s : State) (f : Field) (n : Nat) : (s.count f n).pwrShadow = s.pwrShadow := rfl
@[simp] theorem State.count_out (s : State) (f : Field) (n : Nat) : (s.count f n).out = s.out := rfl
@[simp] theorem State.count_draws (s : State) (f : Field) (n : Nat) : (s.count f n).draws = s.draws := rfl
@[simp] theorem State.count_log (s : State) (f : Field) (n : Nat) : (s.count f n).log = s.log := rfl
@[simp] theorem State.count_pldm (s : State) (f : Field) (n : Nat) : (s.count f n).pldm = s.pldm := rfl
@[simp] theorem State.count_pldmTries (s : State) (f : Field) (n : Nat) : (s.count f n).pldmTries = s.pldmTries := rfl
@[simp] theorem State.count_keelQueue (s : State) (f : Field) (n : Nat) : (s.count f n).keelQueue = s.keelQueue := rfl
@[simp] theorem State.count_keel (s : State) (f : Field) (n : Nat) : (s.count f n).keel = s.keel := rfl
@[simp] theorem State.count_lh (s : State) (f : Field) (n : Nat) : (s.count f n).lh = s.lh := rfl
@[simp] theorem State.count_frame (s : State) (f : Field) (n : Nat) : (s.count f n).frame = s.frame := rfl
@[simp] theorem State.count_doms (s : State) (f : Field) (n : Nat) : (s.count f n).doms = s.doms := rfl
@[simp] theorem State.count_avs (s : State) (f : Field) (n : Nat) : (s.count f n).avs = s.avs := rfl
@[simp] theorem State.count_meter (s : State) (f : Field) (n : Nat) : (s.count f n).meter = s.meter := rfl
@[simp] theorem State.count_fuses (s : State) (f : Field) (n : Nat) : (s.count f n).fuses = s.fuses := rfl
@[simp] theorem State.count_boot (s : State) (f : Field) (n : Nat) : (s.count f n).boot = s.boot := rfl
@[simp] theorem State.count_ckp (s : State) (f : Field) (n : Nat) : (s.count f n).ckp = s.ckp := rfl
@[simp] theorem State.count_thermal (s : State) (f : Field) (n : Nat) : (s.count f n).thermal = s.thermal := rfl
@[simp] theorem State.count_refresh (s : State) (f : Field) (n : Nat) : (s.count f n).refresh = s.refresh := rfl
@[simp] theorem State.count_fac (s : State) (f : Field) (n : Nat) : (s.count f n).fac = s.fac := rfl
@[simp] theorem State.count_pil (s : State) (f : Field) (n : Nat) : (s.count f n).pil = s.pil := rfl
@[simp] theorem State.count_archs (s : State) (f : Field) (n : Nat) : (s.count f n).archs = s.archs := rfl
@[simp] theorem State.count_requests (s : State) (f : Field) (n : Nat) : (s.count f n).requests = s.requests := rfl
@[simp] theorem State.count_isles (s : State) (f : Field) (n : Nat) : (s.count f n).isles = s.isles := rfl
@[simp] theorem State.count_slices (s : State) (f : Field) (n : Nat) : (s.count f n).slices = s.slices := rfl
@[simp] theorem State.count_image (s : State) (f : Field) (n : Nat) : (s.count f n).image = s.image := rfl
@[simp] theorem State.count_staged (s : State) (f : Field) (n : Nat) : (s.count f n).staged = s.staged := rfl
@[simp] theorem State.count_imageAddr (s : State) (f : Field) (n : Nat) : (s.count f n).imageAddr = s.imageAddr := rfl
@[simp] theorem State.count_sched (s : State) (f : Field) (n : Nat) : (s.count f n).sched = s.sched := rfl
@[simp] theorem State.count_quays (s : State) (f : Field) (n : Nat) : (s.count f n).quays = s.quays := rfl
@[simp] theorem State.count_cycleOps (s : State) (f : Field) (n : Nat) : (s.count f n).cycleOps = s.cycleOps := rfl
@[simp] theorem State.count_cycleArms (s : State) (f : Field) (n : Nat) : (s.count f n).cycleArms = s.cycleArms := rfl
@[simp] theorem State.count_ports (s : State) (f : Field) (n : Nat) : (s.count f n).ports = s.ports := rfl
@[simp] theorem State.count_hif (s : State) (f : Field) (n : Nat) : (s.count f n).hif = s.hif := rfl
@[simp] theorem State.count_lagoon (s : State) (f : Field) (n : Nat) : (s.count f n).lagoon = s.lagoon := rfl
@[simp] theorem State.count_lagoonErr (s : State) (f : Field) (n : Nat) : (s.count f n).lagoonErr = s.lagoonErr := rfl
@[simp] theorem State.count_stored (s : State) (f : Field) (n : Nat) : (s.count f n).stored = s.stored := rfl

/-! `State.emit`. -/
@[simp] theorem State.emit_pending (s : State) (o : Out) : (s.emit o).pending = s.pending := rfl
@[simp] theorem State.emit_regs (s : State) (o : Out) : (s.emit o).regs = s.regs := rfl
@[simp] theorem State.emit_pwrShadow (s : State) (o : Out) : (s.emit o).pwrShadow = s.pwrShadow := rfl
@[simp] theorem State.emit_draws (s : State) (o : Out) : (s.emit o).draws = s.draws := rfl
@[simp] theorem State.emit_log (s : State) (o : Out) : (s.emit o).log = s.log := rfl
@[simp] theorem State.emit_pldm (s : State) (o : Out) : (s.emit o).pldm = s.pldm := rfl
@[simp] theorem State.emit_pldmTries (s : State) (o : Out) : (s.emit o).pldmTries = s.pldmTries := rfl
@[simp] theorem State.emit_keelQueue (s : State) (o : Out) : (s.emit o).keelQueue = s.keelQueue := rfl
@[simp] theorem State.emit_keel (s : State) (o : Out) : (s.emit o).keel = s.keel := rfl
@[simp] theorem State.emit_lh (s : State) (o : Out) : (s.emit o).lh = s.lh := rfl
@[simp] theorem State.emit_frame (s : State) (o : Out) : (s.emit o).frame = s.frame := rfl
@[simp] theorem State.emit_doms (s : State) (o : Out) : (s.emit o).doms = s.doms := rfl
@[simp] theorem State.emit_avs (s : State) (o : Out) : (s.emit o).avs = s.avs := rfl
@[simp] theorem State.emit_meter (s : State) (o : Out) : (s.emit o).meter = s.meter := rfl
@[simp] theorem State.emit_fuses (s : State) (o : Out) : (s.emit o).fuses = s.fuses := rfl
@[simp] theorem State.emit_boot (s : State) (o : Out) : (s.emit o).boot = s.boot := rfl
@[simp] theorem State.emit_ckp (s : State) (o : Out) : (s.emit o).ckp = s.ckp := rfl
@[simp] theorem State.emit_thermal (s : State) (o : Out) : (s.emit o).thermal = s.thermal := rfl
@[simp] theorem State.emit_refresh (s : State) (o : Out) : (s.emit o).refresh = s.refresh := rfl
@[simp] theorem State.emit_fac (s : State) (o : Out) : (s.emit o).fac = s.fac := rfl
@[simp] theorem State.emit_pil (s : State) (o : Out) : (s.emit o).pil = s.pil := rfl
@[simp] theorem State.emit_archs (s : State) (o : Out) : (s.emit o).archs = s.archs := rfl
@[simp] theorem State.emit_requests (s : State) (o : Out) : (s.emit o).requests = s.requests := rfl
@[simp] theorem State.emit_isles (s : State) (o : Out) : (s.emit o).isles = s.isles := rfl
@[simp] theorem State.emit_slices (s : State) (o : Out) : (s.emit o).slices = s.slices := rfl
@[simp] theorem State.emit_image (s : State) (o : Out) : (s.emit o).image = s.image := rfl
@[simp] theorem State.emit_staged (s : State) (o : Out) : (s.emit o).staged = s.staged := rfl
@[simp] theorem State.emit_imageAddr (s : State) (o : Out) : (s.emit o).imageAddr = s.imageAddr := rfl
@[simp] theorem State.emit_sched (s : State) (o : Out) : (s.emit o).sched = s.sched := rfl
@[simp] theorem State.emit_quays (s : State) (o : Out) : (s.emit o).quays = s.quays := rfl
@[simp] theorem State.emit_cycleOps (s : State) (o : Out) : (s.emit o).cycleOps = s.cycleOps := rfl
@[simp] theorem State.emit_cycleArms (s : State) (o : Out) : (s.emit o).cycleArms = s.cycleArms := rfl
@[simp] theorem State.emit_ports (s : State) (o : Out) : (s.emit o).ports = s.ports := rfl
@[simp] theorem State.emit_hif (s : State) (o : Out) : (s.emit o).hif = s.hif := rfl
@[simp] theorem State.emit_lagoon (s : State) (o : Out) : (s.emit o).lagoon = s.lagoon := rfl
@[simp] theorem State.emit_lagoonErr (s : State) (o : Out) : (s.emit o).lagoonErr = s.lagoonErr := rfl
@[simp] theorem State.emit_stored (s : State) (o : Out) : (s.emit o).stored = s.stored := rfl

/-! `State.setIsle`. -/
@[simp] theorem State.setIsle_pending (s : State) (i : Nat) (v : Isle) : (s.setIsle i v).pending = s.pending := rfl
@[simp] theorem State.setIsle_regs (s : State) (i : Nat) (v : Isle) : (s.setIsle i v).regs = s.regs := rfl
@[simp] theorem State.setIsle_pwrShadow (s : State) (i : Nat) (v : Isle) : (s.setIsle i v).pwrShadow = s.pwrShadow := rfl
@[simp] theorem State.setIsle_out (s : State) (i : Nat) (v : Isle) : (s.setIsle i v).out = s.out := rfl
@[simp] theorem State.setIsle_draws (s : State) (i : Nat) (v : Isle) : (s.setIsle i v).draws = s.draws := rfl
@[simp] theorem State.setIsle_log (s : State) (i : Nat) (v : Isle) : (s.setIsle i v).log = s.log := rfl
@[simp] theorem State.setIsle_pldm (s : State) (i : Nat) (v : Isle) : (s.setIsle i v).pldm = s.pldm := rfl
@[simp] theorem State.setIsle_pldmTries (s : State) (i : Nat) (v : Isle) : (s.setIsle i v).pldmTries = s.pldmTries := rfl
@[simp] theorem State.setIsle_keelQueue (s : State) (i : Nat) (v : Isle) : (s.setIsle i v).keelQueue = s.keelQueue := rfl
@[simp] theorem State.setIsle_keel (s : State) (i : Nat) (v : Isle) : (s.setIsle i v).keel = s.keel := rfl
@[simp] theorem State.setIsle_lh (s : State) (i : Nat) (v : Isle) : (s.setIsle i v).lh = s.lh := rfl
@[simp] theorem State.setIsle_frame (s : State) (i : Nat) (v : Isle) : (s.setIsle i v).frame = s.frame := rfl
@[simp] theorem State.setIsle_doms (s : State) (i : Nat) (v : Isle) : (s.setIsle i v).doms = s.doms := rfl
@[simp] theorem State.setIsle_avs (s : State) (i : Nat) (v : Isle) : (s.setIsle i v).avs = s.avs := rfl
@[simp] theorem State.setIsle_meter (s : State) (i : Nat) (v : Isle) : (s.setIsle i v).meter = s.meter := rfl
@[simp] theorem State.setIsle_fuses (s : State) (i : Nat) (v : Isle) : (s.setIsle i v).fuses = s.fuses := rfl
@[simp] theorem State.setIsle_boot (s : State) (i : Nat) (v : Isle) : (s.setIsle i v).boot = s.boot := rfl
@[simp] theorem State.setIsle_ckp (s : State) (i : Nat) (v : Isle) : (s.setIsle i v).ckp = s.ckp := rfl
@[simp] theorem State.setIsle_thermal (s : State) (i : Nat) (v : Isle) : (s.setIsle i v).thermal = s.thermal := rfl
@[simp] theorem State.setIsle_refresh (s : State) (i : Nat) (v : Isle) : (s.setIsle i v).refresh = s.refresh := rfl
@[simp] theorem State.setIsle_fac (s : State) (i : Nat) (v : Isle) : (s.setIsle i v).fac = s.fac := rfl
@[simp] theorem State.setIsle_pil (s : State) (i : Nat) (v : Isle) : (s.setIsle i v).pil = s.pil := rfl
@[simp] theorem State.setIsle_archs (s : State) (i : Nat) (v : Isle) : (s.setIsle i v).archs = s.archs := rfl
@[simp] theorem State.setIsle_requests (s : State) (i : Nat) (v : Isle) : (s.setIsle i v).requests = s.requests := rfl
@[simp] theorem State.setIsle_slices (s : State) (i : Nat) (v : Isle) : (s.setIsle i v).slices = s.slices := rfl
@[simp] theorem State.setIsle_image (s : State) (i : Nat) (v : Isle) : (s.setIsle i v).image = s.image := rfl
@[simp] theorem State.setIsle_staged (s : State) (i : Nat) (v : Isle) : (s.setIsle i v).staged = s.staged := rfl
@[simp] theorem State.setIsle_imageAddr (s : State) (i : Nat) (v : Isle) : (s.setIsle i v).imageAddr = s.imageAddr := rfl
@[simp] theorem State.setIsle_sched (s : State) (i : Nat) (v : Isle) : (s.setIsle i v).sched = s.sched := rfl
@[simp] theorem State.setIsle_quays (s : State) (i : Nat) (v : Isle) : (s.setIsle i v).quays = s.quays := rfl
@[simp] theorem State.setIsle_cycleOps (s : State) (i : Nat) (v : Isle) : (s.setIsle i v).cycleOps = s.cycleOps := rfl
@[simp] theorem State.setIsle_cycleArms (s : State) (i : Nat) (v : Isle) : (s.setIsle i v).cycleArms = s.cycleArms := rfl
@[simp] theorem State.setIsle_ports (s : State) (i : Nat) (v : Isle) : (s.setIsle i v).ports = s.ports := rfl
@[simp] theorem State.setIsle_hif (s : State) (i : Nat) (v : Isle) : (s.setIsle i v).hif = s.hif := rfl
@[simp] theorem State.setIsle_lagoon (s : State) (i : Nat) (v : Isle) : (s.setIsle i v).lagoon = s.lagoon := rfl
@[simp] theorem State.setIsle_lagoonErr (s : State) (i : Nat) (v : Isle) : (s.setIsle i v).lagoonErr = s.lagoonErr := rfl
@[simp] theorem State.setIsle_stored (s : State) (i : Nat) (v : Isle) : (s.setIsle i v).stored = s.stored := rfl

/-! `State.modIsle`. -/
@[simp] theorem State.modIsle_pending (s : State) (i : Nat) (g : Isle → Isle) : (s.modIsle i g).pending = s.pending := rfl
@[simp] theorem State.modIsle_regs (s : State) (i : Nat) (g : Isle → Isle) : (s.modIsle i g).regs = s.regs := rfl
@[simp] theorem State.modIsle_pwrShadow (s : State) (i : Nat) (g : Isle → Isle) : (s.modIsle i g).pwrShadow = s.pwrShadow := rfl
@[simp] theorem State.modIsle_out (s : State) (i : Nat) (g : Isle → Isle) : (s.modIsle i g).out = s.out := rfl
@[simp] theorem State.modIsle_draws (s : State) (i : Nat) (g : Isle → Isle) : (s.modIsle i g).draws = s.draws := rfl
@[simp] theorem State.modIsle_log (s : State) (i : Nat) (g : Isle → Isle) : (s.modIsle i g).log = s.log := rfl
@[simp] theorem State.modIsle_pldm (s : State) (i : Nat) (g : Isle → Isle) : (s.modIsle i g).pldm = s.pldm := rfl
@[simp] theorem State.modIsle_pldmTries (s : State) (i : Nat) (g : Isle → Isle) : (s.modIsle i g).pldmTries = s.pldmTries := rfl
@[simp] theorem State.modIsle_keelQueue (s : State) (i : Nat) (g : Isle → Isle) : (s.modIsle i g).keelQueue = s.keelQueue := rfl
@[simp] theorem State.modIsle_keel (s : State) (i : Nat) (g : Isle → Isle) : (s.modIsle i g).keel = s.keel := rfl
@[simp] theorem State.modIsle_lh (s : State) (i : Nat) (g : Isle → Isle) : (s.modIsle i g).lh = s.lh := rfl
@[simp] theorem State.modIsle_frame (s : State) (i : Nat) (g : Isle → Isle) : (s.modIsle i g).frame = s.frame := rfl
@[simp] theorem State.modIsle_doms (s : State) (i : Nat) (g : Isle → Isle) : (s.modIsle i g).doms = s.doms := rfl
@[simp] theorem State.modIsle_avs (s : State) (i : Nat) (g : Isle → Isle) : (s.modIsle i g).avs = s.avs := rfl
@[simp] theorem State.modIsle_meter (s : State) (i : Nat) (g : Isle → Isle) : (s.modIsle i g).meter = s.meter := rfl
@[simp] theorem State.modIsle_fuses (s : State) (i : Nat) (g : Isle → Isle) : (s.modIsle i g).fuses = s.fuses := rfl
@[simp] theorem State.modIsle_boot (s : State) (i : Nat) (g : Isle → Isle) : (s.modIsle i g).boot = s.boot := rfl
@[simp] theorem State.modIsle_ckp (s : State) (i : Nat) (g : Isle → Isle) : (s.modIsle i g).ckp = s.ckp := rfl
@[simp] theorem State.modIsle_thermal (s : State) (i : Nat) (g : Isle → Isle) : (s.modIsle i g).thermal = s.thermal := rfl
@[simp] theorem State.modIsle_refresh (s : State) (i : Nat) (g : Isle → Isle) : (s.modIsle i g).refresh = s.refresh := rfl
@[simp] theorem State.modIsle_fac (s : State) (i : Nat) (g : Isle → Isle) : (s.modIsle i g).fac = s.fac := rfl
@[simp] theorem State.modIsle_pil (s : State) (i : Nat) (g : Isle → Isle) : (s.modIsle i g).pil = s.pil := rfl
@[simp] theorem State.modIsle_archs (s : State) (i : Nat) (g : Isle → Isle) : (s.modIsle i g).archs = s.archs := rfl
@[simp] theorem State.modIsle_requests (s : State) (i : Nat) (g : Isle → Isle) : (s.modIsle i g).requests = s.requests := rfl
@[simp] theorem State.modIsle_slices (s : State) (i : Nat) (g : Isle → Isle) : (s.modIsle i g).slices = s.slices := rfl
@[simp] theorem State.modIsle_image (s : State) (i : Nat) (g : Isle → Isle) : (s.modIsle i g).image = s.image := rfl
@[simp] theorem State.modIsle_staged (s : State) (i : Nat) (g : Isle → Isle) : (s.modIsle i g).staged = s.staged := rfl
@[simp] theorem State.modIsle_imageAddr (s : State) (i : Nat) (g : Isle → Isle) : (s.modIsle i g).imageAddr = s.imageAddr := rfl
@[simp] theorem State.modIsle_sched (s : State) (i : Nat) (g : Isle → Isle) : (s.modIsle i g).sched = s.sched := rfl
@[simp] theorem State.modIsle_quays (s : State) (i : Nat) (g : Isle → Isle) : (s.modIsle i g).quays = s.quays := rfl
@[simp] theorem State.modIsle_cycleOps (s : State) (i : Nat) (g : Isle → Isle) : (s.modIsle i g).cycleOps = s.cycleOps := rfl
@[simp] theorem State.modIsle_cycleArms (s : State) (i : Nat) (g : Isle → Isle) : (s.modIsle i g).cycleArms = s.cycleArms := rfl
@[simp] theorem State.modIsle_ports (s : State) (i : Nat) (g : Isle → Isle) : (s.modIsle i g).ports = s.ports := rfl
@[simp] theorem State.modIsle_hif (s : State) (i : Nat) (g : Isle → Isle) : (s.modIsle i g).hif = s.hif := rfl
@[simp] theorem State.modIsle_lagoon (s : State) (i : Nat) (g : Isle → Isle) : (s.modIsle i g).lagoon = s.lagoon := rfl
@[simp] theorem State.modIsle_lagoonErr (s : State) (i : Nat) (g : Isle → Isle) : (s.modIsle i g).lagoonErr = s.lagoonErr := rfl
@[simp] theorem State.modIsle_stored (s : State) (i : Nat) (g : Isle → Isle) : (s.modIsle i g).stored = s.stored := rfl

/-! `State.setArch`. -/
@[simp] theorem State.setArch_pending (s : State) (a : Nat) (v : Arch) : (s.setArch a v).pending = s.pending := rfl
@[simp] theorem State.setArch_regs (s : State) (a : Nat) (v : Arch) : (s.setArch a v).regs = s.regs := rfl
@[simp] theorem State.setArch_pwrShadow (s : State) (a : Nat) (v : Arch) : (s.setArch a v).pwrShadow = s.pwrShadow := rfl
@[simp] theorem State.setArch_out (s : State) (a : Nat) (v : Arch) : (s.setArch a v).out = s.out := rfl
@[simp] theorem State.setArch_draws (s : State) (a : Nat) (v : Arch) : (s.setArch a v).draws = s.draws := rfl
@[simp] theorem State.setArch_log (s : State) (a : Nat) (v : Arch) : (s.setArch a v).log = s.log := rfl
@[simp] theorem State.setArch_pldm (s : State) (a : Nat) (v : Arch) : (s.setArch a v).pldm = s.pldm := rfl
@[simp] theorem State.setArch_pldmTries (s : State) (a : Nat) (v : Arch) : (s.setArch a v).pldmTries = s.pldmTries := rfl
@[simp] theorem State.setArch_keelQueue (s : State) (a : Nat) (v : Arch) : (s.setArch a v).keelQueue = s.keelQueue := rfl
@[simp] theorem State.setArch_keel (s : State) (a : Nat) (v : Arch) : (s.setArch a v).keel = s.keel := rfl
@[simp] theorem State.setArch_lh (s : State) (a : Nat) (v : Arch) : (s.setArch a v).lh = s.lh := rfl
@[simp] theorem State.setArch_frame (s : State) (a : Nat) (v : Arch) : (s.setArch a v).frame = s.frame := rfl
@[simp] theorem State.setArch_doms (s : State) (a : Nat) (v : Arch) : (s.setArch a v).doms = s.doms := rfl
@[simp] theorem State.setArch_avs (s : State) (a : Nat) (v : Arch) : (s.setArch a v).avs = s.avs := rfl
@[simp] theorem State.setArch_meter (s : State) (a : Nat) (v : Arch) : (s.setArch a v).meter = s.meter := rfl
@[simp] theorem State.setArch_fuses (s : State) (a : Nat) (v : Arch) : (s.setArch a v).fuses = s.fuses := rfl
@[simp] theorem State.setArch_boot (s : State) (a : Nat) (v : Arch) : (s.setArch a v).boot = s.boot := rfl
@[simp] theorem State.setArch_ckp (s : State) (a : Nat) (v : Arch) : (s.setArch a v).ckp = s.ckp := rfl
@[simp] theorem State.setArch_thermal (s : State) (a : Nat) (v : Arch) : (s.setArch a v).thermal = s.thermal := rfl
@[simp] theorem State.setArch_refresh (s : State) (a : Nat) (v : Arch) : (s.setArch a v).refresh = s.refresh := rfl
@[simp] theorem State.setArch_fac (s : State) (a : Nat) (v : Arch) : (s.setArch a v).fac = s.fac := rfl
@[simp] theorem State.setArch_pil (s : State) (a : Nat) (v : Arch) : (s.setArch a v).pil = s.pil := rfl
@[simp] theorem State.setArch_requests (s : State) (a : Nat) (v : Arch) : (s.setArch a v).requests = s.requests := rfl
@[simp] theorem State.setArch_isles (s : State) (a : Nat) (v : Arch) : (s.setArch a v).isles = s.isles := rfl
@[simp] theorem State.setArch_slices (s : State) (a : Nat) (v : Arch) : (s.setArch a v).slices = s.slices := rfl
@[simp] theorem State.setArch_image (s : State) (a : Nat) (v : Arch) : (s.setArch a v).image = s.image := rfl
@[simp] theorem State.setArch_staged (s : State) (a : Nat) (v : Arch) : (s.setArch a v).staged = s.staged := rfl
@[simp] theorem State.setArch_imageAddr (s : State) (a : Nat) (v : Arch) : (s.setArch a v).imageAddr = s.imageAddr := rfl
@[simp] theorem State.setArch_sched (s : State) (a : Nat) (v : Arch) : (s.setArch a v).sched = s.sched := rfl
@[simp] theorem State.setArch_quays (s : State) (a : Nat) (v : Arch) : (s.setArch a v).quays = s.quays := rfl
@[simp] theorem State.setArch_cycleOps (s : State) (a : Nat) (v : Arch) : (s.setArch a v).cycleOps = s.cycleOps := rfl
@[simp] theorem State.setArch_cycleArms (s : State) (a : Nat) (v : Arch) : (s.setArch a v).cycleArms = s.cycleArms := rfl
@[simp] theorem State.setArch_ports (s : State) (a : Nat) (v : Arch) : (s.setArch a v).ports = s.ports := rfl
@[simp] theorem State.setArch_hif (s : State) (a : Nat) (v : Arch) : (s.setArch a v).hif = s.hif := rfl
@[simp] theorem State.setArch_lagoon (s : State) (a : Nat) (v : Arch) : (s.setArch a v).lagoon = s.lagoon := rfl
@[simp] theorem State.setArch_lagoonErr (s : State) (a : Nat) (v : Arch) : (s.setArch a v).lagoonErr = s.lagoonErr := rfl
@[simp] theorem State.setArch_stored (s : State) (a : Nat) (v : Arch) : (s.setArch a v).stored = s.stored := rfl

/-! `State.modArch`. -/
@[simp] theorem State.modArch_pending (s : State) (a : Nat) (g : Arch → Arch) : (s.modArch a g).pending = s.pending := rfl
@[simp] theorem State.modArch_regs (s : State) (a : Nat) (g : Arch → Arch) : (s.modArch a g).regs = s.regs := rfl
@[simp] theorem State.modArch_pwrShadow (s : State) (a : Nat) (g : Arch → Arch) : (s.modArch a g).pwrShadow = s.pwrShadow := rfl
@[simp] theorem State.modArch_out (s : State) (a : Nat) (g : Arch → Arch) : (s.modArch a g).out = s.out := rfl
@[simp] theorem State.modArch_draws (s : State) (a : Nat) (g : Arch → Arch) : (s.modArch a g).draws = s.draws := rfl
@[simp] theorem State.modArch_log (s : State) (a : Nat) (g : Arch → Arch) : (s.modArch a g).log = s.log := rfl
@[simp] theorem State.modArch_pldm (s : State) (a : Nat) (g : Arch → Arch) : (s.modArch a g).pldm = s.pldm := rfl
@[simp] theorem State.modArch_pldmTries (s : State) (a : Nat) (g : Arch → Arch) : (s.modArch a g).pldmTries = s.pldmTries := rfl
@[simp] theorem State.modArch_keelQueue (s : State) (a : Nat) (g : Arch → Arch) : (s.modArch a g).keelQueue = s.keelQueue := rfl
@[simp] theorem State.modArch_keel (s : State) (a : Nat) (g : Arch → Arch) : (s.modArch a g).keel = s.keel := rfl
@[simp] theorem State.modArch_lh (s : State) (a : Nat) (g : Arch → Arch) : (s.modArch a g).lh = s.lh := rfl
@[simp] theorem State.modArch_frame (s : State) (a : Nat) (g : Arch → Arch) : (s.modArch a g).frame = s.frame := rfl
@[simp] theorem State.modArch_doms (s : State) (a : Nat) (g : Arch → Arch) : (s.modArch a g).doms = s.doms := rfl
@[simp] theorem State.modArch_avs (s : State) (a : Nat) (g : Arch → Arch) : (s.modArch a g).avs = s.avs := rfl
@[simp] theorem State.modArch_meter (s : State) (a : Nat) (g : Arch → Arch) : (s.modArch a g).meter = s.meter := rfl
@[simp] theorem State.modArch_fuses (s : State) (a : Nat) (g : Arch → Arch) : (s.modArch a g).fuses = s.fuses := rfl
@[simp] theorem State.modArch_boot (s : State) (a : Nat) (g : Arch → Arch) : (s.modArch a g).boot = s.boot := rfl
@[simp] theorem State.modArch_ckp (s : State) (a : Nat) (g : Arch → Arch) : (s.modArch a g).ckp = s.ckp := rfl
@[simp] theorem State.modArch_thermal (s : State) (a : Nat) (g : Arch → Arch) : (s.modArch a g).thermal = s.thermal := rfl
@[simp] theorem State.modArch_refresh (s : State) (a : Nat) (g : Arch → Arch) : (s.modArch a g).refresh = s.refresh := rfl
@[simp] theorem State.modArch_fac (s : State) (a : Nat) (g : Arch → Arch) : (s.modArch a g).fac = s.fac := rfl
@[simp] theorem State.modArch_pil (s : State) (a : Nat) (g : Arch → Arch) : (s.modArch a g).pil = s.pil := rfl
@[simp] theorem State.modArch_requests (s : State) (a : Nat) (g : Arch → Arch) : (s.modArch a g).requests = s.requests := rfl
@[simp] theorem State.modArch_isles (s : State) (a : Nat) (g : Arch → Arch) : (s.modArch a g).isles = s.isles := rfl
@[simp] theorem State.modArch_slices (s : State) (a : Nat) (g : Arch → Arch) : (s.modArch a g).slices = s.slices := rfl
@[simp] theorem State.modArch_image (s : State) (a : Nat) (g : Arch → Arch) : (s.modArch a g).image = s.image := rfl
@[simp] theorem State.modArch_staged (s : State) (a : Nat) (g : Arch → Arch) : (s.modArch a g).staged = s.staged := rfl
@[simp] theorem State.modArch_imageAddr (s : State) (a : Nat) (g : Arch → Arch) : (s.modArch a g).imageAddr = s.imageAddr := rfl
@[simp] theorem State.modArch_sched (s : State) (a : Nat) (g : Arch → Arch) : (s.modArch a g).sched = s.sched := rfl
@[simp] theorem State.modArch_quays (s : State) (a : Nat) (g : Arch → Arch) : (s.modArch a g).quays = s.quays := rfl
@[simp] theorem State.modArch_cycleOps (s : State) (a : Nat) (g : Arch → Arch) : (s.modArch a g).cycleOps = s.cycleOps := rfl
@[simp] theorem State.modArch_cycleArms (s : State) (a : Nat) (g : Arch → Arch) : (s.modArch a g).cycleArms = s.cycleArms := rfl
@[simp] theorem State.modArch_ports (s : State) (a : Nat) (g : Arch → Arch) : (s.modArch a g).ports = s.ports := rfl
@[simp] theorem State.modArch_hif (s : State) (a : Nat) (g : Arch → Arch) : (s.modArch a g).hif = s.hif := rfl
@[simp] theorem State.modArch_lagoon (s : State) (a : Nat) (g : Arch → Arch) : (s.modArch a g).lagoon = s.lagoon := rfl
@[simp] theorem State.modArch_lagoonErr (s : State) (a : Nat) (g : Arch → Arch) : (s.modArch a g).lagoonErr = s.lagoonErr := rfl
@[simp] theorem State.modArch_stored (s : State) (a : Nat) (g : Arch → Arch) : (s.modArch a g).stored = s.stored := rfl

/-! `State.setSlice`. -/
@[simp] theorem State.setSlice_pending (s : State) (i : Nat) (v : Slice) : (s.setSlice i v).pending = s.pending := rfl
@[simp] theorem State.setSlice_regs (s : State) (i : Nat) (v : Slice) : (s.setSlice i v).regs = s.regs := rfl
@[simp] theorem State.setSlice_pwrShadow (s : State) (i : Nat) (v : Slice) : (s.setSlice i v).pwrShadow = s.pwrShadow := rfl
@[simp] theorem State.setSlice_out (s : State) (i : Nat) (v : Slice) : (s.setSlice i v).out = s.out := rfl
@[simp] theorem State.setSlice_draws (s : State) (i : Nat) (v : Slice) : (s.setSlice i v).draws = s.draws := rfl
@[simp] theorem State.setSlice_log (s : State) (i : Nat) (v : Slice) : (s.setSlice i v).log = s.log := rfl
@[simp] theorem State.setSlice_pldm (s : State) (i : Nat) (v : Slice) : (s.setSlice i v).pldm = s.pldm := rfl
@[simp] theorem State.setSlice_pldmTries (s : State) (i : Nat) (v : Slice) : (s.setSlice i v).pldmTries = s.pldmTries := rfl
@[simp] theorem State.setSlice_keelQueue (s : State) (i : Nat) (v : Slice) : (s.setSlice i v).keelQueue = s.keelQueue := rfl
@[simp] theorem State.setSlice_keel (s : State) (i : Nat) (v : Slice) : (s.setSlice i v).keel = s.keel := rfl
@[simp] theorem State.setSlice_lh (s : State) (i : Nat) (v : Slice) : (s.setSlice i v).lh = s.lh := rfl
@[simp] theorem State.setSlice_frame (s : State) (i : Nat) (v : Slice) : (s.setSlice i v).frame = s.frame := rfl
@[simp] theorem State.setSlice_doms (s : State) (i : Nat) (v : Slice) : (s.setSlice i v).doms = s.doms := rfl
@[simp] theorem State.setSlice_avs (s : State) (i : Nat) (v : Slice) : (s.setSlice i v).avs = s.avs := rfl
@[simp] theorem State.setSlice_meter (s : State) (i : Nat) (v : Slice) : (s.setSlice i v).meter = s.meter := rfl
@[simp] theorem State.setSlice_fuses (s : State) (i : Nat) (v : Slice) : (s.setSlice i v).fuses = s.fuses := rfl
@[simp] theorem State.setSlice_boot (s : State) (i : Nat) (v : Slice) : (s.setSlice i v).boot = s.boot := rfl
@[simp] theorem State.setSlice_ckp (s : State) (i : Nat) (v : Slice) : (s.setSlice i v).ckp = s.ckp := rfl
@[simp] theorem State.setSlice_thermal (s : State) (i : Nat) (v : Slice) : (s.setSlice i v).thermal = s.thermal := rfl
@[simp] theorem State.setSlice_refresh (s : State) (i : Nat) (v : Slice) : (s.setSlice i v).refresh = s.refresh := rfl
@[simp] theorem State.setSlice_fac (s : State) (i : Nat) (v : Slice) : (s.setSlice i v).fac = s.fac := rfl
@[simp] theorem State.setSlice_pil (s : State) (i : Nat) (v : Slice) : (s.setSlice i v).pil = s.pil := rfl
@[simp] theorem State.setSlice_archs (s : State) (i : Nat) (v : Slice) : (s.setSlice i v).archs = s.archs := rfl
@[simp] theorem State.setSlice_requests (s : State) (i : Nat) (v : Slice) : (s.setSlice i v).requests = s.requests := rfl
@[simp] theorem State.setSlice_isles (s : State) (i : Nat) (v : Slice) : (s.setSlice i v).isles = s.isles := rfl
@[simp] theorem State.setSlice_image (s : State) (i : Nat) (v : Slice) : (s.setSlice i v).image = s.image := rfl
@[simp] theorem State.setSlice_staged (s : State) (i : Nat) (v : Slice) : (s.setSlice i v).staged = s.staged := rfl
@[simp] theorem State.setSlice_imageAddr (s : State) (i : Nat) (v : Slice) : (s.setSlice i v).imageAddr = s.imageAddr := rfl
@[simp] theorem State.setSlice_sched (s : State) (i : Nat) (v : Slice) : (s.setSlice i v).sched = s.sched := rfl
@[simp] theorem State.setSlice_quays (s : State) (i : Nat) (v : Slice) : (s.setSlice i v).quays = s.quays := rfl
@[simp] theorem State.setSlice_cycleOps (s : State) (i : Nat) (v : Slice) : (s.setSlice i v).cycleOps = s.cycleOps := rfl
@[simp] theorem State.setSlice_cycleArms (s : State) (i : Nat) (v : Slice) : (s.setSlice i v).cycleArms = s.cycleArms := rfl
@[simp] theorem State.setSlice_ports (s : State) (i : Nat) (v : Slice) : (s.setSlice i v).ports = s.ports := rfl
@[simp] theorem State.setSlice_hif (s : State) (i : Nat) (v : Slice) : (s.setSlice i v).hif = s.hif := rfl
@[simp] theorem State.setSlice_lagoon (s : State) (i : Nat) (v : Slice) : (s.setSlice i v).lagoon = s.lagoon := rfl
@[simp] theorem State.setSlice_lagoonErr (s : State) (i : Nat) (v : Slice) : (s.setSlice i v).lagoonErr = s.lagoonErr := rfl
@[simp] theorem State.setSlice_stored (s : State) (i : Nat) (v : Slice) : (s.setSlice i v).stored = s.stored := rfl

/-! `State.modSlice`. -/
@[simp] theorem State.modSlice_pending (s : State) (i : Nat) (g : Slice → Slice) : (s.modSlice i g).pending = s.pending := rfl
@[simp] theorem State.modSlice_regs (s : State) (i : Nat) (g : Slice → Slice) : (s.modSlice i g).regs = s.regs := rfl
@[simp] theorem State.modSlice_pwrShadow (s : State) (i : Nat) (g : Slice → Slice) : (s.modSlice i g).pwrShadow = s.pwrShadow := rfl
@[simp] theorem State.modSlice_out (s : State) (i : Nat) (g : Slice → Slice) : (s.modSlice i g).out = s.out := rfl
@[simp] theorem State.modSlice_draws (s : State) (i : Nat) (g : Slice → Slice) : (s.modSlice i g).draws = s.draws := rfl
@[simp] theorem State.modSlice_log (s : State) (i : Nat) (g : Slice → Slice) : (s.modSlice i g).log = s.log := rfl
@[simp] theorem State.modSlice_pldm (s : State) (i : Nat) (g : Slice → Slice) : (s.modSlice i g).pldm = s.pldm := rfl
@[simp] theorem State.modSlice_pldmTries (s : State) (i : Nat) (g : Slice → Slice) : (s.modSlice i g).pldmTries = s.pldmTries := rfl
@[simp] theorem State.modSlice_keelQueue (s : State) (i : Nat) (g : Slice → Slice) : (s.modSlice i g).keelQueue = s.keelQueue := rfl
@[simp] theorem State.modSlice_keel (s : State) (i : Nat) (g : Slice → Slice) : (s.modSlice i g).keel = s.keel := rfl
@[simp] theorem State.modSlice_lh (s : State) (i : Nat) (g : Slice → Slice) : (s.modSlice i g).lh = s.lh := rfl
@[simp] theorem State.modSlice_frame (s : State) (i : Nat) (g : Slice → Slice) : (s.modSlice i g).frame = s.frame := rfl
@[simp] theorem State.modSlice_doms (s : State) (i : Nat) (g : Slice → Slice) : (s.modSlice i g).doms = s.doms := rfl
@[simp] theorem State.modSlice_avs (s : State) (i : Nat) (g : Slice → Slice) : (s.modSlice i g).avs = s.avs := rfl
@[simp] theorem State.modSlice_meter (s : State) (i : Nat) (g : Slice → Slice) : (s.modSlice i g).meter = s.meter := rfl
@[simp] theorem State.modSlice_fuses (s : State) (i : Nat) (g : Slice → Slice) : (s.modSlice i g).fuses = s.fuses := rfl
@[simp] theorem State.modSlice_boot (s : State) (i : Nat) (g : Slice → Slice) : (s.modSlice i g).boot = s.boot := rfl
@[simp] theorem State.modSlice_ckp (s : State) (i : Nat) (g : Slice → Slice) : (s.modSlice i g).ckp = s.ckp := rfl
@[simp] theorem State.modSlice_thermal (s : State) (i : Nat) (g : Slice → Slice) : (s.modSlice i g).thermal = s.thermal := rfl
@[simp] theorem State.modSlice_refresh (s : State) (i : Nat) (g : Slice → Slice) : (s.modSlice i g).refresh = s.refresh := rfl
@[simp] theorem State.modSlice_fac (s : State) (i : Nat) (g : Slice → Slice) : (s.modSlice i g).fac = s.fac := rfl
@[simp] theorem State.modSlice_pil (s : State) (i : Nat) (g : Slice → Slice) : (s.modSlice i g).pil = s.pil := rfl
@[simp] theorem State.modSlice_archs (s : State) (i : Nat) (g : Slice → Slice) : (s.modSlice i g).archs = s.archs := rfl
@[simp] theorem State.modSlice_requests (s : State) (i : Nat) (g : Slice → Slice) : (s.modSlice i g).requests = s.requests := rfl
@[simp] theorem State.modSlice_isles (s : State) (i : Nat) (g : Slice → Slice) : (s.modSlice i g).isles = s.isles := rfl
@[simp] theorem State.modSlice_image (s : State) (i : Nat) (g : Slice → Slice) : (s.modSlice i g).image = s.image := rfl
@[simp] theorem State.modSlice_staged (s : State) (i : Nat) (g : Slice → Slice) : (s.modSlice i g).staged = s.staged := rfl
@[simp] theorem State.modSlice_imageAddr (s : State) (i : Nat) (g : Slice → Slice) : (s.modSlice i g).imageAddr = s.imageAddr := rfl
@[simp] theorem State.modSlice_sched (s : State) (i : Nat) (g : Slice → Slice) : (s.modSlice i g).sched = s.sched := rfl
@[simp] theorem State.modSlice_quays (s : State) (i : Nat) (g : Slice → Slice) : (s.modSlice i g).quays = s.quays := rfl
@[simp] theorem State.modSlice_cycleOps (s : State) (i : Nat) (g : Slice → Slice) : (s.modSlice i g).cycleOps = s.cycleOps := rfl
@[simp] theorem State.modSlice_cycleArms (s : State) (i : Nat) (g : Slice → Slice) : (s.modSlice i g).cycleArms = s.cycleArms := rfl
@[simp] theorem State.modSlice_ports (s : State) (i : Nat) (g : Slice → Slice) : (s.modSlice i g).ports = s.ports := rfl
@[simp] theorem State.modSlice_hif (s : State) (i : Nat) (g : Slice → Slice) : (s.modSlice i g).hif = s.hif := rfl
@[simp] theorem State.modSlice_lagoon (s : State) (i : Nat) (g : Slice → Slice) : (s.modSlice i g).lagoon = s.lagoon := rfl
@[simp] theorem State.modSlice_lagoonErr (s : State) (i : Nat) (g : Slice → Slice) : (s.modSlice i g).lagoonErr = s.lagoonErr := rfl
@[simp] theorem State.modSlice_stored (s : State) (i : Nat) (g : Slice → Slice) : (s.modSlice i g).stored = s.stored := rfl

/-! `State.setDom`. -/
@[simp] theorem State.setDom_pending (s : State) (d : Nat) (v : Dom) : (s.setDom d v).pending = s.pending := rfl
@[simp] theorem State.setDom_regs (s : State) (d : Nat) (v : Dom) : (s.setDom d v).regs = s.regs := rfl
@[simp] theorem State.setDom_pwrShadow (s : State) (d : Nat) (v : Dom) : (s.setDom d v).pwrShadow = s.pwrShadow := rfl
@[simp] theorem State.setDom_out (s : State) (d : Nat) (v : Dom) : (s.setDom d v).out = s.out := rfl
@[simp] theorem State.setDom_draws (s : State) (d : Nat) (v : Dom) : (s.setDom d v).draws = s.draws := rfl
@[simp] theorem State.setDom_log (s : State) (d : Nat) (v : Dom) : (s.setDom d v).log = s.log := rfl
@[simp] theorem State.setDom_pldm (s : State) (d : Nat) (v : Dom) : (s.setDom d v).pldm = s.pldm := rfl
@[simp] theorem State.setDom_pldmTries (s : State) (d : Nat) (v : Dom) : (s.setDom d v).pldmTries = s.pldmTries := rfl
@[simp] theorem State.setDom_keelQueue (s : State) (d : Nat) (v : Dom) : (s.setDom d v).keelQueue = s.keelQueue := rfl
@[simp] theorem State.setDom_keel (s : State) (d : Nat) (v : Dom) : (s.setDom d v).keel = s.keel := rfl
@[simp] theorem State.setDom_lh (s : State) (d : Nat) (v : Dom) : (s.setDom d v).lh = s.lh := rfl
@[simp] theorem State.setDom_frame (s : State) (d : Nat) (v : Dom) : (s.setDom d v).frame = s.frame := rfl
@[simp] theorem State.setDom_avs (s : State) (d : Nat) (v : Dom) : (s.setDom d v).avs = s.avs := rfl
@[simp] theorem State.setDom_meter (s : State) (d : Nat) (v : Dom) : (s.setDom d v).meter = s.meter := rfl
@[simp] theorem State.setDom_fuses (s : State) (d : Nat) (v : Dom) : (s.setDom d v).fuses = s.fuses := rfl
@[simp] theorem State.setDom_boot (s : State) (d : Nat) (v : Dom) : (s.setDom d v).boot = s.boot := rfl
@[simp] theorem State.setDom_ckp (s : State) (d : Nat) (v : Dom) : (s.setDom d v).ckp = s.ckp := rfl
@[simp] theorem State.setDom_thermal (s : State) (d : Nat) (v : Dom) : (s.setDom d v).thermal = s.thermal := rfl
@[simp] theorem State.setDom_refresh (s : State) (d : Nat) (v : Dom) : (s.setDom d v).refresh = s.refresh := rfl
@[simp] theorem State.setDom_fac (s : State) (d : Nat) (v : Dom) : (s.setDom d v).fac = s.fac := rfl
@[simp] theorem State.setDom_pil (s : State) (d : Nat) (v : Dom) : (s.setDom d v).pil = s.pil := rfl
@[simp] theorem State.setDom_archs (s : State) (d : Nat) (v : Dom) : (s.setDom d v).archs = s.archs := rfl
@[simp] theorem State.setDom_requests (s : State) (d : Nat) (v : Dom) : (s.setDom d v).requests = s.requests := rfl
@[simp] theorem State.setDom_isles (s : State) (d : Nat) (v : Dom) : (s.setDom d v).isles = s.isles := rfl
@[simp] theorem State.setDom_slices (s : State) (d : Nat) (v : Dom) : (s.setDom d v).slices = s.slices := rfl
@[simp] theorem State.setDom_image (s : State) (d : Nat) (v : Dom) : (s.setDom d v).image = s.image := rfl
@[simp] theorem State.setDom_staged (s : State) (d : Nat) (v : Dom) : (s.setDom d v).staged = s.staged := rfl
@[simp] theorem State.setDom_imageAddr (s : State) (d : Nat) (v : Dom) : (s.setDom d v).imageAddr = s.imageAddr := rfl
@[simp] theorem State.setDom_sched (s : State) (d : Nat) (v : Dom) : (s.setDom d v).sched = s.sched := rfl
@[simp] theorem State.setDom_quays (s : State) (d : Nat) (v : Dom) : (s.setDom d v).quays = s.quays := rfl
@[simp] theorem State.setDom_cycleOps (s : State) (d : Nat) (v : Dom) : (s.setDom d v).cycleOps = s.cycleOps := rfl
@[simp] theorem State.setDom_cycleArms (s : State) (d : Nat) (v : Dom) : (s.setDom d v).cycleArms = s.cycleArms := rfl
@[simp] theorem State.setDom_ports (s : State) (d : Nat) (v : Dom) : (s.setDom d v).ports = s.ports := rfl
@[simp] theorem State.setDom_hif (s : State) (d : Nat) (v : Dom) : (s.setDom d v).hif = s.hif := rfl
@[simp] theorem State.setDom_lagoon (s : State) (d : Nat) (v : Dom) : (s.setDom d v).lagoon = s.lagoon := rfl
@[simp] theorem State.setDom_lagoonErr (s : State) (d : Nat) (v : Dom) : (s.setDom d v).lagoonErr = s.lagoonErr := rfl
@[simp] theorem State.setDom_stored (s : State) (d : Nat) (v : Dom) : (s.setDom d v).stored = s.stored := rfl

/-! `State.modDom`. -/
@[simp] theorem State.modDom_pending (s : State) (d : Nat) (g : Dom → Dom) : (s.modDom d g).pending = s.pending := rfl
@[simp] theorem State.modDom_regs (s : State) (d : Nat) (g : Dom → Dom) : (s.modDom d g).regs = s.regs := rfl
@[simp] theorem State.modDom_pwrShadow (s : State) (d : Nat) (g : Dom → Dom) : (s.modDom d g).pwrShadow = s.pwrShadow := rfl
@[simp] theorem State.modDom_out (s : State) (d : Nat) (g : Dom → Dom) : (s.modDom d g).out = s.out := rfl
@[simp] theorem State.modDom_draws (s : State) (d : Nat) (g : Dom → Dom) : (s.modDom d g).draws = s.draws := rfl
@[simp] theorem State.modDom_log (s : State) (d : Nat) (g : Dom → Dom) : (s.modDom d g).log = s.log := rfl
@[simp] theorem State.modDom_pldm (s : State) (d : Nat) (g : Dom → Dom) : (s.modDom d g).pldm = s.pldm := rfl
@[simp] theorem State.modDom_pldmTries (s : State) (d : Nat) (g : Dom → Dom) : (s.modDom d g).pldmTries = s.pldmTries := rfl
@[simp] theorem State.modDom_keelQueue (s : State) (d : Nat) (g : Dom → Dom) : (s.modDom d g).keelQueue = s.keelQueue := rfl
@[simp] theorem State.modDom_keel (s : State) (d : Nat) (g : Dom → Dom) : (s.modDom d g).keel = s.keel := rfl
@[simp] theorem State.modDom_lh (s : State) (d : Nat) (g : Dom → Dom) : (s.modDom d g).lh = s.lh := rfl
@[simp] theorem State.modDom_frame (s : State) (d : Nat) (g : Dom → Dom) : (s.modDom d g).frame = s.frame := rfl
@[simp] theorem State.modDom_avs (s : State) (d : Nat) (g : Dom → Dom) : (s.modDom d g).avs = s.avs := rfl
@[simp] theorem State.modDom_meter (s : State) (d : Nat) (g : Dom → Dom) : (s.modDom d g).meter = s.meter := rfl
@[simp] theorem State.modDom_fuses (s : State) (d : Nat) (g : Dom → Dom) : (s.modDom d g).fuses = s.fuses := rfl
@[simp] theorem State.modDom_boot (s : State) (d : Nat) (g : Dom → Dom) : (s.modDom d g).boot = s.boot := rfl
@[simp] theorem State.modDom_ckp (s : State) (d : Nat) (g : Dom → Dom) : (s.modDom d g).ckp = s.ckp := rfl
@[simp] theorem State.modDom_thermal (s : State) (d : Nat) (g : Dom → Dom) : (s.modDom d g).thermal = s.thermal := rfl
@[simp] theorem State.modDom_refresh (s : State) (d : Nat) (g : Dom → Dom) : (s.modDom d g).refresh = s.refresh := rfl
@[simp] theorem State.modDom_fac (s : State) (d : Nat) (g : Dom → Dom) : (s.modDom d g).fac = s.fac := rfl
@[simp] theorem State.modDom_pil (s : State) (d : Nat) (g : Dom → Dom) : (s.modDom d g).pil = s.pil := rfl
@[simp] theorem State.modDom_archs (s : State) (d : Nat) (g : Dom → Dom) : (s.modDom d g).archs = s.archs := rfl
@[simp] theorem State.modDom_requests (s : State) (d : Nat) (g : Dom → Dom) : (s.modDom d g).requests = s.requests := rfl
@[simp] theorem State.modDom_isles (s : State) (d : Nat) (g : Dom → Dom) : (s.modDom d g).isles = s.isles := rfl
@[simp] theorem State.modDom_slices (s : State) (d : Nat) (g : Dom → Dom) : (s.modDom d g).slices = s.slices := rfl
@[simp] theorem State.modDom_image (s : State) (d : Nat) (g : Dom → Dom) : (s.modDom d g).image = s.image := rfl
@[simp] theorem State.modDom_staged (s : State) (d : Nat) (g : Dom → Dom) : (s.modDom d g).staged = s.staged := rfl
@[simp] theorem State.modDom_imageAddr (s : State) (d : Nat) (g : Dom → Dom) : (s.modDom d g).imageAddr = s.imageAddr := rfl
@[simp] theorem State.modDom_sched (s : State) (d : Nat) (g : Dom → Dom) : (s.modDom d g).sched = s.sched := rfl
@[simp] theorem State.modDom_quays (s : State) (d : Nat) (g : Dom → Dom) : (s.modDom d g).quays = s.quays := rfl
@[simp] theorem State.modDom_cycleOps (s : State) (d : Nat) (g : Dom → Dom) : (s.modDom d g).cycleOps = s.cycleOps := rfl
@[simp] theorem State.modDom_cycleArms (s : State) (d : Nat) (g : Dom → Dom) : (s.modDom d g).cycleArms = s.cycleArms := rfl
@[simp] theorem State.modDom_ports (s : State) (d : Nat) (g : Dom → Dom) : (s.modDom d g).ports = s.ports := rfl
@[simp] theorem State.modDom_hif (s : State) (d : Nat) (g : Dom → Dom) : (s.modDom d g).hif = s.hif := rfl
@[simp] theorem State.modDom_lagoon (s : State) (d : Nat) (g : Dom → Dom) : (s.modDom d g).lagoon = s.lagoon := rfl
@[simp] theorem State.modDom_lagoonErr (s : State) (d : Nat) (g : Dom → Dom) : (s.modDom d g).lagoonErr = s.lagoonErr := rfl
@[simp] theorem State.modDom_stored (s : State) (d : Nat) (g : Dom → Dom) : (s.modDom d g).stored = s.stored := rfl

/-! `State.setPort`. -/
@[simp] theorem State.setPort_pending (s : State) (p : Nat) (v : Port) : (s.setPort p v).pending = s.pending := rfl
@[simp] theorem State.setPort_regs (s : State) (p : Nat) (v : Port) : (s.setPort p v).regs = s.regs := rfl
@[simp] theorem State.setPort_pwrShadow (s : State) (p : Nat) (v : Port) : (s.setPort p v).pwrShadow = s.pwrShadow := rfl
@[simp] theorem State.setPort_out (s : State) (p : Nat) (v : Port) : (s.setPort p v).out = s.out := rfl
@[simp] theorem State.setPort_draws (s : State) (p : Nat) (v : Port) : (s.setPort p v).draws = s.draws := rfl
@[simp] theorem State.setPort_log (s : State) (p : Nat) (v : Port) : (s.setPort p v).log = s.log := rfl
@[simp] theorem State.setPort_pldm (s : State) (p : Nat) (v : Port) : (s.setPort p v).pldm = s.pldm := rfl
@[simp] theorem State.setPort_pldmTries (s : State) (p : Nat) (v : Port) : (s.setPort p v).pldmTries = s.pldmTries := rfl
@[simp] theorem State.setPort_keelQueue (s : State) (p : Nat) (v : Port) : (s.setPort p v).keelQueue = s.keelQueue := rfl
@[simp] theorem State.setPort_keel (s : State) (p : Nat) (v : Port) : (s.setPort p v).keel = s.keel := rfl
@[simp] theorem State.setPort_lh (s : State) (p : Nat) (v : Port) : (s.setPort p v).lh = s.lh := rfl
@[simp] theorem State.setPort_frame (s : State) (p : Nat) (v : Port) : (s.setPort p v).frame = s.frame := rfl
@[simp] theorem State.setPort_doms (s : State) (p : Nat) (v : Port) : (s.setPort p v).doms = s.doms := rfl
@[simp] theorem State.setPort_avs (s : State) (p : Nat) (v : Port) : (s.setPort p v).avs = s.avs := rfl
@[simp] theorem State.setPort_meter (s : State) (p : Nat) (v : Port) : (s.setPort p v).meter = s.meter := rfl
@[simp] theorem State.setPort_fuses (s : State) (p : Nat) (v : Port) : (s.setPort p v).fuses = s.fuses := rfl
@[simp] theorem State.setPort_boot (s : State) (p : Nat) (v : Port) : (s.setPort p v).boot = s.boot := rfl
@[simp] theorem State.setPort_ckp (s : State) (p : Nat) (v : Port) : (s.setPort p v).ckp = s.ckp := rfl
@[simp] theorem State.setPort_thermal (s : State) (p : Nat) (v : Port) : (s.setPort p v).thermal = s.thermal := rfl
@[simp] theorem State.setPort_refresh (s : State) (p : Nat) (v : Port) : (s.setPort p v).refresh = s.refresh := rfl
@[simp] theorem State.setPort_fac (s : State) (p : Nat) (v : Port) : (s.setPort p v).fac = s.fac := rfl
@[simp] theorem State.setPort_pil (s : State) (p : Nat) (v : Port) : (s.setPort p v).pil = s.pil := rfl
@[simp] theorem State.setPort_archs (s : State) (p : Nat) (v : Port) : (s.setPort p v).archs = s.archs := rfl
@[simp] theorem State.setPort_requests (s : State) (p : Nat) (v : Port) : (s.setPort p v).requests = s.requests := rfl
@[simp] theorem State.setPort_isles (s : State) (p : Nat) (v : Port) : (s.setPort p v).isles = s.isles := rfl
@[simp] theorem State.setPort_slices (s : State) (p : Nat) (v : Port) : (s.setPort p v).slices = s.slices := rfl
@[simp] theorem State.setPort_image (s : State) (p : Nat) (v : Port) : (s.setPort p v).image = s.image := rfl
@[simp] theorem State.setPort_staged (s : State) (p : Nat) (v : Port) : (s.setPort p v).staged = s.staged := rfl
@[simp] theorem State.setPort_imageAddr (s : State) (p : Nat) (v : Port) : (s.setPort p v).imageAddr = s.imageAddr := rfl
@[simp] theorem State.setPort_sched (s : State) (p : Nat) (v : Port) : (s.setPort p v).sched = s.sched := rfl
@[simp] theorem State.setPort_quays (s : State) (p : Nat) (v : Port) : (s.setPort p v).quays = s.quays := rfl
@[simp] theorem State.setPort_cycleOps (s : State) (p : Nat) (v : Port) : (s.setPort p v).cycleOps = s.cycleOps := rfl
@[simp] theorem State.setPort_cycleArms (s : State) (p : Nat) (v : Port) : (s.setPort p v).cycleArms = s.cycleArms := rfl
@[simp] theorem State.setPort_hif (s : State) (p : Nat) (v : Port) : (s.setPort p v).hif = s.hif := rfl
@[simp] theorem State.setPort_lagoon (s : State) (p : Nat) (v : Port) : (s.setPort p v).lagoon = s.lagoon := rfl
@[simp] theorem State.setPort_lagoonErr (s : State) (p : Nat) (v : Port) : (s.setPort p v).lagoonErr = s.lagoonErr := rfl
@[simp] theorem State.setPort_stored (s : State) (p : Nat) (v : Port) : (s.setPort p v).stored = s.stored := rfl

/-! `State.modPort`. -/
@[simp] theorem State.modPort_pending (s : State) (p : Nat) (g : Port → Port) : (s.modPort p g).pending = s.pending := rfl
@[simp] theorem State.modPort_regs (s : State) (p : Nat) (g : Port → Port) : (s.modPort p g).regs = s.regs := rfl
@[simp] theorem State.modPort_pwrShadow (s : State) (p : Nat) (g : Port → Port) : (s.modPort p g).pwrShadow = s.pwrShadow := rfl
@[simp] theorem State.modPort_out (s : State) (p : Nat) (g : Port → Port) : (s.modPort p g).out = s.out := rfl
@[simp] theorem State.modPort_draws (s : State) (p : Nat) (g : Port → Port) : (s.modPort p g).draws = s.draws := rfl
@[simp] theorem State.modPort_log (s : State) (p : Nat) (g : Port → Port) : (s.modPort p g).log = s.log := rfl
@[simp] theorem State.modPort_pldm (s : State) (p : Nat) (g : Port → Port) : (s.modPort p g).pldm = s.pldm := rfl
@[simp] theorem State.modPort_pldmTries (s : State) (p : Nat) (g : Port → Port) : (s.modPort p g).pldmTries = s.pldmTries := rfl
@[simp] theorem State.modPort_keelQueue (s : State) (p : Nat) (g : Port → Port) : (s.modPort p g).keelQueue = s.keelQueue := rfl
@[simp] theorem State.modPort_keel (s : State) (p : Nat) (g : Port → Port) : (s.modPort p g).keel = s.keel := rfl
@[simp] theorem State.modPort_lh (s : State) (p : Nat) (g : Port → Port) : (s.modPort p g).lh = s.lh := rfl
@[simp] theorem State.modPort_frame (s : State) (p : Nat) (g : Port → Port) : (s.modPort p g).frame = s.frame := rfl
@[simp] theorem State.modPort_doms (s : State) (p : Nat) (g : Port → Port) : (s.modPort p g).doms = s.doms := rfl
@[simp] theorem State.modPort_avs (s : State) (p : Nat) (g : Port → Port) : (s.modPort p g).avs = s.avs := rfl
@[simp] theorem State.modPort_meter (s : State) (p : Nat) (g : Port → Port) : (s.modPort p g).meter = s.meter := rfl
@[simp] theorem State.modPort_fuses (s : State) (p : Nat) (g : Port → Port) : (s.modPort p g).fuses = s.fuses := rfl
@[simp] theorem State.modPort_boot (s : State) (p : Nat) (g : Port → Port) : (s.modPort p g).boot = s.boot := rfl
@[simp] theorem State.modPort_ckp (s : State) (p : Nat) (g : Port → Port) : (s.modPort p g).ckp = s.ckp := rfl
@[simp] theorem State.modPort_thermal (s : State) (p : Nat) (g : Port → Port) : (s.modPort p g).thermal = s.thermal := rfl
@[simp] theorem State.modPort_refresh (s : State) (p : Nat) (g : Port → Port) : (s.modPort p g).refresh = s.refresh := rfl
@[simp] theorem State.modPort_fac (s : State) (p : Nat) (g : Port → Port) : (s.modPort p g).fac = s.fac := rfl
@[simp] theorem State.modPort_pil (s : State) (p : Nat) (g : Port → Port) : (s.modPort p g).pil = s.pil := rfl
@[simp] theorem State.modPort_archs (s : State) (p : Nat) (g : Port → Port) : (s.modPort p g).archs = s.archs := rfl
@[simp] theorem State.modPort_requests (s : State) (p : Nat) (g : Port → Port) : (s.modPort p g).requests = s.requests := rfl
@[simp] theorem State.modPort_isles (s : State) (p : Nat) (g : Port → Port) : (s.modPort p g).isles = s.isles := rfl
@[simp] theorem State.modPort_slices (s : State) (p : Nat) (g : Port → Port) : (s.modPort p g).slices = s.slices := rfl
@[simp] theorem State.modPort_image (s : State) (p : Nat) (g : Port → Port) : (s.modPort p g).image = s.image := rfl
@[simp] theorem State.modPort_staged (s : State) (p : Nat) (g : Port → Port) : (s.modPort p g).staged = s.staged := rfl
@[simp] theorem State.modPort_imageAddr (s : State) (p : Nat) (g : Port → Port) : (s.modPort p g).imageAddr = s.imageAddr := rfl
@[simp] theorem State.modPort_sched (s : State) (p : Nat) (g : Port → Port) : (s.modPort p g).sched = s.sched := rfl
@[simp] theorem State.modPort_quays (s : State) (p : Nat) (g : Port → Port) : (s.modPort p g).quays = s.quays := rfl
@[simp] theorem State.modPort_cycleOps (s : State) (p : Nat) (g : Port → Port) : (s.modPort p g).cycleOps = s.cycleOps := rfl
@[simp] theorem State.modPort_cycleArms (s : State) (p : Nat) (g : Port → Port) : (s.modPort p g).cycleArms = s.cycleArms := rfl
@[simp] theorem State.modPort_hif (s : State) (p : Nat) (g : Port → Port) : (s.modPort p g).hif = s.hif := rfl
@[simp] theorem State.modPort_lagoon (s : State) (p : Nat) (g : Port → Port) : (s.modPort p g).lagoon = s.lagoon := rfl
@[simp] theorem State.modPort_lagoonErr (s : State) (p : Nat) (g : Port → Port) : (s.modPort p g).lagoonErr = s.lagoonErr := rfl
@[simp] theorem State.modPort_stored (s : State) (p : Nat) (g : Port → Port) : (s.modPort p g).stored = s.stored := rfl

/-! `State.setQuay`. -/
@[simp] theorem State.setQuay_pending (s : State) (q : Nat) (v : Quay) : (s.setQuay q v).pending = s.pending := rfl
@[simp] theorem State.setQuay_regs (s : State) (q : Nat) (v : Quay) : (s.setQuay q v).regs = s.regs := rfl
@[simp] theorem State.setQuay_pwrShadow (s : State) (q : Nat) (v : Quay) : (s.setQuay q v).pwrShadow = s.pwrShadow := rfl
@[simp] theorem State.setQuay_out (s : State) (q : Nat) (v : Quay) : (s.setQuay q v).out = s.out := rfl
@[simp] theorem State.setQuay_draws (s : State) (q : Nat) (v : Quay) : (s.setQuay q v).draws = s.draws := rfl
@[simp] theorem State.setQuay_log (s : State) (q : Nat) (v : Quay) : (s.setQuay q v).log = s.log := rfl
@[simp] theorem State.setQuay_pldm (s : State) (q : Nat) (v : Quay) : (s.setQuay q v).pldm = s.pldm := rfl
@[simp] theorem State.setQuay_pldmTries (s : State) (q : Nat) (v : Quay) : (s.setQuay q v).pldmTries = s.pldmTries := rfl
@[simp] theorem State.setQuay_keelQueue (s : State) (q : Nat) (v : Quay) : (s.setQuay q v).keelQueue = s.keelQueue := rfl
@[simp] theorem State.setQuay_keel (s : State) (q : Nat) (v : Quay) : (s.setQuay q v).keel = s.keel := rfl
@[simp] theorem State.setQuay_lh (s : State) (q : Nat) (v : Quay) : (s.setQuay q v).lh = s.lh := rfl
@[simp] theorem State.setQuay_frame (s : State) (q : Nat) (v : Quay) : (s.setQuay q v).frame = s.frame := rfl
@[simp] theorem State.setQuay_doms (s : State) (q : Nat) (v : Quay) : (s.setQuay q v).doms = s.doms := rfl
@[simp] theorem State.setQuay_avs (s : State) (q : Nat) (v : Quay) : (s.setQuay q v).avs = s.avs := rfl
@[simp] theorem State.setQuay_meter (s : State) (q : Nat) (v : Quay) : (s.setQuay q v).meter = s.meter := rfl
@[simp] theorem State.setQuay_fuses (s : State) (q : Nat) (v : Quay) : (s.setQuay q v).fuses = s.fuses := rfl
@[simp] theorem State.setQuay_boot (s : State) (q : Nat) (v : Quay) : (s.setQuay q v).boot = s.boot := rfl
@[simp] theorem State.setQuay_ckp (s : State) (q : Nat) (v : Quay) : (s.setQuay q v).ckp = s.ckp := rfl
@[simp] theorem State.setQuay_thermal (s : State) (q : Nat) (v : Quay) : (s.setQuay q v).thermal = s.thermal := rfl
@[simp] theorem State.setQuay_refresh (s : State) (q : Nat) (v : Quay) : (s.setQuay q v).refresh = s.refresh := rfl
@[simp] theorem State.setQuay_fac (s : State) (q : Nat) (v : Quay) : (s.setQuay q v).fac = s.fac := rfl
@[simp] theorem State.setQuay_pil (s : State) (q : Nat) (v : Quay) : (s.setQuay q v).pil = s.pil := rfl
@[simp] theorem State.setQuay_archs (s : State) (q : Nat) (v : Quay) : (s.setQuay q v).archs = s.archs := rfl
@[simp] theorem State.setQuay_requests (s : State) (q : Nat) (v : Quay) : (s.setQuay q v).requests = s.requests := rfl
@[simp] theorem State.setQuay_isles (s : State) (q : Nat) (v : Quay) : (s.setQuay q v).isles = s.isles := rfl
@[simp] theorem State.setQuay_slices (s : State) (q : Nat) (v : Quay) : (s.setQuay q v).slices = s.slices := rfl
@[simp] theorem State.setQuay_image (s : State) (q : Nat) (v : Quay) : (s.setQuay q v).image = s.image := rfl
@[simp] theorem State.setQuay_staged (s : State) (q : Nat) (v : Quay) : (s.setQuay q v).staged = s.staged := rfl
@[simp] theorem State.setQuay_imageAddr (s : State) (q : Nat) (v : Quay) : (s.setQuay q v).imageAddr = s.imageAddr := rfl
@[simp] theorem State.setQuay_sched (s : State) (q : Nat) (v : Quay) : (s.setQuay q v).sched = s.sched := rfl
@[simp] theorem State.setQuay_cycleOps (s : State) (q : Nat) (v : Quay) : (s.setQuay q v).cycleOps = s.cycleOps := rfl
@[simp] theorem State.setQuay_cycleArms (s : State) (q : Nat) (v : Quay) : (s.setQuay q v).cycleArms = s.cycleArms := rfl
@[simp] theorem State.setQuay_ports (s : State) (q : Nat) (v : Quay) : (s.setQuay q v).ports = s.ports := rfl
@[simp] theorem State.setQuay_hif (s : State) (q : Nat) (v : Quay) : (s.setQuay q v).hif = s.hif := rfl
@[simp] theorem State.setQuay_lagoon (s : State) (q : Nat) (v : Quay) : (s.setQuay q v).lagoon = s.lagoon := rfl
@[simp] theorem State.setQuay_lagoonErr (s : State) (q : Nat) (v : Quay) : (s.setQuay q v).lagoonErr = s.lagoonErr := rfl
@[simp] theorem State.setQuay_stored (s : State) (q : Nat) (v : Quay) : (s.setQuay q v).stored = s.stored := rfl

/-! `State.modQuay`. -/
@[simp] theorem State.modQuay_pending (s : State) (q : Nat) (g : Quay → Quay) : (s.modQuay q g).pending = s.pending := rfl
@[simp] theorem State.modQuay_regs (s : State) (q : Nat) (g : Quay → Quay) : (s.modQuay q g).regs = s.regs := rfl
@[simp] theorem State.modQuay_pwrShadow (s : State) (q : Nat) (g : Quay → Quay) : (s.modQuay q g).pwrShadow = s.pwrShadow := rfl
@[simp] theorem State.modQuay_out (s : State) (q : Nat) (g : Quay → Quay) : (s.modQuay q g).out = s.out := rfl
@[simp] theorem State.modQuay_draws (s : State) (q : Nat) (g : Quay → Quay) : (s.modQuay q g).draws = s.draws := rfl
@[simp] theorem State.modQuay_log (s : State) (q : Nat) (g : Quay → Quay) : (s.modQuay q g).log = s.log := rfl
@[simp] theorem State.modQuay_pldm (s : State) (q : Nat) (g : Quay → Quay) : (s.modQuay q g).pldm = s.pldm := rfl
@[simp] theorem State.modQuay_pldmTries (s : State) (q : Nat) (g : Quay → Quay) : (s.modQuay q g).pldmTries = s.pldmTries := rfl
@[simp] theorem State.modQuay_keelQueue (s : State) (q : Nat) (g : Quay → Quay) : (s.modQuay q g).keelQueue = s.keelQueue := rfl
@[simp] theorem State.modQuay_keel (s : State) (q : Nat) (g : Quay → Quay) : (s.modQuay q g).keel = s.keel := rfl
@[simp] theorem State.modQuay_lh (s : State) (q : Nat) (g : Quay → Quay) : (s.modQuay q g).lh = s.lh := rfl
@[simp] theorem State.modQuay_frame (s : State) (q : Nat) (g : Quay → Quay) : (s.modQuay q g).frame = s.frame := rfl
@[simp] theorem State.modQuay_doms (s : State) (q : Nat) (g : Quay → Quay) : (s.modQuay q g).doms = s.doms := rfl
@[simp] theorem State.modQuay_avs (s : State) (q : Nat) (g : Quay → Quay) : (s.modQuay q g).avs = s.avs := rfl
@[simp] theorem State.modQuay_meter (s : State) (q : Nat) (g : Quay → Quay) : (s.modQuay q g).meter = s.meter := rfl
@[simp] theorem State.modQuay_fuses (s : State) (q : Nat) (g : Quay → Quay) : (s.modQuay q g).fuses = s.fuses := rfl
@[simp] theorem State.modQuay_boot (s : State) (q : Nat) (g : Quay → Quay) : (s.modQuay q g).boot = s.boot := rfl
@[simp] theorem State.modQuay_ckp (s : State) (q : Nat) (g : Quay → Quay) : (s.modQuay q g).ckp = s.ckp := rfl
@[simp] theorem State.modQuay_thermal (s : State) (q : Nat) (g : Quay → Quay) : (s.modQuay q g).thermal = s.thermal := rfl
@[simp] theorem State.modQuay_refresh (s : State) (q : Nat) (g : Quay → Quay) : (s.modQuay q g).refresh = s.refresh := rfl
@[simp] theorem State.modQuay_fac (s : State) (q : Nat) (g : Quay → Quay) : (s.modQuay q g).fac = s.fac := rfl
@[simp] theorem State.modQuay_pil (s : State) (q : Nat) (g : Quay → Quay) : (s.modQuay q g).pil = s.pil := rfl
@[simp] theorem State.modQuay_archs (s : State) (q : Nat) (g : Quay → Quay) : (s.modQuay q g).archs = s.archs := rfl
@[simp] theorem State.modQuay_requests (s : State) (q : Nat) (g : Quay → Quay) : (s.modQuay q g).requests = s.requests := rfl
@[simp] theorem State.modQuay_isles (s : State) (q : Nat) (g : Quay → Quay) : (s.modQuay q g).isles = s.isles := rfl
@[simp] theorem State.modQuay_slices (s : State) (q : Nat) (g : Quay → Quay) : (s.modQuay q g).slices = s.slices := rfl
@[simp] theorem State.modQuay_image (s : State) (q : Nat) (g : Quay → Quay) : (s.modQuay q g).image = s.image := rfl
@[simp] theorem State.modQuay_staged (s : State) (q : Nat) (g : Quay → Quay) : (s.modQuay q g).staged = s.staged := rfl
@[simp] theorem State.modQuay_imageAddr (s : State) (q : Nat) (g : Quay → Quay) : (s.modQuay q g).imageAddr = s.imageAddr := rfl
@[simp] theorem State.modQuay_sched (s : State) (q : Nat) (g : Quay → Quay) : (s.modQuay q g).sched = s.sched := rfl
@[simp] theorem State.modQuay_cycleOps (s : State) (q : Nat) (g : Quay → Quay) : (s.modQuay q g).cycleOps = s.cycleOps := rfl
@[simp] theorem State.modQuay_cycleArms (s : State) (q : Nat) (g : Quay → Quay) : (s.modQuay q g).cycleArms = s.cycleArms := rfl
@[simp] theorem State.modQuay_ports (s : State) (q : Nat) (g : Quay → Quay) : (s.modQuay q g).ports = s.ports := rfl
@[simp] theorem State.modQuay_hif (s : State) (q : Nat) (g : Quay → Quay) : (s.modQuay q g).hif = s.hif := rfl
@[simp] theorem State.modQuay_lagoon (s : State) (q : Nat) (g : Quay → Quay) : (s.modQuay q g).lagoon = s.lagoon := rfl
@[simp] theorem State.modQuay_lagoonErr (s : State) (q : Nat) (g : Quay → Quay) : (s.modQuay q g).lagoonErr = s.lagoonErr := rfl
@[simp] theorem State.modQuay_stored (s : State) (q : Nat) (g : Quay → Quay) : (s.modQuay q g).stored = s.stored := rfl

/-! `State.setDma`. -/
@[simp] theorem State.setDma_pending (s : State) (e : Nat) (v : Dma) : (s.setDma e v).pending = s.pending := rfl
@[simp] theorem State.setDma_regs (s : State) (e : Nat) (v : Dma) : (s.setDma e v).regs = s.regs := rfl
@[simp] theorem State.setDma_pwrShadow (s : State) (e : Nat) (v : Dma) : (s.setDma e v).pwrShadow = s.pwrShadow := rfl
@[simp] theorem State.setDma_out (s : State) (e : Nat) (v : Dma) : (s.setDma e v).out = s.out := rfl
@[simp] theorem State.setDma_draws (s : State) (e : Nat) (v : Dma) : (s.setDma e v).draws = s.draws := rfl
@[simp] theorem State.setDma_log (s : State) (e : Nat) (v : Dma) : (s.setDma e v).log = s.log := rfl
@[simp] theorem State.setDma_pldm (s : State) (e : Nat) (v : Dma) : (s.setDma e v).pldm = s.pldm := rfl
@[simp] theorem State.setDma_pldmTries (s : State) (e : Nat) (v : Dma) : (s.setDma e v).pldmTries = s.pldmTries := rfl
@[simp] theorem State.setDma_keelQueue (s : State) (e : Nat) (v : Dma) : (s.setDma e v).keelQueue = s.keelQueue := rfl
@[simp] theorem State.setDma_keel (s : State) (e : Nat) (v : Dma) : (s.setDma e v).keel = s.keel := rfl
@[simp] theorem State.setDma_lh (s : State) (e : Nat) (v : Dma) : (s.setDma e v).lh = s.lh := rfl
@[simp] theorem State.setDma_frame (s : State) (e : Nat) (v : Dma) : (s.setDma e v).frame = s.frame := rfl
@[simp] theorem State.setDma_doms (s : State) (e : Nat) (v : Dma) : (s.setDma e v).doms = s.doms := rfl
@[simp] theorem State.setDma_avs (s : State) (e : Nat) (v : Dma) : (s.setDma e v).avs = s.avs := rfl
@[simp] theorem State.setDma_meter (s : State) (e : Nat) (v : Dma) : (s.setDma e v).meter = s.meter := rfl
@[simp] theorem State.setDma_fuses (s : State) (e : Nat) (v : Dma) : (s.setDma e v).fuses = s.fuses := rfl
@[simp] theorem State.setDma_boot (s : State) (e : Nat) (v : Dma) : (s.setDma e v).boot = s.boot := rfl
@[simp] theorem State.setDma_ckp (s : State) (e : Nat) (v : Dma) : (s.setDma e v).ckp = s.ckp := rfl
@[simp] theorem State.setDma_thermal (s : State) (e : Nat) (v : Dma) : (s.setDma e v).thermal = s.thermal := rfl
@[simp] theorem State.setDma_refresh (s : State) (e : Nat) (v : Dma) : (s.setDma e v).refresh = s.refresh := rfl
@[simp] theorem State.setDma_fac (s : State) (e : Nat) (v : Dma) : (s.setDma e v).fac = s.fac := rfl
@[simp] theorem State.setDma_pil (s : State) (e : Nat) (v : Dma) : (s.setDma e v).pil = s.pil := rfl
@[simp] theorem State.setDma_archs (s : State) (e : Nat) (v : Dma) : (s.setDma e v).archs = s.archs := rfl
@[simp] theorem State.setDma_requests (s : State) (e : Nat) (v : Dma) : (s.setDma e v).requests = s.requests := rfl
@[simp] theorem State.setDma_isles (s : State) (e : Nat) (v : Dma) : (s.setDma e v).isles = s.isles := rfl
@[simp] theorem State.setDma_slices (s : State) (e : Nat) (v : Dma) : (s.setDma e v).slices = s.slices := rfl
@[simp] theorem State.setDma_image (s : State) (e : Nat) (v : Dma) : (s.setDma e v).image = s.image := rfl
@[simp] theorem State.setDma_staged (s : State) (e : Nat) (v : Dma) : (s.setDma e v).staged = s.staged := rfl
@[simp] theorem State.setDma_imageAddr (s : State) (e : Nat) (v : Dma) : (s.setDma e v).imageAddr = s.imageAddr := rfl
@[simp] theorem State.setDma_sched (s : State) (e : Nat) (v : Dma) : (s.setDma e v).sched = s.sched := rfl
@[simp] theorem State.setDma_quays (s : State) (e : Nat) (v : Dma) : (s.setDma e v).quays = s.quays := rfl
@[simp] theorem State.setDma_cycleOps (s : State) (e : Nat) (v : Dma) : (s.setDma e v).cycleOps = s.cycleOps := rfl
@[simp] theorem State.setDma_cycleArms (s : State) (e : Nat) (v : Dma) : (s.setDma e v).cycleArms = s.cycleArms := rfl
@[simp] theorem State.setDma_ports (s : State) (e : Nat) (v : Dma) : (s.setDma e v).ports = s.ports := rfl
@[simp] theorem State.setDma_lagoon (s : State) (e : Nat) (v : Dma) : (s.setDma e v).lagoon = s.lagoon := rfl
@[simp] theorem State.setDma_lagoonErr (s : State) (e : Nat) (v : Dma) : (s.setDma e v).lagoonErr = s.lagoonErr := rfl
@[simp] theorem State.setDma_stored (s : State) (e : Nat) (v : Dma) : (s.setDma e v).stored = s.stored := rfl

/-! `State.modDma`. -/
@[simp] theorem State.modDma_pending (s : State) (e : Nat) (g : Dma → Dma) : (s.modDma e g).pending = s.pending := rfl
@[simp] theorem State.modDma_regs (s : State) (e : Nat) (g : Dma → Dma) : (s.modDma e g).regs = s.regs := rfl
@[simp] theorem State.modDma_pwrShadow (s : State) (e : Nat) (g : Dma → Dma) : (s.modDma e g).pwrShadow = s.pwrShadow := rfl
@[simp] theorem State.modDma_out (s : State) (e : Nat) (g : Dma → Dma) : (s.modDma e g).out = s.out := rfl
@[simp] theorem State.modDma_draws (s : State) (e : Nat) (g : Dma → Dma) : (s.modDma e g).draws = s.draws := rfl
@[simp] theorem State.modDma_log (s : State) (e : Nat) (g : Dma → Dma) : (s.modDma e g).log = s.log := rfl
@[simp] theorem State.modDma_pldm (s : State) (e : Nat) (g : Dma → Dma) : (s.modDma e g).pldm = s.pldm := rfl
@[simp] theorem State.modDma_pldmTries (s : State) (e : Nat) (g : Dma → Dma) : (s.modDma e g).pldmTries = s.pldmTries := rfl
@[simp] theorem State.modDma_keelQueue (s : State) (e : Nat) (g : Dma → Dma) : (s.modDma e g).keelQueue = s.keelQueue := rfl
@[simp] theorem State.modDma_keel (s : State) (e : Nat) (g : Dma → Dma) : (s.modDma e g).keel = s.keel := rfl
@[simp] theorem State.modDma_lh (s : State) (e : Nat) (g : Dma → Dma) : (s.modDma e g).lh = s.lh := rfl
@[simp] theorem State.modDma_frame (s : State) (e : Nat) (g : Dma → Dma) : (s.modDma e g).frame = s.frame := rfl
@[simp] theorem State.modDma_doms (s : State) (e : Nat) (g : Dma → Dma) : (s.modDma e g).doms = s.doms := rfl
@[simp] theorem State.modDma_avs (s : State) (e : Nat) (g : Dma → Dma) : (s.modDma e g).avs = s.avs := rfl
@[simp] theorem State.modDma_meter (s : State) (e : Nat) (g : Dma → Dma) : (s.modDma e g).meter = s.meter := rfl
@[simp] theorem State.modDma_fuses (s : State) (e : Nat) (g : Dma → Dma) : (s.modDma e g).fuses = s.fuses := rfl
@[simp] theorem State.modDma_boot (s : State) (e : Nat) (g : Dma → Dma) : (s.modDma e g).boot = s.boot := rfl
@[simp] theorem State.modDma_ckp (s : State) (e : Nat) (g : Dma → Dma) : (s.modDma e g).ckp = s.ckp := rfl
@[simp] theorem State.modDma_thermal (s : State) (e : Nat) (g : Dma → Dma) : (s.modDma e g).thermal = s.thermal := rfl
@[simp] theorem State.modDma_refresh (s : State) (e : Nat) (g : Dma → Dma) : (s.modDma e g).refresh = s.refresh := rfl
@[simp] theorem State.modDma_fac (s : State) (e : Nat) (g : Dma → Dma) : (s.modDma e g).fac = s.fac := rfl
@[simp] theorem State.modDma_pil (s : State) (e : Nat) (g : Dma → Dma) : (s.modDma e g).pil = s.pil := rfl
@[simp] theorem State.modDma_archs (s : State) (e : Nat) (g : Dma → Dma) : (s.modDma e g).archs = s.archs := rfl
@[simp] theorem State.modDma_requests (s : State) (e : Nat) (g : Dma → Dma) : (s.modDma e g).requests = s.requests := rfl
@[simp] theorem State.modDma_isles (s : State) (e : Nat) (g : Dma → Dma) : (s.modDma e g).isles = s.isles := rfl
@[simp] theorem State.modDma_slices (s : State) (e : Nat) (g : Dma → Dma) : (s.modDma e g).slices = s.slices := rfl
@[simp] theorem State.modDma_image (s : State) (e : Nat) (g : Dma → Dma) : (s.modDma e g).image = s.image := rfl
@[simp] theorem State.modDma_staged (s : State) (e : Nat) (g : Dma → Dma) : (s.modDma e g).staged = s.staged := rfl
@[simp] theorem State.modDma_imageAddr (s : State) (e : Nat) (g : Dma → Dma) : (s.modDma e g).imageAddr = s.imageAddr := rfl
@[simp] theorem State.modDma_sched (s : State) (e : Nat) (g : Dma → Dma) : (s.modDma e g).sched = s.sched := rfl
@[simp] theorem State.modDma_quays (s : State) (e : Nat) (g : Dma → Dma) : (s.modDma e g).quays = s.quays := rfl
@[simp] theorem State.modDma_cycleOps (s : State) (e : Nat) (g : Dma → Dma) : (s.modDma e g).cycleOps = s.cycleOps := rfl
@[simp] theorem State.modDma_cycleArms (s : State) (e : Nat) (g : Dma → Dma) : (s.modDma e g).cycleArms = s.cycleArms := rfl
@[simp] theorem State.modDma_ports (s : State) (e : Nat) (g : Dma → Dma) : (s.modDma e g).ports = s.ports := rfl
@[simp] theorem State.modDma_lagoon (s : State) (e : Nat) (g : Dma → Dma) : (s.modDma e g).lagoon = s.lagoon := rfl
@[simp] theorem State.modDma_lagoonErr (s : State) (e : Nat) (g : Dma → Dma) : (s.modDma e g).lagoonErr = s.lagoonErr := rfl
@[simp] theorem State.modDma_stored (s : State) (e : Nat) (g : Dma → Dma) : (s.modDma e g).stored = s.stored := rfl

/-! `State.setReads`. -/
@[simp] theorem State.setReads_pending (s : State) (m : KMap Nat) : (s.setReads m).pending = s.pending := rfl
@[simp] theorem State.setReads_regs (s : State) (m : KMap Nat) : (s.setReads m).regs = s.regs := rfl
@[simp] theorem State.setReads_pwrShadow (s : State) (m : KMap Nat) : (s.setReads m).pwrShadow = s.pwrShadow := rfl
@[simp] theorem State.setReads_out (s : State) (m : KMap Nat) : (s.setReads m).out = s.out := rfl
@[simp] theorem State.setReads_draws (s : State) (m : KMap Nat) : (s.setReads m).draws = s.draws := rfl
@[simp] theorem State.setReads_log (s : State) (m : KMap Nat) : (s.setReads m).log = s.log := rfl
@[simp] theorem State.setReads_pldm (s : State) (m : KMap Nat) : (s.setReads m).pldm = s.pldm := rfl
@[simp] theorem State.setReads_pldmTries (s : State) (m : KMap Nat) : (s.setReads m).pldmTries = s.pldmTries := rfl
@[simp] theorem State.setReads_keelQueue (s : State) (m : KMap Nat) : (s.setReads m).keelQueue = s.keelQueue := rfl
@[simp] theorem State.setReads_keel (s : State) (m : KMap Nat) : (s.setReads m).keel = s.keel := rfl
@[simp] theorem State.setReads_lh (s : State) (m : KMap Nat) : (s.setReads m).lh = s.lh := rfl
@[simp] theorem State.setReads_frame (s : State) (m : KMap Nat) : (s.setReads m).frame = s.frame := rfl
@[simp] theorem State.setReads_doms (s : State) (m : KMap Nat) : (s.setReads m).doms = s.doms := rfl
@[simp] theorem State.setReads_avs (s : State) (m : KMap Nat) : (s.setReads m).avs = s.avs := rfl
@[simp] theorem State.setReads_meter (s : State) (m : KMap Nat) : (s.setReads m).meter = s.meter := rfl
@[simp] theorem State.setReads_fuses (s : State) (m : KMap Nat) : (s.setReads m).fuses = s.fuses := rfl
@[simp] theorem State.setReads_boot (s : State) (m : KMap Nat) : (s.setReads m).boot = s.boot := rfl
@[simp] theorem State.setReads_ckp (s : State) (m : KMap Nat) : (s.setReads m).ckp = s.ckp := rfl
@[simp] theorem State.setReads_thermal (s : State) (m : KMap Nat) : (s.setReads m).thermal = s.thermal := rfl
@[simp] theorem State.setReads_refresh (s : State) (m : KMap Nat) : (s.setReads m).refresh = s.refresh := rfl
@[simp] theorem State.setReads_fac (s : State) (m : KMap Nat) : (s.setReads m).fac = s.fac := rfl
@[simp] theorem State.setReads_pil (s : State) (m : KMap Nat) : (s.setReads m).pil = s.pil := rfl
@[simp] theorem State.setReads_archs (s : State) (m : KMap Nat) : (s.setReads m).archs = s.archs := rfl
@[simp] theorem State.setReads_requests (s : State) (m : KMap Nat) : (s.setReads m).requests = s.requests := rfl
@[simp] theorem State.setReads_isles (s : State) (m : KMap Nat) : (s.setReads m).isles = s.isles := rfl
@[simp] theorem State.setReads_slices (s : State) (m : KMap Nat) : (s.setReads m).slices = s.slices := rfl
@[simp] theorem State.setReads_image (s : State) (m : KMap Nat) : (s.setReads m).image = s.image := rfl
@[simp] theorem State.setReads_staged (s : State) (m : KMap Nat) : (s.setReads m).staged = s.staged := rfl
@[simp] theorem State.setReads_imageAddr (s : State) (m : KMap Nat) : (s.setReads m).imageAddr = s.imageAddr := rfl
@[simp] theorem State.setReads_sched (s : State) (m : KMap Nat) : (s.setReads m).sched = s.sched := rfl
@[simp] theorem State.setReads_quays (s : State) (m : KMap Nat) : (s.setReads m).quays = s.quays := rfl
@[simp] theorem State.setReads_cycleOps (s : State) (m : KMap Nat) : (s.setReads m).cycleOps = s.cycleOps := rfl
@[simp] theorem State.setReads_cycleArms (s : State) (m : KMap Nat) : (s.setReads m).cycleArms = s.cycleArms := rfl
@[simp] theorem State.setReads_ports (s : State) (m : KMap Nat) : (s.setReads m).ports = s.ports := rfl
@[simp] theorem State.setReads_lagoon (s : State) (m : KMap Nat) : (s.setReads m).lagoon = s.lagoon := rfl
@[simp] theorem State.setReads_lagoonErr (s : State) (m : KMap Nat) : (s.setReads m).lagoonErr = s.lagoonErr := rfl
@[simp] theorem State.setReads_stored (s : State) (m : KMap Nat) : (s.setReads m).stored = s.stored := rfl

/-! `State.setAvs`. -/
@[simp] theorem State.setAvs_pending (s : State) (k : Nat) (v : Avs) : (s.setAvs k v).pending = s.pending := rfl
@[simp] theorem State.setAvs_regs (s : State) (k : Nat) (v : Avs) : (s.setAvs k v).regs = s.regs := rfl
@[simp] theorem State.setAvs_pwrShadow (s : State) (k : Nat) (v : Avs) : (s.setAvs k v).pwrShadow = s.pwrShadow := rfl
@[simp] theorem State.setAvs_out (s : State) (k : Nat) (v : Avs) : (s.setAvs k v).out = s.out := rfl
@[simp] theorem State.setAvs_draws (s : State) (k : Nat) (v : Avs) : (s.setAvs k v).draws = s.draws := rfl
@[simp] theorem State.setAvs_log (s : State) (k : Nat) (v : Avs) : (s.setAvs k v).log = s.log := rfl
@[simp] theorem State.setAvs_pldm (s : State) (k : Nat) (v : Avs) : (s.setAvs k v).pldm = s.pldm := rfl
@[simp] theorem State.setAvs_pldmTries (s : State) (k : Nat) (v : Avs) : (s.setAvs k v).pldmTries = s.pldmTries := rfl
@[simp] theorem State.setAvs_keelQueue (s : State) (k : Nat) (v : Avs) : (s.setAvs k v).keelQueue = s.keelQueue := rfl
@[simp] theorem State.setAvs_keel (s : State) (k : Nat) (v : Avs) : (s.setAvs k v).keel = s.keel := rfl
@[simp] theorem State.setAvs_lh (s : State) (k : Nat) (v : Avs) : (s.setAvs k v).lh = s.lh := rfl
@[simp] theorem State.setAvs_frame (s : State) (k : Nat) (v : Avs) : (s.setAvs k v).frame = s.frame := rfl
@[simp] theorem State.setAvs_doms (s : State) (k : Nat) (v : Avs) : (s.setAvs k v).doms = s.doms := rfl
@[simp] theorem State.setAvs_meter (s : State) (k : Nat) (v : Avs) : (s.setAvs k v).meter = s.meter := rfl
@[simp] theorem State.setAvs_fuses (s : State) (k : Nat) (v : Avs) : (s.setAvs k v).fuses = s.fuses := rfl
@[simp] theorem State.setAvs_boot (s : State) (k : Nat) (v : Avs) : (s.setAvs k v).boot = s.boot := rfl
@[simp] theorem State.setAvs_ckp (s : State) (k : Nat) (v : Avs) : (s.setAvs k v).ckp = s.ckp := rfl
@[simp] theorem State.setAvs_thermal (s : State) (k : Nat) (v : Avs) : (s.setAvs k v).thermal = s.thermal := rfl
@[simp] theorem State.setAvs_refresh (s : State) (k : Nat) (v : Avs) : (s.setAvs k v).refresh = s.refresh := rfl
@[simp] theorem State.setAvs_fac (s : State) (k : Nat) (v : Avs) : (s.setAvs k v).fac = s.fac := rfl
@[simp] theorem State.setAvs_pil (s : State) (k : Nat) (v : Avs) : (s.setAvs k v).pil = s.pil := rfl
@[simp] theorem State.setAvs_archs (s : State) (k : Nat) (v : Avs) : (s.setAvs k v).archs = s.archs := rfl
@[simp] theorem State.setAvs_requests (s : State) (k : Nat) (v : Avs) : (s.setAvs k v).requests = s.requests := rfl
@[simp] theorem State.setAvs_isles (s : State) (k : Nat) (v : Avs) : (s.setAvs k v).isles = s.isles := rfl
@[simp] theorem State.setAvs_slices (s : State) (k : Nat) (v : Avs) : (s.setAvs k v).slices = s.slices := rfl
@[simp] theorem State.setAvs_image (s : State) (k : Nat) (v : Avs) : (s.setAvs k v).image = s.image := rfl
@[simp] theorem State.setAvs_staged (s : State) (k : Nat) (v : Avs) : (s.setAvs k v).staged = s.staged := rfl
@[simp] theorem State.setAvs_imageAddr (s : State) (k : Nat) (v : Avs) : (s.setAvs k v).imageAddr = s.imageAddr := rfl
@[simp] theorem State.setAvs_sched (s : State) (k : Nat) (v : Avs) : (s.setAvs k v).sched = s.sched := rfl
@[simp] theorem State.setAvs_quays (s : State) (k : Nat) (v : Avs) : (s.setAvs k v).quays = s.quays := rfl
@[simp] theorem State.setAvs_cycleOps (s : State) (k : Nat) (v : Avs) : (s.setAvs k v).cycleOps = s.cycleOps := rfl
@[simp] theorem State.setAvs_cycleArms (s : State) (k : Nat) (v : Avs) : (s.setAvs k v).cycleArms = s.cycleArms := rfl
@[simp] theorem State.setAvs_ports (s : State) (k : Nat) (v : Avs) : (s.setAvs k v).ports = s.ports := rfl
@[simp] theorem State.setAvs_hif (s : State) (k : Nat) (v : Avs) : (s.setAvs k v).hif = s.hif := rfl
@[simp] theorem State.setAvs_lagoon (s : State) (k : Nat) (v : Avs) : (s.setAvs k v).lagoon = s.lagoon := rfl
@[simp] theorem State.setAvs_lagoonErr (s : State) (k : Nat) (v : Avs) : (s.setAvs k v).lagoonErr = s.lagoonErr := rfl
@[simp] theorem State.setAvs_stored (s : State) (k : Nat) (v : Avs) : (s.setAvs k v).stored = s.stored := rfl

/-! `State.setSensor`. -/
@[simp] theorem State.setSensor_pending (s : State) (n : Nat) (v : Sensor) : (s.setSensor n v).pending = s.pending := rfl
@[simp] theorem State.setSensor_regs (s : State) (n : Nat) (v : Sensor) : (s.setSensor n v).regs = s.regs := rfl
@[simp] theorem State.setSensor_pwrShadow (s : State) (n : Nat) (v : Sensor) : (s.setSensor n v).pwrShadow = s.pwrShadow := rfl
@[simp] theorem State.setSensor_out (s : State) (n : Nat) (v : Sensor) : (s.setSensor n v).out = s.out := rfl
@[simp] theorem State.setSensor_draws (s : State) (n : Nat) (v : Sensor) : (s.setSensor n v).draws = s.draws := rfl
@[simp] theorem State.setSensor_log (s : State) (n : Nat) (v : Sensor) : (s.setSensor n v).log = s.log := rfl
@[simp] theorem State.setSensor_pldm (s : State) (n : Nat) (v : Sensor) : (s.setSensor n v).pldm = s.pldm := rfl
@[simp] theorem State.setSensor_pldmTries (s : State) (n : Nat) (v : Sensor) : (s.setSensor n v).pldmTries = s.pldmTries := rfl
@[simp] theorem State.setSensor_keelQueue (s : State) (n : Nat) (v : Sensor) : (s.setSensor n v).keelQueue = s.keelQueue := rfl
@[simp] theorem State.setSensor_keel (s : State) (n : Nat) (v : Sensor) : (s.setSensor n v).keel = s.keel := rfl
@[simp] theorem State.setSensor_lh (s : State) (n : Nat) (v : Sensor) : (s.setSensor n v).lh = s.lh := rfl
@[simp] theorem State.setSensor_frame (s : State) (n : Nat) (v : Sensor) : (s.setSensor n v).frame = s.frame := rfl
@[simp] theorem State.setSensor_doms (s : State) (n : Nat) (v : Sensor) : (s.setSensor n v).doms = s.doms := rfl
@[simp] theorem State.setSensor_avs (s : State) (n : Nat) (v : Sensor) : (s.setSensor n v).avs = s.avs := rfl
@[simp] theorem State.setSensor_meter (s : State) (n : Nat) (v : Sensor) : (s.setSensor n v).meter = s.meter := rfl
@[simp] theorem State.setSensor_fuses (s : State) (n : Nat) (v : Sensor) : (s.setSensor n v).fuses = s.fuses := rfl
@[simp] theorem State.setSensor_boot (s : State) (n : Nat) (v : Sensor) : (s.setSensor n v).boot = s.boot := rfl
@[simp] theorem State.setSensor_ckp (s : State) (n : Nat) (v : Sensor) : (s.setSensor n v).ckp = s.ckp := rfl
@[simp] theorem State.setSensor_refresh (s : State) (n : Nat) (v : Sensor) : (s.setSensor n v).refresh = s.refresh := rfl
@[simp] theorem State.setSensor_fac (s : State) (n : Nat) (v : Sensor) : (s.setSensor n v).fac = s.fac := rfl
@[simp] theorem State.setSensor_pil (s : State) (n : Nat) (v : Sensor) : (s.setSensor n v).pil = s.pil := rfl
@[simp] theorem State.setSensor_archs (s : State) (n : Nat) (v : Sensor) : (s.setSensor n v).archs = s.archs := rfl
@[simp] theorem State.setSensor_requests (s : State) (n : Nat) (v : Sensor) : (s.setSensor n v).requests = s.requests := rfl
@[simp] theorem State.setSensor_isles (s : State) (n : Nat) (v : Sensor) : (s.setSensor n v).isles = s.isles := rfl
@[simp] theorem State.setSensor_slices (s : State) (n : Nat) (v : Sensor) : (s.setSensor n v).slices = s.slices := rfl
@[simp] theorem State.setSensor_image (s : State) (n : Nat) (v : Sensor) : (s.setSensor n v).image = s.image := rfl
@[simp] theorem State.setSensor_staged (s : State) (n : Nat) (v : Sensor) : (s.setSensor n v).staged = s.staged := rfl
@[simp] theorem State.setSensor_imageAddr (s : State) (n : Nat) (v : Sensor) : (s.setSensor n v).imageAddr = s.imageAddr := rfl
@[simp] theorem State.setSensor_sched (s : State) (n : Nat) (v : Sensor) : (s.setSensor n v).sched = s.sched := rfl
@[simp] theorem State.setSensor_quays (s : State) (n : Nat) (v : Sensor) : (s.setSensor n v).quays = s.quays := rfl
@[simp] theorem State.setSensor_cycleOps (s : State) (n : Nat) (v : Sensor) : (s.setSensor n v).cycleOps = s.cycleOps := rfl
@[simp] theorem State.setSensor_cycleArms (s : State) (n : Nat) (v : Sensor) : (s.setSensor n v).cycleArms = s.cycleArms := rfl
@[simp] theorem State.setSensor_ports (s : State) (n : Nat) (v : Sensor) : (s.setSensor n v).ports = s.ports := rfl
@[simp] theorem State.setSensor_hif (s : State) (n : Nat) (v : Sensor) : (s.setSensor n v).hif = s.hif := rfl
@[simp] theorem State.setSensor_lagoon (s : State) (n : Nat) (v : Sensor) : (s.setSensor n v).lagoon = s.lagoon := rfl
@[simp] theorem State.setSensor_lagoonErr (s : State) (n : Nat) (v : Sensor) : (s.setSensor n v).lagoonErr = s.lagoonErr := rfl
@[simp] theorem State.setSensor_stored (s : State) (n : Nat) (v : Sensor) : (s.setSensor n v).stored = s.stored := rfl

/-! `State.modLh`. -/
@[simp] theorem State.modLh_pending (s : State) (g : Lighthouse → Lighthouse) : (s.modLh g).pending = s.pending := rfl
@[simp] theorem State.modLh_regs (s : State) (g : Lighthouse → Lighthouse) : (s.modLh g).regs = s.regs := rfl
@[simp] theorem State.modLh_pwrShadow (s : State) (g : Lighthouse → Lighthouse) : (s.modLh g).pwrShadow = s.pwrShadow := rfl
@[simp] theorem State.modLh_out (s : State) (g : Lighthouse → Lighthouse) : (s.modLh g).out = s.out := rfl
@[simp] theorem State.modLh_draws (s : State) (g : Lighthouse → Lighthouse) : (s.modLh g).draws = s.draws := rfl
@[simp] theorem State.modLh_log (s : State) (g : Lighthouse → Lighthouse) : (s.modLh g).log = s.log := rfl
@[simp] theorem State.modLh_pldm (s : State) (g : Lighthouse → Lighthouse) : (s.modLh g).pldm = s.pldm := rfl
@[simp] theorem State.modLh_pldmTries (s : State) (g : Lighthouse → Lighthouse) : (s.modLh g).pldmTries = s.pldmTries := rfl
@[simp] theorem State.modLh_keelQueue (s : State) (g : Lighthouse → Lighthouse) : (s.modLh g).keelQueue = s.keelQueue := rfl
@[simp] theorem State.modLh_keel (s : State) (g : Lighthouse → Lighthouse) : (s.modLh g).keel = s.keel := rfl
@[simp] theorem State.modLh_frame (s : State) (g : Lighthouse → Lighthouse) : (s.modLh g).frame = s.frame := rfl
@[simp] theorem State.modLh_doms (s : State) (g : Lighthouse → Lighthouse) : (s.modLh g).doms = s.doms := rfl
@[simp] theorem State.modLh_avs (s : State) (g : Lighthouse → Lighthouse) : (s.modLh g).avs = s.avs := rfl
@[simp] theorem State.modLh_meter (s : State) (g : Lighthouse → Lighthouse) : (s.modLh g).meter = s.meter := rfl
@[simp] theorem State.modLh_fuses (s : State) (g : Lighthouse → Lighthouse) : (s.modLh g).fuses = s.fuses := rfl
@[simp] theorem State.modLh_boot (s : State) (g : Lighthouse → Lighthouse) : (s.modLh g).boot = s.boot := rfl
@[simp] theorem State.modLh_ckp (s : State) (g : Lighthouse → Lighthouse) : (s.modLh g).ckp = s.ckp := rfl
@[simp] theorem State.modLh_thermal (s : State) (g : Lighthouse → Lighthouse) : (s.modLh g).thermal = s.thermal := rfl
@[simp] theorem State.modLh_refresh (s : State) (g : Lighthouse → Lighthouse) : (s.modLh g).refresh = s.refresh := rfl
@[simp] theorem State.modLh_fac (s : State) (g : Lighthouse → Lighthouse) : (s.modLh g).fac = s.fac := rfl
@[simp] theorem State.modLh_pil (s : State) (g : Lighthouse → Lighthouse) : (s.modLh g).pil = s.pil := rfl
@[simp] theorem State.modLh_archs (s : State) (g : Lighthouse → Lighthouse) : (s.modLh g).archs = s.archs := rfl
@[simp] theorem State.modLh_requests (s : State) (g : Lighthouse → Lighthouse) : (s.modLh g).requests = s.requests := rfl
@[simp] theorem State.modLh_isles (s : State) (g : Lighthouse → Lighthouse) : (s.modLh g).isles = s.isles := rfl
@[simp] theorem State.modLh_slices (s : State) (g : Lighthouse → Lighthouse) : (s.modLh g).slices = s.slices := rfl
@[simp] theorem State.modLh_image (s : State) (g : Lighthouse → Lighthouse) : (s.modLh g).image = s.image := rfl
@[simp] theorem State.modLh_staged (s : State) (g : Lighthouse → Lighthouse) : (s.modLh g).staged = s.staged := rfl
@[simp] theorem State.modLh_imageAddr (s : State) (g : Lighthouse → Lighthouse) : (s.modLh g).imageAddr = s.imageAddr := rfl
@[simp] theorem State.modLh_sched (s : State) (g : Lighthouse → Lighthouse) : (s.modLh g).sched = s.sched := rfl
@[simp] theorem State.modLh_quays (s : State) (g : Lighthouse → Lighthouse) : (s.modLh g).quays = s.quays := rfl
@[simp] theorem State.modLh_cycleOps (s : State) (g : Lighthouse → Lighthouse) : (s.modLh g).cycleOps = s.cycleOps := rfl
@[simp] theorem State.modLh_cycleArms (s : State) (g : Lighthouse → Lighthouse) : (s.modLh g).cycleArms = s.cycleArms := rfl
@[simp] theorem State.modLh_ports (s : State) (g : Lighthouse → Lighthouse) : (s.modLh g).ports = s.ports := rfl
@[simp] theorem State.modLh_hif (s : State) (g : Lighthouse → Lighthouse) : (s.modLh g).hif = s.hif := rfl
@[simp] theorem State.modLh_lagoon (s : State) (g : Lighthouse → Lighthouse) : (s.modLh g).lagoon = s.lagoon := rfl
@[simp] theorem State.modLh_lagoonErr (s : State) (g : Lighthouse → Lighthouse) : (s.modLh g).lagoonErr = s.lagoonErr := rfl
@[simp] theorem State.modLh_stored (s : State) (g : Lighthouse → Lighthouse) : (s.modLh g).stored = s.stored := rfl

/-! `State.setKeel`. -/
@[simp] theorem State.setKeel_pending (s : State) (k : Keel) : (s.setKeel k).pending = s.pending := rfl
@[simp] theorem State.setKeel_regs (s : State) (k : Keel) : (s.setKeel k).regs = s.regs := rfl
@[simp] theorem State.setKeel_pwrShadow (s : State) (k : Keel) : (s.setKeel k).pwrShadow = s.pwrShadow := rfl
@[simp] theorem State.setKeel_out (s : State) (k : Keel) : (s.setKeel k).out = s.out := rfl
@[simp] theorem State.setKeel_draws (s : State) (k : Keel) : (s.setKeel k).draws = s.draws := rfl
@[simp] theorem State.setKeel_log (s : State) (k : Keel) : (s.setKeel k).log = s.log := rfl
@[simp] theorem State.setKeel_pldm (s : State) (k : Keel) : (s.setKeel k).pldm = s.pldm := rfl
@[simp] theorem State.setKeel_pldmTries (s : State) (k : Keel) : (s.setKeel k).pldmTries = s.pldmTries := rfl
@[simp] theorem State.setKeel_keelQueue (s : State) (k : Keel) : (s.setKeel k).keelQueue = s.keelQueue := rfl
@[simp] theorem State.setKeel_lh (s : State) (k : Keel) : (s.setKeel k).lh = s.lh := rfl
@[simp] theorem State.setKeel_frame (s : State) (k : Keel) : (s.setKeel k).frame = s.frame := rfl
@[simp] theorem State.setKeel_doms (s : State) (k : Keel) : (s.setKeel k).doms = s.doms := rfl
@[simp] theorem State.setKeel_avs (s : State) (k : Keel) : (s.setKeel k).avs = s.avs := rfl
@[simp] theorem State.setKeel_meter (s : State) (k : Keel) : (s.setKeel k).meter = s.meter := rfl
@[simp] theorem State.setKeel_fuses (s : State) (k : Keel) : (s.setKeel k).fuses = s.fuses := rfl
@[simp] theorem State.setKeel_boot (s : State) (k : Keel) : (s.setKeel k).boot = s.boot := rfl
@[simp] theorem State.setKeel_ckp (s : State) (k : Keel) : (s.setKeel k).ckp = s.ckp := rfl
@[simp] theorem State.setKeel_thermal (s : State) (k : Keel) : (s.setKeel k).thermal = s.thermal := rfl
@[simp] theorem State.setKeel_refresh (s : State) (k : Keel) : (s.setKeel k).refresh = s.refresh := rfl
@[simp] theorem State.setKeel_fac (s : State) (k : Keel) : (s.setKeel k).fac = s.fac := rfl
@[simp] theorem State.setKeel_pil (s : State) (k : Keel) : (s.setKeel k).pil = s.pil := rfl
@[simp] theorem State.setKeel_archs (s : State) (k : Keel) : (s.setKeel k).archs = s.archs := rfl
@[simp] theorem State.setKeel_requests (s : State) (k : Keel) : (s.setKeel k).requests = s.requests := rfl
@[simp] theorem State.setKeel_isles (s : State) (k : Keel) : (s.setKeel k).isles = s.isles := rfl
@[simp] theorem State.setKeel_slices (s : State) (k : Keel) : (s.setKeel k).slices = s.slices := rfl
@[simp] theorem State.setKeel_image (s : State) (k : Keel) : (s.setKeel k).image = s.image := rfl
@[simp] theorem State.setKeel_staged (s : State) (k : Keel) : (s.setKeel k).staged = s.staged := rfl
@[simp] theorem State.setKeel_imageAddr (s : State) (k : Keel) : (s.setKeel k).imageAddr = s.imageAddr := rfl
@[simp] theorem State.setKeel_sched (s : State) (k : Keel) : (s.setKeel k).sched = s.sched := rfl
@[simp] theorem State.setKeel_quays (s : State) (k : Keel) : (s.setKeel k).quays = s.quays := rfl
@[simp] theorem State.setKeel_cycleOps (s : State) (k : Keel) : (s.setKeel k).cycleOps = s.cycleOps := rfl
@[simp] theorem State.setKeel_cycleArms (s : State) (k : Keel) : (s.setKeel k).cycleArms = s.cycleArms := rfl
@[simp] theorem State.setKeel_ports (s : State) (k : Keel) : (s.setKeel k).ports = s.ports := rfl
@[simp] theorem State.setKeel_hif (s : State) (k : Keel) : (s.setKeel k).hif = s.hif := rfl
@[simp] theorem State.setKeel_lagoon (s : State) (k : Keel) : (s.setKeel k).lagoon = s.lagoon := rfl
@[simp] theorem State.setKeel_lagoonErr (s : State) (k : Keel) : (s.setKeel k).lagoonErr = s.lagoonErr := rfl
@[simp] theorem State.setKeel_stored (s : State) (k : Keel) : (s.setKeel k).stored = s.stored := rfl

/-! `State.setPil`. -/
@[simp] theorem State.setPil_pending (s : State) (p : Pilots) : (s.setPil p).pending = s.pending := rfl
@[simp] theorem State.setPil_regs (s : State) (p : Pilots) : (s.setPil p).regs = s.regs := rfl
@[simp] theorem State.setPil_pwrShadow (s : State) (p : Pilots) : (s.setPil p).pwrShadow = s.pwrShadow := rfl
@[simp] theorem State.setPil_out (s : State) (p : Pilots) : (s.setPil p).out = s.out := rfl
@[simp] theorem State.setPil_draws (s : State) (p : Pilots) : (s.setPil p).draws = s.draws := rfl
@[simp] theorem State.setPil_log (s : State) (p : Pilots) : (s.setPil p).log = s.log := rfl
@[simp] theorem State.setPil_pldm (s : State) (p : Pilots) : (s.setPil p).pldm = s.pldm := rfl
@[simp] theorem State.setPil_pldmTries (s : State) (p : Pilots) : (s.setPil p).pldmTries = s.pldmTries := rfl
@[simp] theorem State.setPil_keelQueue (s : State) (p : Pilots) : (s.setPil p).keelQueue = s.keelQueue := rfl
@[simp] theorem State.setPil_keel (s : State) (p : Pilots) : (s.setPil p).keel = s.keel := rfl
@[simp] theorem State.setPil_lh (s : State) (p : Pilots) : (s.setPil p).lh = s.lh := rfl
@[simp] theorem State.setPil_frame (s : State) (p : Pilots) : (s.setPil p).frame = s.frame := rfl
@[simp] theorem State.setPil_doms (s : State) (p : Pilots) : (s.setPil p).doms = s.doms := rfl
@[simp] theorem State.setPil_avs (s : State) (p : Pilots) : (s.setPil p).avs = s.avs := rfl
@[simp] theorem State.setPil_meter (s : State) (p : Pilots) : (s.setPil p).meter = s.meter := rfl
@[simp] theorem State.setPil_fuses (s : State) (p : Pilots) : (s.setPil p).fuses = s.fuses := rfl
@[simp] theorem State.setPil_boot (s : State) (p : Pilots) : (s.setPil p).boot = s.boot := rfl
@[simp] theorem State.setPil_ckp (s : State) (p : Pilots) : (s.setPil p).ckp = s.ckp := rfl
@[simp] theorem State.setPil_thermal (s : State) (p : Pilots) : (s.setPil p).thermal = s.thermal := rfl
@[simp] theorem State.setPil_refresh (s : State) (p : Pilots) : (s.setPil p).refresh = s.refresh := rfl
@[simp] theorem State.setPil_fac (s : State) (p : Pilots) : (s.setPil p).fac = s.fac := rfl
@[simp] theorem State.setPil_archs (s : State) (p : Pilots) : (s.setPil p).archs = s.archs := rfl
@[simp] theorem State.setPil_requests (s : State) (p : Pilots) : (s.setPil p).requests = s.requests := rfl
@[simp] theorem State.setPil_isles (s : State) (p : Pilots) : (s.setPil p).isles = s.isles := rfl
@[simp] theorem State.setPil_slices (s : State) (p : Pilots) : (s.setPil p).slices = s.slices := rfl
@[simp] theorem State.setPil_image (s : State) (p : Pilots) : (s.setPil p).image = s.image := rfl
@[simp] theorem State.setPil_staged (s : State) (p : Pilots) : (s.setPil p).staged = s.staged := rfl
@[simp] theorem State.setPil_imageAddr (s : State) (p : Pilots) : (s.setPil p).imageAddr = s.imageAddr := rfl
@[simp] theorem State.setPil_sched (s : State) (p : Pilots) : (s.setPil p).sched = s.sched := rfl
@[simp] theorem State.setPil_quays (s : State) (p : Pilots) : (s.setPil p).quays = s.quays := rfl
@[simp] theorem State.setPil_cycleOps (s : State) (p : Pilots) : (s.setPil p).cycleOps = s.cycleOps := rfl
@[simp] theorem State.setPil_cycleArms (s : State) (p : Pilots) : (s.setPil p).cycleArms = s.cycleArms := rfl
@[simp] theorem State.setPil_ports (s : State) (p : Pilots) : (s.setPil p).ports = s.ports := rfl
@[simp] theorem State.setPil_hif (s : State) (p : Pilots) : (s.setPil p).hif = s.hif := rfl
@[simp] theorem State.setPil_lagoon (s : State) (p : Pilots) : (s.setPil p).lagoon = s.lagoon := rfl
@[simp] theorem State.setPil_lagoonErr (s : State) (p : Pilots) : (s.setPil p).lagoonErr = s.lagoonErr := rfl
@[simp] theorem State.setPil_stored (s : State) (p : Pilots) : (s.setPil p).stored = s.stored := rfl

/-! `State.setCkp`. -/
@[simp] theorem State.setCkp_pending (s : State) (c : Ckp) : (s.setCkp c).pending = s.pending := rfl
@[simp] theorem State.setCkp_regs (s : State) (c : Ckp) : (s.setCkp c).regs = s.regs := rfl
@[simp] theorem State.setCkp_pwrShadow (s : State) (c : Ckp) : (s.setCkp c).pwrShadow = s.pwrShadow := rfl
@[simp] theorem State.setCkp_out (s : State) (c : Ckp) : (s.setCkp c).out = s.out := rfl
@[simp] theorem State.setCkp_draws (s : State) (c : Ckp) : (s.setCkp c).draws = s.draws := rfl
@[simp] theorem State.setCkp_log (s : State) (c : Ckp) : (s.setCkp c).log = s.log := rfl
@[simp] theorem State.setCkp_pldm (s : State) (c : Ckp) : (s.setCkp c).pldm = s.pldm := rfl
@[simp] theorem State.setCkp_pldmTries (s : State) (c : Ckp) : (s.setCkp c).pldmTries = s.pldmTries := rfl
@[simp] theorem State.setCkp_keelQueue (s : State) (c : Ckp) : (s.setCkp c).keelQueue = s.keelQueue := rfl
@[simp] theorem State.setCkp_keel (s : State) (c : Ckp) : (s.setCkp c).keel = s.keel := rfl
@[simp] theorem State.setCkp_lh (s : State) (c : Ckp) : (s.setCkp c).lh = s.lh := rfl
@[simp] theorem State.setCkp_frame (s : State) (c : Ckp) : (s.setCkp c).frame = s.frame := rfl
@[simp] theorem State.setCkp_doms (s : State) (c : Ckp) : (s.setCkp c).doms = s.doms := rfl
@[simp] theorem State.setCkp_avs (s : State) (c : Ckp) : (s.setCkp c).avs = s.avs := rfl
@[simp] theorem State.setCkp_meter (s : State) (c : Ckp) : (s.setCkp c).meter = s.meter := rfl
@[simp] theorem State.setCkp_fuses (s : State) (c : Ckp) : (s.setCkp c).fuses = s.fuses := rfl
@[simp] theorem State.setCkp_boot (s : State) (c : Ckp) : (s.setCkp c).boot = s.boot := rfl
@[simp] theorem State.setCkp_thermal (s : State) (c : Ckp) : (s.setCkp c).thermal = s.thermal := rfl
@[simp] theorem State.setCkp_refresh (s : State) (c : Ckp) : (s.setCkp c).refresh = s.refresh := rfl
@[simp] theorem State.setCkp_fac (s : State) (c : Ckp) : (s.setCkp c).fac = s.fac := rfl
@[simp] theorem State.setCkp_pil (s : State) (c : Ckp) : (s.setCkp c).pil = s.pil := rfl
@[simp] theorem State.setCkp_archs (s : State) (c : Ckp) : (s.setCkp c).archs = s.archs := rfl
@[simp] theorem State.setCkp_requests (s : State) (c : Ckp) : (s.setCkp c).requests = s.requests := rfl
@[simp] theorem State.setCkp_isles (s : State) (c : Ckp) : (s.setCkp c).isles = s.isles := rfl
@[simp] theorem State.setCkp_slices (s : State) (c : Ckp) : (s.setCkp c).slices = s.slices := rfl
@[simp] theorem State.setCkp_image (s : State) (c : Ckp) : (s.setCkp c).image = s.image := rfl
@[simp] theorem State.setCkp_staged (s : State) (c : Ckp) : (s.setCkp c).staged = s.staged := rfl
@[simp] theorem State.setCkp_imageAddr (s : State) (c : Ckp) : (s.setCkp c).imageAddr = s.imageAddr := rfl
@[simp] theorem State.setCkp_sched (s : State) (c : Ckp) : (s.setCkp c).sched = s.sched := rfl
@[simp] theorem State.setCkp_quays (s : State) (c : Ckp) : (s.setCkp c).quays = s.quays := rfl
@[simp] theorem State.setCkp_cycleOps (s : State) (c : Ckp) : (s.setCkp c).cycleOps = s.cycleOps := rfl
@[simp] theorem State.setCkp_cycleArms (s : State) (c : Ckp) : (s.setCkp c).cycleArms = s.cycleArms := rfl
@[simp] theorem State.setCkp_ports (s : State) (c : Ckp) : (s.setCkp c).ports = s.ports := rfl
@[simp] theorem State.setCkp_hif (s : State) (c : Ckp) : (s.setCkp c).hif = s.hif := rfl
@[simp] theorem State.setCkp_lagoon (s : State) (c : Ckp) : (s.setCkp c).lagoon = s.lagoon := rfl
@[simp] theorem State.setCkp_lagoonErr (s : State) (c : Ckp) : (s.setCkp c).lagoonErr = s.lagoonErr := rfl
@[simp] theorem State.setCkp_stored (s : State) (c : Ckp) : (s.setCkp c).stored = s.stored := rfl

/-! `State.draw`. -/
@[simp] theorem State.draw_value (s : State) : s.draw.1 = s.draws := rfl
@[simp] theorem State.draw_draws (s : State) : s.draw.2.draws = s.draws + 1 := rfl
@[simp] theorem State.draw_pending (s : State) : s.draw.2.pending = s.pending := rfl
@[simp] theorem State.draw_regs (s : State) : s.draw.2.regs = s.regs := rfl
@[simp] theorem State.draw_pwrShadow (s : State) : s.draw.2.pwrShadow = s.pwrShadow := rfl
@[simp] theorem State.draw_out (s : State) : s.draw.2.out = s.out := rfl
@[simp] theorem State.draw_log (s : State) : s.draw.2.log = s.log := rfl
@[simp] theorem State.draw_pldm (s : State) : s.draw.2.pldm = s.pldm := rfl
@[simp] theorem State.draw_pldmTries (s : State) : s.draw.2.pldmTries = s.pldmTries := rfl
@[simp] theorem State.draw_keelQueue (s : State) : s.draw.2.keelQueue = s.keelQueue := rfl
@[simp] theorem State.draw_keel (s : State) : s.draw.2.keel = s.keel := rfl
@[simp] theorem State.draw_lh (s : State) : s.draw.2.lh = s.lh := rfl
@[simp] theorem State.draw_frame (s : State) : s.draw.2.frame = s.frame := rfl
@[simp] theorem State.draw_doms (s : State) : s.draw.2.doms = s.doms := rfl
@[simp] theorem State.draw_avs (s : State) : s.draw.2.avs = s.avs := rfl
@[simp] theorem State.draw_meter (s : State) : s.draw.2.meter = s.meter := rfl
@[simp] theorem State.draw_fuses (s : State) : s.draw.2.fuses = s.fuses := rfl
@[simp] theorem State.draw_boot (s : State) : s.draw.2.boot = s.boot := rfl
@[simp] theorem State.draw_ckp (s : State) : s.draw.2.ckp = s.ckp := rfl
@[simp] theorem State.draw_thermal (s : State) : s.draw.2.thermal = s.thermal := rfl
@[simp] theorem State.draw_refresh (s : State) : s.draw.2.refresh = s.refresh := rfl
@[simp] theorem State.draw_fac (s : State) : s.draw.2.fac = s.fac := rfl
@[simp] theorem State.draw_pil (s : State) : s.draw.2.pil = s.pil := rfl
@[simp] theorem State.draw_archs (s : State) : s.draw.2.archs = s.archs := rfl
@[simp] theorem State.draw_requests (s : State) : s.draw.2.requests = s.requests := rfl
@[simp] theorem State.draw_isles (s : State) : s.draw.2.isles = s.isles := rfl
@[simp] theorem State.draw_slices (s : State) : s.draw.2.slices = s.slices := rfl
@[simp] theorem State.draw_image (s : State) : s.draw.2.image = s.image := rfl
@[simp] theorem State.draw_staged (s : State) : s.draw.2.staged = s.staged := rfl
@[simp] theorem State.draw_imageAddr (s : State) : s.draw.2.imageAddr = s.imageAddr := rfl
@[simp] theorem State.draw_sched (s : State) : s.draw.2.sched = s.sched := rfl
@[simp] theorem State.draw_quays (s : State) : s.draw.2.quays = s.quays := rfl
@[simp] theorem State.draw_cycleOps (s : State) : s.draw.2.cycleOps = s.cycleOps := rfl
@[simp] theorem State.draw_cycleArms (s : State) : s.draw.2.cycleArms = s.cycleArms := rfl
@[simp] theorem State.draw_ports (s : State) : s.draw.2.ports = s.ports := rfl
@[simp] theorem State.draw_hif (s : State) : s.draw.2.hif = s.hif := rfl
@[simp] theorem State.draw_lagoon (s : State) : s.draw.2.lagoon = s.lagoon := rfl
@[simp] theorem State.draw_lagoonErr (s : State) : s.draw.2.lagoonErr = s.lagoonErr := rfl
@[simp] theorem State.draw_stored (s : State) : s.draw.2.stored = s.stored := rfl

end Sys2Proof.Machine
end

