-- ==== Sys2Proof/Laws/Fields.lean ====
section
/-!
SUPPORT. Laws of register fields: what a field reads after a write to it and after a write to another, and that a write keeps the
fields in canonical form.
-/
namespace Sys2Proof.Machine

/-- Two fields are held apart. -/
def Field.apart (f g : Field) : Prop := f.key ≠ g.key

@[simp] theorem State.get_set_same (s : State) (f : Field) (v : Nat) : (s.set f v).get f = v % 2 ^ f.width := by
  simp [State.get, State.set]

theorem State.get_set_apart {f g : Field} (h : f.key ≠ g.key) (s : State) (v : Nat) : (s.set f v).get g = s.get g := by
  simp only [State.get, State.set]; exact KMap.get_put_ne _ _ _ _ h

/-- A read depends on the register fields alone. -/
theorem State.get_congr {s t : State} (h : t.regs = s.regs) (f : Field) : t.get f = s.get f := by simp [State.get, h]

theorem State.get_setFlag_apart {f g : Field} (h : f.key ≠ g.key) (s : State) (b : Bool) : (s.setFlag f b).get g = s.get g :=
  State.get_set_apart h s _
theorem State.get_bump_apart {f g : Field} (h : f.key ≠ g.key) (s : State) (n : Nat) : (s.bump f n).get g = s.get g :=
  State.get_set_apart h s _
theorem State.get_count_apart {f g : Field} (h : f.key ≠ g.key) (s : State) (n : Nat) : (s.count f n).get g = s.get g :=
  State.get_set_apart h s _

/-- A field write keeps the fields in rising key order. -/
@[simp] theorem State.set_rising {s : State} (h : s.regs.rising = true) (f : Field) (v : Nat) :
    (s.set f v).regs.rising = true := KMap.rising_put h

/-- A copy of a field keeps its bit position, width, access code and reset value. -/
@[simp] theorem Field.at_lo (f : Field) (ix : List Nat) : (f.at ix).lo = f.lo := rfl
@[simp] theorem Field.at_width (f : Field) (ix : List Nat) : (f.at ix).width = f.width := rfl
@[simp] theorem Field.at_acc (f : Field) (ix : List Nat) : (f.at ix).acc = f.acc := rfl
@[simp] theorem Field.at_reset (f : Field) (ix : List Nat) : (f.at ix).reset = f.reset := rfl

/-- Where the copy of a field is held. -/
theorem Field.at_key (f : Field) (ix : List Nat) :
    (f.at ix).key = (f.addr + ((f.dims.zip ix).map (fun p => p.1.2 * p.2)).sum) * 64 + f.lo := rfl

/-- Setting the words of a register of several copies leaves every field held elsewhere. -/
theorem State.get_setWords_apart (s : State) (f : Nat → Field) (ws : List Nat) (g : Field)
    (h : ∀ k < ws.length, (f k).key ≠ g.key) : (s.setWords f ws).get g = s.get g := by
  have main : ∀ (l : List (Nat × Nat)) (t : State), (∀ p ∈ l, (f p.2).key ≠ g.key) →
      (l.foldl (fun t p => t.set (f p.2) p.1) t).get g = t.get g := by
    intro l
    induction l with
    | nil => intro t _; rfl
    | cons p l ih =>
      intro t hl
      rw [List.foldl_cons, ih _ (fun q hq => hl q (by simp [hq])), State.get_set_apart (hl p (by simp))]
  refine main _ s (fun p hp => h p.2 ?_)
  have := (List.of_mem_zip hp).2
  simpa using this

end Sys2Proof.Machine
end

