-- ==== Sys2Proof/Laws/Events.lean ====
section
/-!
SUPPORT. What raising an event and queueing a record can change: register fields of the keel, event and pilot blocks, the event log,
the PLDM queue and the keel queue. Everything else is as it was.
-/
namespace Sys2Proof.Machine

/-- The block of BAR0 that holds a field. -/
def Field.block (f : Field) : Nat := f.key / 2 ^ 26

/-- A field that no event changes: it lies outside the keel, event and pilot blocks. -/
def Field.quiet (f : Field) : Bool := f.block != 8 && f.block != 10 && f.block != 12

/-- Only the event log, its registers and the queues it feeds differ. -/
structure LogOnly (s t : State) : Prop where
  rest : t = { s with regs := t.regs, log := t.log, pldm := t.pldm, keelQueue := t.keelQueue }
  get : ∀ f : Field, f.quiet = true → t.get f = s.get f
  rising : s.regs.rising = true → t.regs.rising = true

namespace LogOnly

theorem refl (s : State) : LogOnly s s := ⟨rfl, fun _ _ => rfl, id⟩

theorem trans {s t u : State} (h : LogOnly s t) (k : LogOnly t u) : LogOnly s u where
  rest := by
    have h1 := h.rest; have h2 := k.rest
    generalize u.regs = a at h2; generalize u.log = b at h2; generalize u.pldm = c at h2; generalize u.keelQueue = d at h2
    subst h2
    generalize t.regs = a' at h1; generalize t.log = b' at h1; generalize t.pldm = c' at h1; generalize t.keelQueue = d' at h1
    subst h1; rfl
  get f hf := (k.get f hf).trans (h.get f hf)
  rising r := k.rising (h.rising r)

theorem log (s : State) (l : EventLog) : LogOnly s { s with log := l } := ⟨rfl, fun _ _ => rfl, id⟩
theorem pldm (s : State) (q : List PldmEvent) : LogOnly s { s with pldm := q } := ⟨rfl, fun _ _ => rfl, id⟩
theorem queue (s : State) (q : List KeelRecord) : LogOnly s { s with keelQueue := q } := ⟨rfl, fun _ _ => rfl, id⟩

theorem key_ne {f g : Field} (hf : f.quiet = false) (hg : g.quiet = true) : f.key ≠ g.key := by
  intro h
  have : f.quiet = g.quiet := by unfold Field.quiet Field.block; rw [h]
  rw [hf, hg] at this
  exact Bool.noConfusion this

theorem set (s : State) {f : Field} (hf : f.quiet = false) (v : Nat) : LogOnly s (s.set f v) :=
  ⟨rfl, fun _ hg => State.get_set_apart (key_ne hf hg) s v, fun r => State.set_rising r f v⟩

theorem setFlag (s : State) {f : Field} (hf : f.quiet = false) (b : Bool) : LogOnly s (s.setFlag f b) := set s hf _
theorem bump (s : State) {f : Field} (hf : f.quiet = false) (n : Nat) : LogOnly s (s.bump f n) := set s hf _

theorem foldl {α : Type} (g : State → α → State) (h : ∀ t x, LogOnly t (g t x)) (l : List α) (s : State) :
    LogOnly s (l.foldl g s) := by
  induction l generalizing s with
  | nil => exact refl s
  | cons x l ih => exact (h s x).trans (ih (g s x))

theorem ite {s a b : State} {c : Prop} [Decidable c] (ha : LogOnly s a) (hb : LogOnly s b) : LogOnly s (if c then a else b) := by
  split
  · exact ha
  · exact hb

theorem setWords (s : State) (f : Nat → Field) (ws : List Nat) (h : ∀ k < ws.length, (f k).quiet = false) :
    LogOnly s (s.setWords f ws) where
  rest := by
    have main : ∀ (l : List (Nat × Nat)) (t : State),
        (l.foldl (fun t p => t.set (f p.2) p.1) t) = { t with regs := (l.foldl (fun t p => t.set (f p.2) p.1) t).regs } := by
      intro l
      induction l with
      | nil => intro t; rfl
      | cons p l ih => intro t; rw [List.foldl_cons, ih]; rfl
    have h := main (ws.zip (List.range ws.length)) s
    unfold State.setWords
    generalize (ws.zip (List.range ws.length)).foldl (fun t p => t.set (f p.2) p.1) s = u at h
    rw [h]
  get g hg := State.get_setWords_apart s f ws g (fun k hk => key_ne (h k hk) hg)
  rising r := by
    have main : ∀ (l : List (Nat × Nat)) (t : State), t.regs.rising = true →
        (l.foldl (fun t p => t.set (f p.2) p.1) t).regs.rising = true := by
      intro l
      induction l with
      | nil => intro t h; exact h
      | cons p l ih => intro t h; exact ih _ (State.set_rising h _ _)
    exact main _ s r

end LogOnly

theorem Entry.words_length (e : Entry) : e.words.length = 4 := rfl

theorem enterRing_logOnly (e : Entry) (s : State) : LogOnly s (enterRing e s) := by
  have hw : LogOnly s (s.setWords (fun w => R.EVT_LOG_DATA.at [e.seq % 4096, w]) e.words) := by
    apply LogOnly.setWords
    intro k hk
    rw [Entry.words_length] at hk
    have : e.seq % 4096 < 4096 := Nat.mod_lt _ (by omega)
    have hb : (R.EVT_LOG_DATA.at [e.seq % 4096, k]).block = 10 := by
      simp only [Field.block, Field.at_key, R.EVT_LOG_DATA, List.zip_cons_cons, List.zip_nil_right, List.map_cons,
        List.map_nil, List.sum_cons, List.sum_nil]
      omega
    simp only [Field.quiet, hb]; rfl
  unfold enterRing
  simp only []
  split
  · exact hw
  · refine LogOnly.trans hw (LogOnly.trans (LogOnly.ite (LogOnly.bump _ (by decide) _) (LogOnly.refl _)) (LogOnly.set _ (by decide) _))

theorem setPldm_logOnly (q : List PldmEvent) (s : State) : LogOnly s (setPldm q s) :=
  (LogOnly.pldm s q).trans (LogOnly.set _ (by decide) _)

theorem pldmPut_logOnly (e : PldmEvent) (s : State) : LogOnly s (pldmPut e s) := by
  unfold pldmPut
  split
  · exact LogOnly.refl s
  · split
    · exact setPldm_logOnly _ _
    · refine (LogOnly.bump s (f := R.PIL_PLDM_FWD_DROPPED) (by decide) 1).trans ?_
      simp only []
      split
      · exact setPldm_logOnly _ _
      · exact LogOnly.refl _

theorem forwardEvent_logOnly (e : Entry) (s : State) : LogOnly s (forwardEvent e s) := by
  unfold forwardEvent
  split
  · exact pldmPut_logOnly _ _
  · exact LogOnly.refl s

theorem beginEvent_logOnly (code unit detail : Nat) (s : State) : LogOnly s (beginEvent code unit detail s).2 := by
  unfold beginEvent
  simp only []
  refine LogOnly.trans (LogOnly.set s (f := R.EVT_SEQ_NEXT_SEQ) (by decide) _) (LogOnly.trans (LogOnly.ite ?_ (LogOnly.refl _))
    (LogOnly.trans (LogOnly.ite (LogOnly.log _ _) (LogOnly.refl _)) (forwardEvent_logOnly _ _)))
  refine LogOnly.trans (LogOnly.setWords _ (fun w => R.EVT_FATAL_DATA.at [w]) _ ?_) (LogOnly.setFlag _ (by decide) _)
  intro k hk
  rw [Entry.words_length] at hk
  have hb : (R.EVT_FATAL_DATA.at [k]).block = 10 := by
    simp only [Field.block, Field.at_key, R.EVT_FATAL_DATA, List.zip_cons_cons, List.zip_nil_right, List.map_cons,
      List.map_nil, List.sum_cons, List.sum_nil]
    omega
  simp only [Field.quiet, hb]; rfl

theorem freezeRing_logOnly (s : State) : LogOnly s (freezeRing s) := by
  unfold freezeRing
  have h := beginEvent_logOnly 0x0A02 0xFFFF 0 s
  generalize beginEvent 0x0A02 0xFFFF 0 s = p at h
  obtain ⟨e, t⟩ := p
  exact h.trans ((enterRing_logOnly e t).trans ((LogOnly.log _ _).trans (LogOnly.setFlag _ (by decide) _)))

theorem afterEntry_logOnly (e : Entry) (s : State) : LogOnly s (afterEntry e s) := by
  unfold afterEntry
  split
  · split
    · exact freezeRing_logOnly s
    · exact LogOnly.log _ _
  · split
    · simp only []
      split
      · exact freezeRing_logOnly s
      · exact LogOnly.log _ _
    · exact LogOnly.refl s

/-- Entering an event changes the event log, its registers and the PLDM queue alone. -/
theorem enterEvent_logOnly (code unit detail : Nat) (s : State) : LogOnly s (enterEvent code unit detail s) := by
  unfold enterEvent
  have h := beginEvent_logOnly code unit detail s
  generalize beginEvent code unit detail s = p at h
  obtain ⟨e, t⟩ := p
  simp only []
  split
  · exact h.trans (LogOnly.bump _ (by decide) _)
  · split
    · exact h.trans ((LogOnly.log t _).trans
        (LogOnly.bump _ (by decide) _))
    · exact h.trans ((enterRing_logOnly e t).trans ((LogOnly.log _ _).trans
        (afterEntry_logOnly _ _)))

theorem firstInFrame_logOnly (code unit : Nat) (s : State) : LogOnly s (firstInFrame code unit s).2 := by
  unfold firstInFrame
  split
  · exact LogOnly.refl s
  · exact LogOnly.log _ _

theorem droppedEvent_logOnly (s : State) : LogOnly s (droppedEvent s) := by
  unfold droppedEvent
  have h := firstInFrame_logOnly 0x0807 0xFFFF s
  generalize firstInFrame 0x0807 0xFFFF s = p at h
  obtain ⟨b, t⟩ := p
  exact h.trans (LogOnly.ite (enterEvent_logOnly _ _ _ _) (LogOnly.refl _))

theorem fitQueue_logOnly (n : Nat) (s : State) : LogOnly s (fitQueue n s) := by
  induction n generalizing s with
  | zero => exact LogOnly.refl s
  | succ n ih =>
    unfold fitQueue
    split
    · exact LogOnly.refl s
    · split
      · exact LogOnly.refl s
      · refine LogOnly.trans ?_ (ih _)
        exact ((LogOnly.queue s _).trans (LogOnly.bump _ (by decide) _)).trans
          (droppedEvent_logOnly _)

/-- Queueing a journal record changes the keel queue, its registers and, where an EVENT record is dropped, the event log. -/
theorem keelAppend_logOnly (kind : Nat) (payload : List Nat) (s : State) : LogOnly s (keelAppend kind payload s) := by
  unfold keelAppend
  exact ((LogOnly.queue s _).trans (LogOnly.set _ (by decide) _)).trans
    (fitQueue_logOnly _ _)

theorem persistRecord_logOnly (s : State) : LogOnly s (persistRecord s) := by
  unfold persistRecord
  simp only []
  split
  · exact LogOnly.refl s
  · exact (LogOnly.log s _).trans (keelAppend_logOnly _ _ _)

theorem persistAll_logOnly (n : Nat) (s : State) : LogOnly s (persistAll n s) := by
  induction n generalizing s with
  | zero => exact LogOnly.refl s
  | succ n ih => exact (persistRecord_logOnly s).trans (ih _)

theorem logEvent_logOnly (code unit detail : Nat) (s : State) : LogOnly s (logEvent code unit detail s) := by
  unfold logEvent
  exact (enterEvent_logOnly code unit detail s).trans (LogOnly.ite (persistAll_logOnly _ _) (LogOnly.refl _))

/-- What a raise can change. -/
theorem raise_logOnly (code unit detail : Nat) (s : State) : LogOnly s (raise code unit detail s) := by
  unfold raise
  split
  · exact LogOnly.log _ _
  · exact logEvent_logOnly _ _ _ _

theorem raiseOnce_logOnly (code unit detail : Nat) (s : State) : LogOnly s (raiseOnce code unit detail s) := by
  unfold raiseOnce
  have h := firstInFrame_logOnly code unit s
  generalize firstInFrame code unit s = p at h
  obtain ⟨b, t⟩ := p
  exact h.trans (LogOnly.ite (raise_logOnly _ _ _ _) (LogOnly.refl _))

/-! Field by field. -/

theorem LogOnly.pending_eq {s t : State} (h : LogOnly s t) : t.pending = s.pending := by rw [h.rest]
theorem LogOnly.out_eq {s t : State} (h : LogOnly s t) : t.out = s.out := by rw [h.rest]
theorem LogOnly.draws_eq {s t : State} (h : LogOnly s t) : t.draws = s.draws := by rw [h.rest]
theorem LogOnly.pldmTries_eq {s t : State} (h : LogOnly s t) : t.pldmTries = s.pldmTries := by rw [h.rest]
theorem LogOnly.keel_eq {s t : State} (h : LogOnly s t) : t.keel = s.keel := by rw [h.rest]
theorem LogOnly.lh_eq {s t : State} (h : LogOnly s t) : t.lh = s.lh := by rw [h.rest]
theorem LogOnly.frame_eq {s t : State} (h : LogOnly s t) : t.frame = s.frame := by rw [h.rest]
theorem LogOnly.doms_eq {s t : State} (h : LogOnly s t) : t.doms = s.doms := by rw [h.rest]
theorem LogOnly.avs_eq {s t : State} (h : LogOnly s t) : t.avs = s.avs := by rw [h.rest]
theorem LogOnly.meter_eq {s t : State} (h : LogOnly s t) : t.meter = s.meter := by rw [h.rest]
theorem LogOnly.fuses_eq {s t : State} (h : LogOnly s t) : t.fuses = s.fuses := by rw [h.rest]
theorem LogOnly.boot_eq {s t : State} (h : LogOnly s t) : t.boot = s.boot := by rw [h.rest]
theorem LogOnly.ckp_eq {s t : State} (h : LogOnly s t) : t.ckp = s.ckp := by rw [h.rest]
theorem LogOnly.thermal_eq {s t : State} (h : LogOnly s t) : t.thermal = s.thermal := by rw [h.rest]
theorem LogOnly.refresh_eq {s t : State} (h : LogOnly s t) : t.refresh = s.refresh := by rw [h.rest]
theorem LogOnly.fac_eq {s t : State} (h : LogOnly s t) : t.fac = s.fac := by rw [h.rest]
theorem LogOnly.pil_eq {s t : State} (h : LogOnly s t) : t.pil = s.pil := by rw [h.rest]
theorem LogOnly.archs_eq {s t : State} (h : LogOnly s t) : t.archs = s.archs := by rw [h.rest]
theorem LogOnly.requests_eq {s t : State} (h : LogOnly s t) : t.requests = s.requests := by rw [h.rest]
theorem LogOnly.isles_eq {s t : State} (h : LogOnly s t) : t.isles = s.isles := by rw [h.rest]
theorem LogOnly.slices_eq {s t : State} (h : LogOnly s t) : t.slices = s.slices := by rw [h.rest]
theorem LogOnly.image_eq {s t : State} (h : LogOnly s t) : t.image = s.image := by rw [h.rest]
theorem LogOnly.staged_eq {s t : State} (h : LogOnly s t) : t.staged = s.staged := by rw [h.rest]
theorem LogOnly.sched_eq {s t : State} (h : LogOnly s t) : t.sched = s.sched := by rw [h.rest]
theorem LogOnly.quays_eq {s t : State} (h : LogOnly s t) : t.quays = s.quays := by rw [h.rest]
theorem LogOnly.ports_eq {s t : State} (h : LogOnly s t) : t.ports = s.ports := by rw [h.rest]
theorem LogOnly.hif_eq {s t : State} (h : LogOnly s t) : t.hif = s.hif := by rw [h.rest]
theorem LogOnly.lagoon_eq {s t : State} (h : LogOnly s t) : t.lagoon = s.lagoon := by rw [h.rest]
theorem LogOnly.lagoonErr_eq {s t : State} (h : LogOnly s t) : t.lagoonErr = s.lagoonErr := by rw [h.rest]
theorem LogOnly.stored_eq {s t : State} (h : LogOnly s t) : t.stored = s.stored := by rw [h.rest]
theorem LogOnly.pwrShadow_eq {s t : State} (h : LogOnly s t) : t.pwrShadow = s.pwrShadow := by rw [h.rest]
theorem LogOnly.imageAddr_eq {s t : State} (h : LogOnly s t) : t.imageAddr = s.imageAddr := by rw [h.rest]
theorem LogOnly.cycleOps_eq {s t : State} (h : LogOnly s t) : t.cycleOps = s.cycleOps := by rw [h.rest]
theorem LogOnly.cycleArms_eq {s t : State} (h : LogOnly s t) : t.cycleArms = s.cycleArms := by rw [h.rest]

@[simp] theorem raise_pending (c u d : Nat) (s : State) : (raise c u d s).pending = s.pending := (raise_logOnly c u d s).pending_eq
@[simp] theorem raise_out (c u d : Nat) (s : State) : (raise c u d s).out = s.out := (raise_logOnly c u d s).out_eq
@[simp] theorem raise_draws (c u d : Nat) (s : State) : (raise c u d s).draws = s.draws := (raise_logOnly c u d s).draws_eq
@[simp] theorem raise_pldmTries (c u d : Nat) (s : State) : (raise c u d s).pldmTries = s.pldmTries := (raise_logOnly c u d s).pldmTries_eq
@[simp] theorem raise_keel (c u d : Nat) (s : State) : (raise c u d s).keel = s.keel := (raise_logOnly c u d s).keel_eq
@[simp] theorem raise_lh (c u d : Nat) (s : State) : (raise c u d s).lh = s.lh := (raise_logOnly c u d s).lh_eq
@[simp] theorem raise_frame (c u d : Nat) (s : State) : (raise c u d s).frame = s.frame := (raise_logOnly c u d s).frame_eq
@[simp] theorem raise_doms (c u d : Nat) (s : State) : (raise c u d s).doms = s.doms := (raise_logOnly c u d s).doms_eq
@[simp] theorem raise_avs (c u d : Nat) (s : State) : (raise c u d s).avs = s.avs := (raise_logOnly c u d s).avs_eq
@[simp] theorem raise_meter (c u d : Nat) (s : State) : (raise c u d s).meter = s.meter := (raise_logOnly c u d s).meter_eq
@[simp] theorem raise_fuses (c u d : Nat) (s : State) : (raise c u d s).fuses = s.fuses := (raise_logOnly c u d s).fuses_eq
@[simp] theorem raise_boot (c u d : Nat) (s : State) : (raise c u d s).boot = s.boot := (raise_logOnly c u d s).boot_eq
@[simp] theorem raise_ckp (c u d : Nat) (s : State) : (raise c u d s).ckp = s.ckp := (raise_logOnly c u d s).ckp_eq
@[simp] theorem raise_thermal (c u d : Nat) (s : State) : (raise c u d s).thermal = s.thermal := (raise_logOnly c u d s).thermal_eq
@[simp] theorem raise_refresh (c u d : Nat) (s : State) : (raise c u d s).refresh = s.refresh := (raise_logOnly c u d s).refresh_eq
@[simp] theorem raise_fac (c u d : Nat) (s : State) : (raise c u d s).fac = s.fac := (raise_logOnly c u d s).fac_eq
@[simp] theorem raise_pil (c u d : Nat) (s : State) : (raise c u d s).pil = s.pil := (raise_logOnly c u d s).pil_eq
@[simp] theorem raise_archs (c u d : Nat) (s : State) : (raise c u d s).archs = s.archs := (raise_logOnly c u d s).archs_eq
@[simp] theorem raise_requests (c u d : Nat) (s : State) : (raise c u d s).requests = s.requests := (raise_logOnly c u d s).requests_eq
@[simp] theorem raise_isles (c u d : Nat) (s : State) : (raise c u d s).isles = s.isles := (raise_logOnly c u d s).isles_eq
@[simp] theorem raise_slices (c u d : Nat) (s : State) : (raise c u d s).slices = s.slices := (raise_logOnly c u d s).slices_eq
@[simp] theorem raise_image (c u d : Nat) (s : State) : (raise c u d s).image = s.image := (raise_logOnly c u d s).image_eq
@[simp] theorem raise_staged (c u d : Nat) (s : State) : (raise c u d s).staged = s.staged := (raise_logOnly c u d s).staged_eq
@[simp] theorem raise_sched (c u d : Nat) (s : State) : (raise c u d s).sched = s.sched := (raise_logOnly c u d s).sched_eq
@[simp] theorem raise_quays (c u d : Nat) (s : State) : (raise c u d s).quays = s.quays := (raise_logOnly c u d s).quays_eq
@[simp] theorem raise_ports (c u d : Nat) (s : State) : (raise c u d s).ports = s.ports := (raise_logOnly c u d s).ports_eq
@[simp] theorem raise_hif (c u d : Nat) (s : State) : (raise c u d s).hif = s.hif := (raise_logOnly c u d s).hif_eq
@[simp] theorem raise_lagoon (c u d : Nat) (s : State) : (raise c u d s).lagoon = s.lagoon := (raise_logOnly c u d s).lagoon_eq
@[simp] theorem raise_lagoonErr (c u d : Nat) (s : State) : (raise c u d s).lagoonErr = s.lagoonErr := (raise_logOnly c u d s).lagoonErr_eq
@[simp] theorem raise_stored (c u d : Nat) (s : State) : (raise c u d s).stored = s.stored := (raise_logOnly c u d s).stored_eq
@[simp] theorem raise_cycleArms (c u d : Nat) (s : State) : (raise c u d s).cycleArms = s.cycleArms :=
  (raise_logOnly c u d s).cycleArms_eq
@[simp] theorem raise_cycleOps (c u d : Nat) (s : State) : (raise c u d s).cycleOps = s.cycleOps :=
  (raise_logOnly c u d s).cycleOps_eq
@[simp] theorem raise_imageAddr (c u d : Nat) (s : State) : (raise c u d s).imageAddr = s.imageAddr :=
  (raise_logOnly c u d s).imageAddr_eq
@[simp] theorem raise_pwrShadow (c u d : Nat) (s : State) : (raise c u d s).pwrShadow = s.pwrShadow :=
  (raise_logOnly c u d s).pwrShadow_eq

@[simp] theorem raiseOnce_pending (c u d : Nat) (s : State) : (raiseOnce c u d s).pending = s.pending := (raiseOnce_logOnly c u d s).pending_eq
@[simp] theorem raiseOnce_out (c u d : Nat) (s : State) : (raiseOnce c u d s).out = s.out := (raiseOnce_logOnly c u d s).out_eq
@[simp] theorem raiseOnce_draws (c u d : Nat) (s : State) : (raiseOnce c u d s).draws = s.draws := (raiseOnce_logOnly c u d s).draws_eq
@[simp] theorem raiseOnce_pldmTries (c u d : Nat) (s : State) : (raiseOnce c u d s).pldmTries = s.pldmTries := (raiseOnce_logOnly c u d s).pldmTries_eq
@[simp] theorem raiseOnce_keel (c u d : Nat) (s : State) : (raiseOnce c u d s).keel = s.keel := (raiseOnce_logOnly c u d s).keel_eq
@[simp] theorem raiseOnce_lh (c u d : Nat) (s : State) : (raiseOnce c u d s).lh = s.lh := (raiseOnce_logOnly c u d s).lh_eq
@[simp] theorem raiseOnce_frame (c u d : Nat) (s : State) : (raiseOnce c u d s).frame = s.frame := (raiseOnce_logOnly c u d s).frame_eq
@[simp] theorem raiseOnce_doms (c u d : Nat) (s : State) : (raiseOnce c u d s).doms = s.doms := (raiseOnce_logOnly c u d s).doms_eq
@[simp] theorem raiseOnce_avs (c u d : Nat) (s : State) : (raiseOnce c u d s).avs = s.avs := (raiseOnce_logOnly c u d s).avs_eq
@[simp] theorem raiseOnce_meter (c u d : Nat) (s : State) : (raiseOnce c u d s).meter = s.meter := (raiseOnce_logOnly c u d s).meter_eq
@[simp] theorem raiseOnce_fuses (c u d : Nat) (s : State) : (raiseOnce c u d s).fuses = s.fuses := (raiseOnce_logOnly c u d s).fuses_eq
@[simp] theorem raiseOnce_boot (c u d : Nat) (s : State) : (raiseOnce c u d s).boot = s.boot := (raiseOnce_logOnly c u d s).boot_eq
@[simp] theorem raiseOnce_ckp (c u d : Nat) (s : State) : (raiseOnce c u d s).ckp = s.ckp := (raiseOnce_logOnly c u d s).ckp_eq
@[simp] theorem raiseOnce_thermal (c u d : Nat) (s : State) : (raiseOnce c u d s).thermal = s.thermal := (raiseOnce_logOnly c u d s).thermal_eq
@[simp] theorem raiseOnce_refresh (c u d : Nat) (s : State) : (raiseOnce c u d s).refresh = s.refresh := (raiseOnce_logOnly c u d s).refresh_eq
@[simp] theorem raiseOnce_fac (c u d : Nat) (s : State) : (raiseOnce c u d s).fac = s.fac := (raiseOnce_logOnly c u d s).fac_eq
@[simp] theorem raiseOnce_pil (c u d : Nat) (s : State) : (raiseOnce c u d s).pil = s.pil := (raiseOnce_logOnly c u d s).pil_eq
@[simp] theorem raiseOnce_archs (c u d : Nat) (s : State) : (raiseOnce c u d s).archs = s.archs := (raiseOnce_logOnly c u d s).archs_eq
@[simp] theorem raiseOnce_requests (c u d : Nat) (s : State) : (raiseOnce c u d s).requests = s.requests := (raiseOnce_logOnly c u d s).requests_eq
@[simp] theorem raiseOnce_isles (c u d : Nat) (s : State) : (raiseOnce c u d s).isles = s.isles := (raiseOnce_logOnly c u d s).isles_eq
@[simp] theorem raiseOnce_slices (c u d : Nat) (s : State) : (raiseOnce c u d s).slices = s.slices := (raiseOnce_logOnly c u d s).slices_eq
@[simp] theorem raiseOnce_image (c u d : Nat) (s : State) : (raiseOnce c u d s).image = s.image := (raiseOnce_logOnly c u d s).image_eq
@[simp] theorem raiseOnce_staged (c u d : Nat) (s : State) : (raiseOnce c u d s).staged = s.staged := (raiseOnce_logOnly c u d s).staged_eq
@[simp] theorem raiseOnce_sched (c u d : Nat) (s : State) : (raiseOnce c u d s).sched = s.sched := (raiseOnce_logOnly c u d s).sched_eq
@[simp] theorem raiseOnce_quays (c u d : Nat) (s : State) : (raiseOnce c u d s).quays = s.quays := (raiseOnce_logOnly c u d s).quays_eq
@[simp] theorem raiseOnce_ports (c u d : Nat) (s : State) : (raiseOnce c u d s).ports = s.ports := (raiseOnce_logOnly c u d s).ports_eq
@[simp] theorem raiseOnce_hif (c u d : Nat) (s : State) : (raiseOnce c u d s).hif = s.hif := (raiseOnce_logOnly c u d s).hif_eq
@[simp] theorem raiseOnce_lagoon (c u d : Nat) (s : State) : (raiseOnce c u d s).lagoon = s.lagoon := (raiseOnce_logOnly c u d s).lagoon_eq
@[simp] theorem raiseOnce_lagoonErr (c u d : Nat) (s : State) : (raiseOnce c u d s).lagoonErr = s.lagoonErr := (raiseOnce_logOnly c u d s).lagoonErr_eq
@[simp] theorem raiseOnce_stored (c u d : Nat) (s : State) : (raiseOnce c u d s).stored = s.stored := (raiseOnce_logOnly c u d s).stored_eq
@[simp] theorem raiseOnce_cycleArms (c u d : Nat) (s : State) : (raiseOnce c u d s).cycleArms = s.cycleArms :=
  (raiseOnce_logOnly c u d s).cycleArms_eq
@[simp] theorem raiseOnce_cycleOps (c u d : Nat) (s : State) : (raiseOnce c u d s).cycleOps = s.cycleOps :=
  (raiseOnce_logOnly c u d s).cycleOps_eq
@[simp] theorem raiseOnce_imageAddr (c u d : Nat) (s : State) : (raiseOnce c u d s).imageAddr = s.imageAddr :=
  (raiseOnce_logOnly c u d s).imageAddr_eq
@[simp] theorem raiseOnce_pwrShadow (c u d : Nat) (s : State) : (raiseOnce c u d s).pwrShadow = s.pwrShadow :=
  (raiseOnce_logOnly c u d s).pwrShadow_eq

@[simp] theorem keelAppend_pending (k : Nat) (b : List Nat) (s : State) : (keelAppend k b s).pending = s.pending := (keelAppend_logOnly k b s).pending_eq
@[simp] theorem keelAppend_out (k : Nat) (b : List Nat) (s : State) : (keelAppend k b s).out = s.out := (keelAppend_logOnly k b s).out_eq
@[simp] theorem keelAppend_draws (k : Nat) (b : List Nat) (s : State) : (keelAppend k b s).draws = s.draws := (keelAppend_logOnly k b s).draws_eq
@[simp] theorem keelAppend_pldmTries (k : Nat) (b : List Nat) (s : State) : (keelAppend k b s).pldmTries = s.pldmTries := (keelAppend_logOnly k b s).pldmTries_eq
@[simp] theorem keelAppend_keel (k : Nat) (b : List Nat) (s : State) : (keelAppend k b s).keel = s.keel := (keelAppend_logOnly k b s).keel_eq
@[simp] theorem keelAppend_lh (k : Nat) (b : List Nat) (s : State) : (keelAppend k b s).lh = s.lh := (keelAppend_logOnly k b s).lh_eq
@[simp] theorem keelAppend_frame (k : Nat) (b : List Nat) (s : State) : (keelAppend k b s).frame = s.frame := (keelAppend_logOnly k b s).frame_eq
@[simp] theorem keelAppend_doms (k : Nat) (b : List Nat) (s : State) : (keelAppend k b s).doms = s.doms := (keelAppend_logOnly k b s).doms_eq
@[simp] theorem keelAppend_avs (k : Nat) (b : List Nat) (s : State) : (keelAppend k b s).avs = s.avs := (keelAppend_logOnly k b s).avs_eq
@[simp] theorem keelAppend_meter (k : Nat) (b : List Nat) (s : State) : (keelAppend k b s).meter = s.meter := (keelAppend_logOnly k b s).meter_eq
@[simp] theorem keelAppend_fuses (k : Nat) (b : List Nat) (s : State) : (keelAppend k b s).fuses = s.fuses := (keelAppend_logOnly k b s).fuses_eq
@[simp] theorem keelAppend_boot (k : Nat) (b : List Nat) (s : State) : (keelAppend k b s).boot = s.boot := (keelAppend_logOnly k b s).boot_eq
@[simp] theorem keelAppend_ckp (k : Nat) (b : List Nat) (s : State) : (keelAppend k b s).ckp = s.ckp := (keelAppend_logOnly k b s).ckp_eq
@[simp] theorem keelAppend_thermal (k : Nat) (b : List Nat) (s : State) : (keelAppend k b s).thermal = s.thermal := (keelAppend_logOnly k b s).thermal_eq
@[simp] theorem keelAppend_refresh (k : Nat) (b : List Nat) (s : State) : (keelAppend k b s).refresh = s.refresh := (keelAppend_logOnly k b s).refresh_eq
@[simp] theorem keelAppend_fac (k : Nat) (b : List Nat) (s : State) : (keelAppend k b s).fac = s.fac := (keelAppend_logOnly k b s).fac_eq
@[simp] theorem keelAppend_pil (k : Nat) (b : List Nat) (s : State) : (keelAppend k b s).pil = s.pil := (keelAppend_logOnly k b s).pil_eq
@[simp] theorem keelAppend_archs (k : Nat) (b : List Nat) (s : State) : (keelAppend k b s).archs = s.archs := (keelAppend_logOnly k b s).archs_eq
@[simp] theorem keelAppend_requests (k : Nat) (b : List Nat) (s : State) : (keelAppend k b s).requests = s.requests := (keelAppend_logOnly k b s).requests_eq
@[simp] theorem keelAppend_isles (k : Nat) (b : List Nat) (s : State) : (keelAppend k b s).isles = s.isles := (keelAppend_logOnly k b s).isles_eq
@[simp] theorem keelAppend_slices (k : Nat) (b : List Nat) (s : State) : (keelAppend k b s).slices = s.slices := (keelAppend_logOnly k b s).slices_eq
@[simp] theorem keelAppend_image (k : Nat) (b : List Nat) (s : State) : (keelAppend k b s).image = s.image := (keelAppend_logOnly k b s).image_eq
@[simp] theorem keelAppend_staged (k : Nat) (b : List Nat) (s : State) : (keelAppend k b s).staged = s.staged := (keelAppend_logOnly k b s).staged_eq
@[simp] theorem keelAppend_sched (k : Nat) (b : List Nat) (s : State) : (keelAppend k b s).sched = s.sched := (keelAppend_logOnly k b s).sched_eq
@[simp] theorem keelAppend_quays (k : Nat) (b : List Nat) (s : State) : (keelAppend k b s).quays = s.quays := (keelAppend_logOnly k b s).quays_eq
@[simp] theorem keelAppend_ports (k : Nat) (b : List Nat) (s : State) : (keelAppend k b s).ports = s.ports := (keelAppend_logOnly k b s).ports_eq
@[simp] theorem keelAppend_hif (k : Nat) (b : List Nat) (s : State) : (keelAppend k b s).hif = s.hif := (keelAppend_logOnly k b s).hif_eq
@[simp] theorem keelAppend_lagoon (k : Nat) (b : List Nat) (s : State) : (keelAppend k b s).lagoon = s.lagoon := (keelAppend_logOnly k b s).lagoon_eq
@[simp] theorem keelAppend_lagoonErr (k : Nat) (b : List Nat) (s : State) : (keelAppend k b s).lagoonErr = s.lagoonErr := (keelAppend_logOnly k b s).lagoonErr_eq
@[simp] theorem keelAppend_stored (k : Nat) (b : List Nat) (s : State) : (keelAppend k b s).stored = s.stored := (keelAppend_logOnly k b s).stored_eq
@[simp] theorem keelAppend_cycleArms (k : Nat) (b : List Nat) (s : State) : (keelAppend k b s).cycleArms = s.cycleArms :=
  (keelAppend_logOnly k b s).cycleArms_eq
@[simp] theorem keelAppend_cycleOps (k : Nat) (b : List Nat) (s : State) : (keelAppend k b s).cycleOps = s.cycleOps :=
  (keelAppend_logOnly k b s).cycleOps_eq
@[simp] theorem keelAppend_imageAddr (k : Nat) (b : List Nat) (s : State) : (keelAppend k b s).imageAddr = s.imageAddr :=
  (keelAppend_logOnly k b s).imageAddr_eq
@[simp] theorem keelAppend_pwrShadow (k : Nat) (b : List Nat) (s : State) : (keelAppend k b s).pwrShadow = s.pwrShadow :=
  (keelAppend_logOnly k b s).pwrShadow_eq

/-- A register outside the keel, event and pilot blocks reads through a raise as it did. -/
@[simp] theorem raise_get (c u d : Nat) (s : State) {f : Field} (h : f.quiet = true) : (raise c u d s).get f = s.get f :=
  (raise_logOnly c u d s).get f h
@[simp] theorem raiseOnce_get (c u d : Nat) (s : State) {f : Field} (h : f.quiet = true) :
    (raiseOnce c u d s).get f = s.get f := (raiseOnce_logOnly c u d s).get f h
@[simp] theorem keelAppend_get (k : Nat) (b : List Nat) (s : State) {f : Field} (h : f.quiet = true) :
    (keelAppend k b s).get f = s.get f := (keelAppend_logOnly k b s).get f h

end Sys2Proof.Machine
end

