-- ==== Sys2Proof/Laws/Memory.lean ====
section
/-!
SUPPORT. Laws of the lagoons and of the stored words: a read after a write, and that every operation over a memory keeps the stores
in their canonical form.
-/
namespace Sys2Proof.Machine

/-! The canonical form, clause by clause. -/

theorem Memory.wf_iff (s : State) : Memory.wf s = true ↔
    s.regs.rising = true ∧ s.lagoon.rising = true ∧ s.stored.rising = true ∧
      (s.lagoonErr.rising = true ∧ ∀ e ∈ s.lagoonErr, e.2 ≠ 0) ∧
      (∀ e ∈ s.lagoon, e.2 ≠ 0#8 ∨ openByte s (e.1 / 2 ^ 20) (e.1 % 2 ^ 20) = true) ∧
      ∀ e ∈ s.stored, e.2 ≠ storedUnlisted (e.1 / 64 % 2 ^ 24 * 32) (e.1 % 64) := by
  simp only [Memory.wf, Bool.and_eq_true, List.all_eq_true, Bool.or_eq_true, bne_iff_ne, and_assoc]

/-- The machine after reset lists nothing. -/
theorem Memory.wf_reset : Memory.wf State.reset = true := by decide +kernel

/-- What differs in nothing that the canonical form speaks of but the register fields keeps it. -/
theorem Memory.wf_regs {s t : State} (h : Memory.wf s = true) (hr : t.regs.rising = true) (hl : t.lagoon = s.lagoon)
    (hs : t.stored = s.stored) (hi : t.isles = s.isles) (he : t.lagoonErr = s.lagoonErr) : Memory.wf t = true := by
  rw [Memory.wf_iff] at *
  obtain ⟨_, h2, h3, h6, h4, h5⟩ := h
  have ho : ∀ i a, openByte t i a = openByte s i a := fun i a => by unfold openByte State.isle; rw [hi]
  refine ⟨hr, hl ▸ h2, hs ▸ h3, he ▸ h6, ?_, hs ▸ h5⟩
  intro e he
  rw [ho]
  exact h4 e (hl ▸ he)

/-- A register field written. -/
@[simp] theorem Memory.wf_set {s : State} (h : Memory.wf s = true) (f : Field) (v : Nat) : Memory.wf (s.set f v) = true :=
  Memory.wf_regs h (State.set_rising ((Memory.wf_iff s).mp h).1 f v) rfl rfl rfl rfl

@[simp] theorem Memory.wf_setFlag {s : State} (h : Memory.wf s = true) (f : Field) (b : Bool) :
    Memory.wf (s.setFlag f b) = true := Memory.wf_set h f _
@[simp] theorem Memory.wf_bump {s : State} (h : Memory.wf s = true) (f : Field) (n : Nat) : Memory.wf (s.bump f n) = true :=
  Memory.wf_set h f _
@[simp] theorem Memory.wf_count {s : State} (h : Memory.wf s = true) (f : Field) (n : Nat) : Memory.wf (s.count f n) = true :=
  Memory.wf_set h f _

/-! Lagoons. -/

theorem lagoonKey_div (i a : Nat) : lagoonKey i a / 2 ^ 20 = i := by unfold lagoonKey; omega
theorem lagoonKey_mod (i a : Nat) : lagoonKey i a % 2 ^ 20 = a % 2 ^ 20 := by unfold lagoonKey; omega

/-- Two bytes held at one place are the same byte of the same lagoon. -/
theorem lagoonKey_inj {i j a b : Nat} (h : lagoonKey i a = lagoonKey j b) : i = j ∧ a % 2 ^ 20 = b % 2 ^ 20 := by
  unfold lagoonKey at h; omega

theorem openByte_lagoonPut (i a j b : Nat) (v : Byte) (s : State) :
    openByte (lagoonPut i a v s) j b = openByte s j b := by
  unfold lagoonPut; simp only []; split <;> rfl

theorem lagoonUnlisted_lagoonPut (i a j b : Nat) (v : Byte) (s : State) :
    lagoonUnlisted (lagoonPut i a v s) j b = lagoonUnlisted s j b := by
  unfold lagoonPut; simp only []; split <;> rfl

/-- A byte that does not read as open when unlisted reads as the zero of the fill (R333). -/
theorem lagoonUnlisted_closed {s : State} {i a : Nat} (h : openByte s i (a % 2 ^ 20) = false) : lagoonUnlisted s i a = 0#8 := by
  unfold openByte at h
  unfold lagoonUnlisted
  simp only []
  split
  · rename_i n hn
    simp only [hn, Option.isSome_some, Bool.true_and, decide_eq_false_iff_not] at h
    rw [if_neg h]
  · rfl

/-- A byte is held as it was written. -/
@[simp] theorem lagoonHeld_put_same (i a : Nat) (v : Byte) (s : State) : lagoonHeld (lagoonPut i a v s) i a = v := by
  unfold lagoonHeld
  rw [lagoonUnlisted_lagoonPut]
  unfold lagoonPut
  simp only []
  split
  · exact KMap.get_insert_same _ _ _ _ (fun e he => (KMap.mem_erase.mp he).2)
  · rename_i h
    rw [lagoonUnlisted_closed (by simpa using h)]
    exact KMap.get_put_same _ _ _ _

/-- A write leaves every other byte held as it was. -/
theorem lagoonHeld_put_apart {i a j b : Nat} (h : i ≠ j ∨ a % 2 ^ 20 ≠ b % 2 ^ 20) (v : Byte) (s : State) :
    lagoonHeld (lagoonPut i a v s) j b = lagoonHeld s j b := by
  have hk : lagoonKey i a ≠ lagoonKey j b := by
    intro hk; have := lagoonKey_inj hk; omega
  unfold lagoonHeld
  rw [lagoonUnlisted_lagoonPut]
  unfold lagoonPut
  simp only []
  split
  · rw [KMap.get_insert_ne _ _ _ hk, KMap.get_erase_ne _ _ hk]
  · exact KMap.get_put_ne _ _ _ _ hk

@[simp] theorem lagoonErr_put (i a : Nat) (v : Byte) (s : State) : (lagoonPut i a v s).lagoonErr = s.lagoonErr := by
  unfold lagoonPut; simp only []; split <;> rfl

@[simp] theorem lagoonErr_putBytes (i a : Nat) (bs : List Nat) (s : State) : (putBytes i a bs s).lagoonErr = s.lagoonErr := by
  induction bs generalizing a s with
  | nil => rfl
  | cons b bs ih => exact (ih _ _).trans (lagoonErr_put _ _ _ _)

@[simp] theorem lagoonHeld_setLagoonErr (i a e : Nat) (s : State) (j b : Nat) :
    lagoonHeld (setLagoonErr i a e s) j b = lagoonHeld s j b := rfl
@[simp] theorem lagoonErr_setLagoonErr (i a e : Nat) (s : State) :
    (setLagoonErr i a e s).lagoonErr = KMap.put 0 s.lagoonErr (lagoonWord i a) e := rfl

/-- A byte outside a run is held as it was. -/
theorem lagoonHeld_putBytes_apart {i a j b : Nat} (bs : List Nat) (s : State)
    (h : i ≠ j ∨ ∀ k < bs.length, (a + k) % 2 ^ 20 ≠ b % 2 ^ 20) :
    lagoonHeld (putBytes i a bs s) j b = lagoonHeld s j b := by
  induction bs generalizing a s with
  | nil => rfl
  | cons x bs ih =>
    show lagoonHeld (putBytes i (a + 1) bs (lagoonPut i a _ s)) j b = _
    rw [ih, lagoonHeld_put_apart]
    · rcases h with h | h
      · exact Or.inl h
      · exact Or.inr (by simpa using h 0 (by simp))
    · rcases h with h | h
      · exact Or.inl h
      · refine Or.inr (fun k hk => ?_)
        have := h (k + 1) (by simpa using hk)
        rwa [show a + (k + 1) = a + 1 + k by omega] at this

/-- A byte of a run no longer than the lagoon is held as it was written. -/
theorem lagoonHeld_putBytes_at {i a : Nat} (bs : List Nat) (s : State) (hn : bs.length ≤ 2 ^ 20) (k : Nat) (hk : k < bs.length) :
    lagoonHeld (putBytes i a bs s) i (a + k) = BitVec.ofNat 8 bs[k] := by
  induction bs generalizing a s k with
  | nil => exact absurd hk (by simp)
  | cons x bs ih =>
    simp only [List.length_cons] at hn hk
    show lagoonHeld (putBytes i (a + 1) bs (lagoonPut i a _ s)) i (a + k) = _
    cases k with
    | zero =>
      rw [lagoonHeld_putBytes_apart bs _ (Or.inr (fun j hj => by omega))]
      exact lagoonHeld_put_same i a _ s
    | succ k =>
      have := ih (a := a + 1) (lagoonPut i a (BitVec.ofNat 8 x) s) (by omega) k (by omega)
      rw [show a + (k + 1) = a + 1 + k by omega]
      simpa using this

/-! The check of a lagoon word. -/

/-- The number of a lagoon word says whose it is. -/
theorem lagoonWord_inj {i j a b : Nat} (h : lagoonWord i a = lagoonWord j b) : i = j ∧ a % 2 ^ 20 / 8 = b % 2 ^ 20 / 8 := by
  unfold lagoonWord at h; omega

/-- What a read delivers depends on the word it is in: the bytes held there, and the bits in error. -/
theorem lagoonGet_congr {s t : State} {i a : Nat} (hh : ∀ b, b % 2 ^ 20 / 8 = a % 2 ^ 20 / 8 → lagoonHeld t i b = lagoonHeld s i b)
    (he : KMap.get 0 t.lagoonErr (lagoonWord i a) = KMap.get 0 s.lagoonErr (lagoonWord i a)) :
    lagoonGet t i a = lagoonGet s i a := by
  have hw : lagoonWordHeld t i a = lagoonWordHeld s i a := by
    unfold lagoonWordHeld
    refine congrArg leNat (List.map_congr_left (fun k hk => hh _ ?_))
    have := List.mem_range.mp hk
    omega
  unfold lagoonGet lagoonOutcomeAt
  rw [he, hw, hh a rfl]

/-- A word with no bit in error is delivered as it is held. -/
theorem lagoonGet_clean {s : State} {i a : Nat} (h : KMap.get 0 s.lagoonErr (lagoonWord i a) = 0) :
    lagoonGet s i a = lagoonHeld s i a := by
  unfold lagoonGet lagoonOutcomeAt
  rw [h]; rfl

/-- A word that R309 leaves uncorrectable is delivered as it is held. -/
theorem lagoonGet_stillBad {s : State} {i a : Nat} (h : KMap.get 0 s.lagoonErr (lagoonWord i a) = stillBad) :
    lagoonGet s i a = lagoonHeld s i a := by
  have hc : ∀ w, lagoonCheck w stillBad = .bad stillBad := fun w => by
    unfold lagoonCheck; rw [show popCount 72 stillBad = 2 by decide +kernel]; rfl
  have ho : lagoonOutcomeAt s i a = .bad stillBad := by
    unfold lagoonOutcomeAt; rw [h]; exact hc _
  have hz : ∀ k, k < 8 → bits stillBad (8 * k) 8 = 0 := by decide +kernel
  unfold lagoonGet
  rw [ho]
  show BitVec.xor _ (BitVec.ofNat 8 (bits stillBad (8 * (a % 8)) 8)) = _
  rw [hz (a % 8) (by omega)]
  exact BitVec.xor_zero

theorem lagoonGet_settled {s : State} {i a : Nat}
    (h : KMap.get 0 s.lagoonErr (lagoonWord i a) = 0 ∨ KMap.get 0 s.lagoonErr (lagoonWord i a) = stillBad) :
    lagoonGet s i a = lagoonHeld s i a := h.elim lagoonGet_clean lagoonGet_stillBad

/-- A byte is held in the lagoon that its address names modulo the size of it. -/
theorem lagoonHeld_mod (s : State) (i a : Nat) : lagoonHeld s i (a % 2 ^ 20) = lagoonHeld s i a := by
  unfold lagoonHeld lagoonUnlisted lagoonKey; rw [Nat.mod_mod]

theorem lagoonGet_mod (s : State) (i a : Nat) : lagoonGet s i (a % 2 ^ 20) = lagoonGet s i a := by
  have h8 : a % 2 ^ 20 % 8 = a % 8 := by omega
  unfold lagoonGet lagoonOutcomeAt lagoonWordHeld lagoonWord
  rw [Nat.mod_mod, h8, lagoonHeld_mod]

/-- A word with bits in error is settled: its bytes are written as they were delivered. -/
theorem settleWord_of_ne {i a : Nat} {s : State} (h : KMap.get 0 s.lagoonErr (lagoonWord i a) ≠ 0) :
    ∃ e, (e = 0 ∨ e = stillBad) ∧ settleWord i a s = setLagoonErr i a e
      (putBytes i (a % 2 ^ 20 / 8 * 8) (lagoonRead s i (a % 2 ^ 20 / 8 * 8) 8) s) := by
  obtain ⟨n, hn⟩ := Nat.exists_eq_succ_of_ne_zero h
  unfold settleWord
  rw [hn]
  cases lagoonOutcomeAt s i a with
  | bad w => exact ⟨stillBad, Or.inr rfl, rfl⟩
  | clean w => exact ⟨0, Or.inl rfl, rfl⟩
  | corrected w => exact ⟨0, Or.inl rfl, rfl⟩

/-- A settled word is held as it was delivered, and its bits in error no longer change what a read delivers. -/
theorem settleWord_held (i a : Nat) (s : State) (j b : Nat) :
    (KMap.get 0 s.lagoonErr (lagoonWord i a) = 0 → settleWord i a s = s) ∧
    (KMap.get 0 s.lagoonErr (lagoonWord i a) ≠ 0 →
      (lagoonHeld (settleWord i a s) j b =
        if i = j ∧ a % 2 ^ 20 / 8 = b % 2 ^ 20 / 8 then lagoonGet s j b else lagoonHeld s j b) ∧
      ∃ e, (e = 0 ∨ e = stillBad) ∧ (settleWord i a s).lagoonErr = KMap.put 0 s.lagoonErr (lagoonWord i a) e) := by
  have hb : ∀ t : State, t = putBytes i (a % 2 ^ 20 / 8 * 8) (lagoonRead s i (a % 2 ^ 20 / 8 * 8) 8) s →
      lagoonHeld t j b = if i = j ∧ a % 2 ^ 20 / 8 = b % 2 ^ 20 / 8 then lagoonGet s j b else lagoonHeld s j b := by
    rintro t rfl
    have hl : (lagoonRead s i (a % 2 ^ 20 / 8 * 8) 8).length = 8 := by simp [lagoonRead]
    split
    · rename_i h
      obtain ⟨rfl, h⟩ := h
      have hk := lagoonHeld_putBytes_at (i := i) (a := a % 2 ^ 20 / 8 * 8) (lagoonRead s i (a % 2 ^ 20 / 8 * 8) 8) s (by omega)
        (b % 2 ^ 20 % 8) (by omega)
      have he : a % 2 ^ 20 / 8 * 8 + b % 2 ^ 20 % 8 = b % 2 ^ 20 := by omega
      rw [he, lagoonHeld_mod] at hk
      rw [hk]
      simp only [lagoonRead, List.getElem_map, List.getElem_range, he, lagoonGet_mod, BitVec.ofNat_toNat, BitVec.setWidth_eq]
    · rename_i h
      refine lagoonHeld_putBytes_apart _ _ ?_
      rw [hl]
      by_cases hi : i = j
      · exact Or.inr (fun k hk => by have : ¬ a % 2 ^ 20 / 8 = b % 2 ^ 20 / 8 := fun h' => h ⟨hi, h'⟩; omega)
      · exact Or.inl hi
  constructor
  · intro h
    unfold settleWord
    rw [h]; rfl
  · intro h
    obtain ⟨e, he, hs⟩ := settleWord_of_ne h
    exact ⟨by rw [hs, lagoonHeld_setLagoonErr]; exact hb _ rfl, e, he, by rw [hs, lagoonErr_setLagoonErr, lagoonErr_putBytes]⟩

/-- Settling a word changes nothing that a read delivers (R309). -/
@[simp] theorem lagoonGet_settleWord (i a : Nat) (s : State) (j b : Nat) : lagoonGet (settleWord i a s) j b = lagoonGet s j b := by
  by_cases h : KMap.get 0 s.lagoonErr (lagoonWord i a) = 0
  · rw [(settleWord_held i a s j b).1 h]
  · obtain ⟨hh, e, he, hp⟩ := (settleWord_held i a s j b).2 h
    by_cases hw : i = j ∧ a % 2 ^ 20 / 8 = b % 2 ^ 20 / 8
    · have hk : lagoonWord j b = lagoonWord i a := by unfold lagoonWord; omega
      rw [lagoonGet_settled, hh, if_pos hw]
      rw [hp, hk, KMap.get_put_same]; exact he
    · refine lagoonGet_congr (fun c hc => ?_) ?_
      · rw [((settleWord_held i a s j c).2 h).1, if_neg (fun hx => hw ⟨hx.1, hx.2.trans hc⟩)]
      · rw [hp, KMap.get_put_ne _ _ _ _ (fun hx => hw (lagoonWord_inj hx))]

/-- The word of a settled address is free of what could change the bytes that a read delivers. -/
theorem settleWord_settled (i a : Nat) (s : State) :
    KMap.get 0 (settleWord i a s).lagoonErr (lagoonWord i a) = 0 ∨
      KMap.get 0 (settleWord i a s).lagoonErr (lagoonWord i a) = stillBad := by
  by_cases h : KMap.get 0 s.lagoonErr (lagoonWord i a) = 0
  · rw [(settleWord_held i a s i a).1 h]; exact Or.inl h
  · obtain ⟨_, e, he, hp⟩ := (settleWord_held i a s i a).2 h
    rw [hp, KMap.get_put_same]; exact he

/-- Settling a second word leaves the first as it is. -/
theorem settleWord_keeps {i a j b : Nat} {s : State}
    (h : KMap.get 0 s.lagoonErr (lagoonWord j b) = 0 ∨ KMap.get 0 s.lagoonErr (lagoonWord j b) = stillBad) :
    KMap.get 0 (settleWord i a s).lagoonErr (lagoonWord j b) = 0 ∨
      KMap.get 0 (settleWord i a s).lagoonErr (lagoonWord j b) = stillBad := by
  by_cases hw : lagoonWord i a = lagoonWord j b
  · rw [← hw]; exact settleWord_settled i a s
  · by_cases h0 : KMap.get 0 s.lagoonErr (lagoonWord i a) = 0
    · rw [(settleWord_held i a s j b).1 h0]; exact h
    · obtain ⟨_, e, _, hp⟩ := (settleWord_held i a s j b).2 h0
      rw [hp, KMap.get_put_ne _ _ _ _ hw]; exact h

@[simp] theorem lagoonHeld_freshWords (i first stop : Nat) (s : State) (j b : Nat) :
    lagoonHeld (freshWords i first stop s) j b = lagoonHeld s j b := rfl

/-- A word is made free of error only where it stands in the span, or before the end of what of the span is past the lagoon. -/
theorem freshWords_err {i first stop j b : Nat} (s : State)
    (h : i ≠ j ∨ (b % 2 ^ 20 / 8 < first ∨ stop ≤ b % 2 ^ 20 / 8) ∧ stop - 2 ^ 17 ≤ b % 2 ^ 20 / 8) :
    KMap.get 0 (freshWords i first stop s).lagoonErr (lagoonWord j b) = KMap.get 0 s.lagoonErr (lagoonWord j b) := by
  have hm : ∀ x, Nat.min x (2 ^ 17) = min x (2 ^ 17) := fun _ => rfl
  unfold freshWords
  simp only []
  rw [KMap.get_dropRange_out, KMap.get_dropRange_out]
  · unfold lagoonWord; rw [hm]; omega
  · unfold lagoonWord; rw [hm]; omega

/-- A word free of error, or settled, stays so. -/
theorem freshWords_keeps {i first stop j b : Nat} {s : State}
    (h : KMap.get 0 s.lagoonErr (lagoonWord j b) = 0 ∨ KMap.get 0 s.lagoonErr (lagoonWord j b) = stillBad) :
    KMap.get 0 (freshWords i first stop s).lagoonErr (lagoonWord j b) = 0 ∨
      KMap.get 0 (freshWords i first stop s).lagoonErr (lagoonWord j b) = stillBad := by
  unfold freshWords
  exact KMap.get_dropRange_or (KMap.get_dropRange_or h)

/-- A byte outside a run reads as it did: a word of which the run covers only a part is merged as it is delivered (R118, R309). -/
theorem lagoonGet_write_apart {i a j b : Nat} (bs : List Nat) (s : State)
    (h : i ≠ j ∨ ∀ k < bs.length, (a + k) % 2 ^ 20 ≠ b % 2 ^ 20) : lagoonGet (lagoonWrite i a bs s) j b = lagoonGet s j b := by
  unfold lagoonWrite
  simp only []
  split
  · rfl
  rename_i hn
  generalize hs1 : (if a % 8 = 0 then s else settleWord i a s) = s1
  generalize hs2 : (if (a + bs.length) % 8 = 0 then s1 else settleWord i (a + bs.length - 1) s1) = s2
  have hg1 : lagoonGet s1 j b = lagoonGet s j b := by rw [← hs1]; split <;> simp only [lagoonGet_settleWord]
  have hg : lagoonGet s2 j b = lagoonGet s j b := by rw [← hg1, ← hs2]; split <;> simp only [lagoonGet_settleWord]
  rw [← hg]
  by_cases hw : i = j ∧ ∃ k < bs.length, (a + k) % 2 ^ 20 / 8 = b % 2 ^ 20 / 8
  · obtain ⟨rfl, k, hk, hkw⟩ := hw
    have hb : ∀ k < bs.length, (a + k) % 2 ^ 20 ≠ b % 2 ^ 20 := h.resolve_left (fun h => h rfl)
    have hset : KMap.get 0 s2.lagoonErr (lagoonWord i b) = 0 ∨ KMap.get 0 s2.lagoonErr (lagoonWord i b) = stillBad := by
      by_cases hfirst : a % 8 ≠ 0 ∧ a % 2 ^ 20 / 8 = b % 2 ^ 20 / 8
      · have h1 : KMap.get 0 s1.lagoonErr (lagoonWord i b) = 0 ∨ KMap.get 0 s1.lagoonErr (lagoonWord i b) = stillBad := by
          rw [← hs1, if_neg hfirst.1, show lagoonWord i b = lagoonWord i a by unfold lagoonWord; rw [hfirst.2]]
          exact settleWord_settled i a s
        rw [← hs2]; split
        · exact h1
        · exact settleWord_keeps h1
      · have hlast : (a + bs.length) % 8 ≠ 0 ∧ (a + bs.length - 1) % 2 ^ 20 / 8 = b % 2 ^ 20 / 8 := by
          by_cases hlt : b % 8 ≤ (a + k) % 8
          · exfalso
            have hk2 : (a + k) % 8 - b % 8 ≤ k ∨ k < (a + k) % 8 - b % 8 := by omega
            rcases hk2 with hk2 | hk2
            · exact hb (k - ((a + k) % 8 - b % 8)) (by omega) (by omega)
            · exact hfirst ⟨by omega, by omega⟩
          · have hk2 : k + (b % 8 - (a + k) % 8) < bs.length ∨ bs.length ≤ k + (b % 8 - (a + k) % 8) := by omega
            rcases hk2 with hk2 | hk2
            · exact absurd (show (a + (k + (b % 8 - (a + k) % 8))) % 2 ^ 20 = b % 2 ^ 20 by omega) (hb _ hk2)
            · exact ⟨by omega, by omega⟩
        rw [← hs2, if_neg hlast.1,
          show lagoonWord i b = lagoonWord i (a + bs.length - 1) by unfold lagoonWord; rw [hlast.2]]
        exact settleWord_settled i _ s1
    rw [lagoonGet_settled hset, lagoonGet_settled (freshWords_keeps (by rw [lagoonErr_putBytes]; exact hset)),
      lagoonHeld_freshWords, lagoonHeld_putBytes_apart bs s2 (Or.inr hb)]
  · have hi : i ≠ j ∨ ∀ k < bs.length, (a + k) % 2 ^ 20 / 8 ≠ b % 2 ^ 20 / 8 := by
      by_cases hi : i = j
      · exact Or.inr (fun k hk he => hw ⟨hi, k, hk, he⟩)
      · exact Or.inl hi
    refine lagoonGet_congr (fun c hc => ?_) ?_
    · rw [lagoonHeld_freshWords, lagoonHeld_putBytes_apart bs s2]
      refine hi.imp_right (fun hi k hk he => hi k hk ?_)
      rw [he]; exact hc
    · rw [freshWords_err, lagoonErr_putBytes]
      refine hi.imp_right (fun hi => ?_)
      have h0 := hi 0 (by omega)
      have hx : b % 2 ^ 20 / 8 < (a % 2 ^ 20 + 7) / 8 ∨ (a % 2 ^ 20 + bs.length) / 8 ≤ b % 2 ^ 20 / 8 := by
        refine Decidable.byContradiction (fun hc => hi (b % 2 ^ 20 / 8 * 8 - a % 2 ^ 20) ?_ ?_) <;> omega
      refine ⟨hx, Decidable.byContradiction (fun hc => hi (2 ^ 20 - a % 2 ^ 20 + b % 2 ^ 20 / 8 * 8) ?_ ?_)⟩ <;> omega

/-- A byte of a run no longer than the lagoon reads as it was written. -/
theorem lagoonGet_write_at {i a : Nat} (bs : List Nat) (s : State) (hn : bs.length ≤ 2 ^ 20) (k : Nat) (hk : k < bs.length) :
    lagoonGet (lagoonWrite i a bs s) i (a + k) = BitVec.ofNat 8 bs[k] := by
  unfold lagoonWrite
  simp only []
  rw [if_neg (by omega)]
  generalize hs1 : (if a % 8 = 0 then s else settleWord i a s) = s1
  generalize hs2 : (if (a + bs.length) % 8 = 0 then s1 else settleWord i (a + bs.length - 1) s1) = s2
  have hheld := lagoonHeld_putBytes_at (i := i) (a := a) bs s2 hn k hk
  rw [lagoonGet_settled, lagoonHeld_freshWords, hheld]
  by_cases hfirst : a % 8 ≠ 0 ∧ a % 2 ^ 20 / 8 = (a + k) % 2 ^ 20 / 8
  · refine freshWords_keeps ?_
    rw [lagoonErr_putBytes]
    have h1 : KMap.get 0 s1.lagoonErr (lagoonWord i (a + k)) = 0 ∨ KMap.get 0 s1.lagoonErr (lagoonWord i (a + k)) = stillBad := by
      rw [← hs1, if_neg hfirst.1, show lagoonWord i (a + k) = lagoonWord i a by unfold lagoonWord; rw [hfirst.2]]
      exact settleWord_settled i a s
    rw [← hs2]; split
    · exact h1
    · exact settleWord_keeps h1
  · by_cases hlast : (a + bs.length) % 8 ≠ 0 ∧ (a + bs.length - 1) % 2 ^ 20 / 8 = (a + k) % 2 ^ 20 / 8
    · refine freshWords_keeps ?_
      rw [lagoonErr_putBytes, ← hs2, if_neg hlast.1,
        show lagoonWord i (a + k) = lagoonWord i (a + bs.length - 1) by unfold lagoonWord; rw [hlast.2]]
      exact settleWord_settled i _ s1
    · left
      have hm : ∀ x, Nat.min x (2 ^ 17) = min x (2 ^ 17) := fun _ => rfl
      unfold freshWords lagoonWord
      simp only []
      by_cases hwrap : (a + k) % 2 ^ 20 < a % 2 ^ 20
      · rw [KMap.get_dropRange_in]
        · omega
        · rw [hm]; omega
      · refine KMap.get_dropRange_unlisted (KMap.get_dropRange_in ?_ ?_)
        · omega
        · rw [hm]; omega

theorem Memory.wf_lagoonPut {s : State} (h : Memory.wf s = true) (i a : Nat) (v : Byte) :
    Memory.wf (lagoonPut i a v s) = true := by
  have hw := (Memory.wf_iff s).mp h
  obtain ⟨h1, h2, h3, h6, h4, h5⟩ := hw
  have ho := fun j b => openByte_lagoonPut i a j b v s
  rw [Memory.wf_iff]
  simp only [ho]
  unfold lagoonPut
  simp only []
  split
  · rename_i hb
    refine ⟨h1, KMap.rising_insert (KMap.rising_erase h2) (fun e he => (KMap.mem_erase.mp he).2), h3, h6, ?_, h5⟩
    intro e he
    rcases KMap.mem_insert.mp he with rfl | he
    · exact Or.inr (by rw [lagoonKey_div, lagoonKey_mod]; exact hb)
    · exact h4 e (KMap.mem_erase.mp he).1
  · refine ⟨h1, KMap.rising_put h2, h3, h6, ?_, h5⟩
    intro e he
    rcases KMap.mem_put he with ⟨rfl, hv⟩ | ⟨he, _⟩
    · exact Or.inl hv
    · exact h4 e he

theorem Memory.wf_putBytes {s : State} (h : Memory.wf s = true) (i a : Nat) (bs : List Nat) :
    Memory.wf (putBytes i a bs s) = true := by
  induction bs generalizing a s with
  | nil => exact h
  | cons b bs ih => exact ih (Memory.wf_lagoonPut h i a _) _

/-- Lagoon words whose bits in error are listed anew, in rising order and none of them free of error. -/
theorem Memory.wf_lagoonErr {s : State} (h : Memory.wf s = true) {m : KMap Nat} (hr : m.rising = true)
    (hz : ∀ e ∈ m, e.2 ≠ 0) : Memory.wf { s with lagoonErr := m } = true := by
  rw [Memory.wf_iff] at *
  obtain ⟨h1, h2, h3, _, h4, h5⟩ := h
  exact ⟨h1, h2, h3, ⟨hr, hz⟩, h4, h5⟩

/-- Lagoon words made free of error. -/
theorem Memory.wf_dropErr {s : State} (h : Memory.wf s = true) (lo hi : Nat) :
    Memory.wf { s with lagoonErr := s.lagoonErr.dropRange lo hi } = true := by
  obtain ⟨hr, hz⟩ := ((Memory.wf_iff s).mp h).2.2.2.1
  exact Memory.wf_lagoonErr h (KMap.rising_dropRange hr) (fun e he => hz e (KMap.mem_dropRange.mp he).1)

@[simp] theorem Memory.wf_setLagoonErr {s : State} (h : Memory.wf s = true) (i a e : Nat) :
    Memory.wf (setLagoonErr i a e s) = true := by
  obtain ⟨hr, hz⟩ := ((Memory.wf_iff s).mp h).2.2.2.1
  refine Memory.wf_lagoonErr h (KMap.rising_put hr) (fun e he => ?_)
  rcases KMap.mem_put he with ⟨rfl, hv⟩ | ⟨he, _⟩
  · exact hv
  · exact hz e he

@[simp] theorem Memory.wf_settleWord {s : State} (h : Memory.wf s = true) (i a : Nat) : Memory.wf (settleWord i a s) = true := by
  by_cases h0 : KMap.get 0 s.lagoonErr (lagoonWord i a) = 0
  · rw [(settleWord_held i a s i a).1 h0]; exact h
  · obtain ⟨e, _, hs⟩ := settleWord_of_ne h0
    rw [hs]; exact Memory.wf_setLagoonErr (Memory.wf_putBytes h _ _ _) _ _ _

@[simp] theorem Memory.wf_freshWords {s : State} (h : Memory.wf s = true) (i first stop : Nat) :
    Memory.wf (freshWords i first stop s) = true := Memory.wf_dropErr (Memory.wf_dropErr h _ _) _ _

/-- A run of bytes written. -/
@[simp] theorem Memory.wf_lagoonWrite {s : State} (h : Memory.wf s = true) (i a : Nat) (bs : List Nat) :
    Memory.wf (lagoonWrite i a bs s) = true := by
  unfold lagoonWrite
  simp only []
  split
  · exact h
  · refine Memory.wf_freshWords (Memory.wf_putBytes ?_ _ _ _) _ _ _
    split
    · split
      · exact h
      · exact Memory.wf_settleWord h _ _
    · refine Memory.wf_settleWord ?_ _ _
      split
      · exact h
      · exact Memory.wf_settleWord h _ _

/-- An isle's record changed, where no byte that is listed as zero stops being open. -/
theorem Memory.wf_setIsle {s : State} (h : Memory.wf s = true) (i : Nat) (v : Isle)
    (hv : ∀ e ∈ s.lagoon, e.1 / 2 ^ 20 = i → e.2 = 0#8 →
      (v.undefined.isSome && decide (e.1 % 2 ^ 20 ≥ 0x2000 + v.residentBytes)) = true) :
    Memory.wf (s.setIsle i v) = true := by
  rw [Memory.wf_iff] at *
  obtain ⟨h1, h2, h3, h6, h4, h5⟩ := h
  refine ⟨h1, h2, h3, h6, ?_, h5⟩
  intro e he
  by_cases hz : e.2 = 0#8
  · right
    by_cases hi : e.1 / 2 ^ 20 = i
    · have hg : (s.setIsle i v).isle (e.1 / 2 ^ 20) = v := by rw [hi]; exact KMap.get_put_same _ _ _ _
      unfold openByte
      rw [hg]
      exact hv e he hi hz
    · have hg : (s.setIsle i v).isle (e.1 / 2 ^ 20) = s.isle (e.1 / 2 ^ 20) := KMap.get_put_ne _ _ _ _ (Ne.symm hi)
      unfold openByte
      rw [hg]
      exact (h4 e he).resolve_left (fun h => h hz)
  · exact Or.inl hz

/-- An isle's record changed in neither its resident area nor its undefined bytes. -/
theorem Memory.wf_modIsle {s : State} (h : Memory.wf s = true) (i : Nat) (f : Isle → Isle)
    (hu : (f (s.isle i)).undefined = (s.isle i).undefined)
    (hr : (f (s.isle i)).residentBytes = (s.isle i).residentBytes) : Memory.wf (s.modIsle i f) = true := by
  refine Memory.wf_setIsle h i _ ?_
  intro e he hi hz
  rw [hu, hr]
  rcases ((Memory.wf_iff s).mp h).2.2.2.2.1 e he with h | h
  · exact absurd hz h
  · subst hi; exact h

/-- Bytes of the lagoons unlisted. -/
theorem Memory.wf_dropLagoon {s : State} (h : Memory.wf s = true) (lo hi : Nat) :
    Memory.wf { s with lagoon := s.lagoon.dropRange lo hi } = true := by
  rw [Memory.wf_iff] at *
  obtain ⟨h1, h2, h3, h6, h4, h5⟩ := h
  refine ⟨h1, KMap.rising_dropRange h2, h3, h6, ?_, h5⟩
  intro e he
  exact h4 e (List.mem_filter.mp he).1

/-- A working area whose contents are lost (R85). -/
@[simp] theorem Memory.wf_lagoonForget {s : State} (h : Memory.wf s = true) (i : Nat) :
    Memory.wf (lagoonForget i s) = true := by
  have hd : Memory.wf s.draw.2 = true := Memory.wf_regs h ((Memory.wf_iff s).mp h).1 rfl rfl rfl rfl
  have hl := Memory.wf_dropErr
    (Memory.wf_dropLagoon hd (i * 2 ^ 20 + (0x2000 + (s.draw.2.isle i).residentBytes)) ((i + 1) * 2 ^ 20))
    (i * 2 ^ 17 + (0x2000 + (s.draw.2.isle i).residentBytes) / 8) ((i + 1) * 2 ^ 17)
  refine Memory.wf_setIsle hl i _ ?_
  intro e he hi hz
  obtain ⟨hm, hr⟩ := KMap.mem_dropRange.mp he
  rcases ((Memory.wf_iff s).mp h).2.2.2.2.1 e hm with h | h
  · exact absurd hz h
  · subst hi
    simp only [openByte, Bool.and_eq_true] at h
    simp only [Option.isSome_some, Bool.true_and]
    exact h.2

/-- A lagoon filled (R333). -/
@[simp] theorem Memory.wf_lagoonFill {s : State} (h : Memory.wf s = true) (i : Nat) :
    Memory.wf (lagoonFill i s) = true := by
  have hb := Memory.wf_dropErr (Memory.wf_dropLagoon h (i * 2 ^ 20) ((i + 1) * 2 ^ 20)) (i * 2 ^ 17) ((i + 1) * 2 ^ 17)
  refine Memory.wf_setIsle hb i _ ?_
  intro e he hi hz
  obtain ⟨hm, hr⟩ := KMap.mem_dropRange.mp he
  exfalso; omega

/-! Stored words. -/

/-- What an unlisted stored byte reads as depends on the word it is in. -/
theorem storedUnlisted_key (i o j : Nat) (hj : j < 64) :
    storedUnlisted (storedKey i o j / 64 % 2 ^ 24 * 32) (storedKey i o j % 64) = storedUnlisted o j := by
  have h1 : storedKey i o j % 64 = j := by unfold storedKey; omega
  have h2 : storedKey i o j / 64 % 2 ^ 24 = o % 2 ^ 29 / 32 := by unfold storedKey; omega
  have h3 : wordBase (o % 2 ^ 29 / 32 * 32) % 2 ^ 29 = wordBase o % 2 ^ 29 := by unfold wordBase; omega
  rw [h1, h2]
  unfold storedUnlisted
  rw [h3]

theorem Memory.wf_putStored {s : State} (h : Memory.wf s = true) (i o j : Nat) (bs : List Nat) (hj : j + bs.length ≤ 64) :
    Memory.wf (putStored i o j bs s) = true := by
  induction bs generalizing j s with
  | nil => exact h
  | cons b bs ih =>
    simp only [List.length_cons] at hj
    refine ih ?_ (j + 1) (by omega)
    rw [Memory.wf_iff] at *
    obtain ⟨h1, h2, h3, h6, h4, h5⟩ := h
    refine ⟨h1, h2, KMap.rising_put h3, h6, h4, ?_⟩
    intro e he
    rcases KMap.mem_put he with ⟨rfl, hv⟩ | ⟨he, _⟩
    · show BitVec.ofNat 8 b ≠ _
      rw [storedUnlisted_key i o j (by omega)]; exact hv
    · exact h5 e he

/-- Stored bytes unlisted. -/
theorem Memory.wf_dropStored {s : State} (h : Memory.wf s = true) (lo hi : Nat) :
    Memory.wf { s with stored := s.stored.dropRange lo hi } = true := by
  rw [Memory.wf_iff] at *
  obtain ⟨h1, h2, h3, h6, h4, h5⟩ := h
  refine ⟨h1, h2, KMap.rising_dropRange h3, h6, h4, ?_⟩
  intro e he
  exact h5 e (List.mem_filter.mp he).1

/-- A slice filled (R333). -/
@[simp] theorem Memory.wf_sliceFill {s : State} (h : Memory.wf s = true) (i : Nat) : Memory.wf (sliceFill i s) = true :=
  Memory.wf_dropStored h _ _

/-! What raises an event, and the words stored through it. -/

/-- Raising an event and queueing a record keep the stores in canonical form. -/
theorem Memory.wf_logOnly {s t : State} (h : Memory.wf s = true) (hl : LogOnly s t) : Memory.wf t = true :=
  Memory.wf_regs h (hl.rising ((Memory.wf_iff s).mp h).1) hl.lagoon_eq hl.stored_eq hl.isles_eq hl.lagoonErr_eq

@[simp] theorem Memory.wf_raise {s : State} (h : Memory.wf s = true) (code unit detail : Nat) :
    Memory.wf (raise code unit detail s) = true := Memory.wf_logOnly h (raise_logOnly code unit detail s)
@[simp] theorem Memory.wf_raiseOnce {s : State} (h : Memory.wf s = true) (code unit detail : Nat) :
    Memory.wf (raiseOnce code unit detail s) = true := Memory.wf_logOnly h (raiseOnce_logOnly code unit detail s)
@[simp] theorem Memory.wf_keelAppend {s : State} (h : Memory.wf s = true) (kind : Nat) (payload : List Nat) :
    Memory.wf (keelAppend kind payload s) = true := Memory.wf_logOnly h (keelAppend_logOnly kind payload s)

/-- The words of a register cleared. -/
@[simp] theorem Memory.wf_foldlSet {s : State} (h : Memory.wf s = true) (l : List Nat) (f : Nat → Field) :
    Memory.wf (l.foldl (fun t j => t.set (f j) 0) s) = true := by
  induction l generalizing s with
  | nil => exact h
  | cons x l ih => exact ih (Memory.wf_set h _ _)

theorem Memory.wf_flipConsume {s : State} (h : Memory.wf s = true) (i : Nat) : Memory.wf (flipConsume i s) = true := by
  unfold flipConsume
  exact Memory.wf_raise (Memory.wf_set (Memory.wf_foldlSet (Memory.wf_set (Memory.wf_set h _ _) _ _) _ _) _ _) _ _ _

theorem Memory.wf_markDirty {s : State} (h : Memory.wf s = true) (i o : Nat) : Memory.wf (markDirty i o s) = true := by
  unfold markDirty
  simp only []
  split
  · exact h
  · exact Memory.wf_count (Memory.wf_set h _ _) _ _

/-- A code word stored, poisoned or not, through an armed flip mask or not. -/
theorem Memory.wf_storeBare {s : State} (h : Memory.wf s = true) (agent : Agent) (i o : Nat) (data : List Nat) (poison : Bool) :
    Memory.wf (storeBare agent i o data poison s) = true := by
  have hn : ∀ w : List Nat, 0 + (w.take 36).length ≤ 64 := fun w => by
    have := List.length_take_le 36 w; omega
  unfold storeBare
  simp only []
  split
  · exact Memory.wf_flipConsume (Memory.wf_putStored h _ _ _ _ (hn _)) _
  · exact Memory.wf_putStored h _ _ _ _ (hn _)

theorem Memory.wf_storeWord {s : State} (h : Memory.wf s = true) (agent : Agent) (i o : Nat) (data : List Nat) (poison : Bool) :
    Memory.wf (storeWord agent i o data poison s) = true := by
  unfold storeWord
  refine Memory.wf_storeBare ?_ _ _ _ _ _
  split
  · exact h
  · exact Memory.wf_markDirty h _ _

end Sys2Proof.Machine
end

