-- ==== Sys2Proof/Laws/Pending.lean ====
section
/-!
SUPPORT. Every operation leaves the queue of commands as it was: one lemma an operation, in the order of the files.
-/
set_option linter.unusedSimpArgs false
set_option linter.unusedVariables false
namespace Sys2Proof.Machine

@[simp] theorem ite_pending (c : Prop) [Decidable c] (a b : State) :
    (if c then a else b).pending = if c then a.pending else b.pending := by split <;> rfl

@[simp] theorem foldl_pending {α : Type} (f : State → α → State) (h : ∀ t x, (f t x).pending = t.pending) (l : List α)
    (s : State) : (l.foldl f s).pending = s.pending := by
  induction l generalizing s with
  | nil => rfl
  | cons x l ih => simp [ih, h]

theorem foldl_pending_snd {α β : Type} (f : β × State → α → β × State) (h : ∀ t x, (f t x).2.pending = t.2.pending)
    (l : List α) (t : β × State) : (l.foldl f t).2.pending = t.2.pending := by
  induction l generalizing t with
  | nil => rfl
  | cons x l ih => rw [List.foldl_cons, ih, h]

/-! The named updates, once more and not as equations by definition, so that simp may use them under a fold. -/

theorem State.set_queue (s : State) (f : Field) (v : Nat) : (s.set f v).pending = s.pending := id rfl
theorem State.setFlag_queue (s : State) (f : Field) (b : Bool) : (s.setFlag f b).pending = s.pending := id rfl
theorem State.bump_queue (s : State) (f : Field) (n : Nat) : (s.bump f n).pending = s.pending := id rfl
theorem State.count_queue (s : State) (f : Field) (n : Nat) : (s.count f n).pending = s.pending := id rfl
theorem State.emit_queue (s : State) (o : Out) : (s.emit o).pending = s.pending := id rfl
theorem State.setIsle_queue (s : State) (i : Nat) (v : Isle) : (s.setIsle i v).pending = s.pending := id rfl
theorem State.modIsle_queue (s : State) (i : Nat) (g : Isle → Isle) : (s.modIsle i g).pending = s.pending := id rfl
theorem State.setArch_queue (s : State) (a : Nat) (v : Arch) : (s.setArch a v).pending = s.pending := id rfl
theorem State.modArch_queue (s : State) (a : Nat) (g : Arch → Arch) : (s.modArch a g).pending = s.pending := id rfl
theorem State.setSlice_queue (s : State) (i : Nat) (v : Slice) : (s.setSlice i v).pending = s.pending := id rfl
theorem State.modSlice_queue (s : State) (i : Nat) (g : Slice → Slice) : (s.modSlice i g).pending = s.pending := id rfl
theorem State.setDom_queue (s : State) (d : Nat) (v : Dom) : (s.setDom d v).pending = s.pending := id rfl
theorem State.modDom_queue (s : State) (d : Nat) (g : Dom → Dom) : (s.modDom d g).pending = s.pending := id rfl
theorem State.setPort_queue (s : State) (p : Nat) (v : Port) : (s.setPort p v).pending = s.pending := id rfl
theorem State.modPort_queue (s : State) (p : Nat) (g : Port → Port) : (s.modPort p g).pending = s.pending := id rfl
theorem State.setQuay_queue (s : State) (q : Nat) (v : Quay) : (s.setQuay q v).pending = s.pending := id rfl
theorem State.modQuay_queue (s : State) (q : Nat) (g : Quay → Quay) : (s.modQuay q g).pending = s.pending := id rfl
theorem State.setDma_queue (s : State) (e : Nat) (v : Dma) : (s.setDma e v).pending = s.pending := id rfl
theorem State.modDma_queue (s : State) (e : Nat) (g : Dma → Dma) : (s.modDma e g).pending = s.pending := id rfl
theorem State.setReads_queue (s : State) (m : KMap Nat) : (s.setReads m).pending = s.pending := id rfl
theorem State.setAvs_queue (s : State) (k : Nat) (v : Avs) : (s.setAvs k v).pending = s.pending := id rfl
theorem State.setSensor_queue (s : State) (n : Nat) (v : Sensor) : (s.setSensor n v).pending = s.pending := id rfl
theorem State.modLh_queue (s : State) (g : Lighthouse → Lighthouse) : (s.modLh g).pending = s.pending := id rfl
theorem State.setKeel_queue (s : State) (k : Keel) : (s.setKeel k).pending = s.pending := id rfl
theorem State.setPil_queue (s : State) (p : Pilots) : (s.setPil p).pending = s.pending := id rfl
theorem State.setCkp_queue (s : State) (c : Ckp) : (s.setCkp c).pending = s.pending := id rfl
theorem State.draw_queue (s : State) : s.draw.2.pending = s.pending := id rfl

@[simp] theorem State.setWords_pending (s : State) (f : Nat → Field) (ws : List Nat) :
    (s.setWords f ws).pending = s.pending := by
  unfold State.setWords
  exact foldl_pending (fun t (p : Nat × Nat) => t.set (f p.2) p.1) (fun _ _ => rfl) _ _

@[simp] theorem enterRing_pending (e : Entry) (s : State) : (enterRing e s).pending = s.pending :=
  (enterRing_logOnly e s).pending_eq

@[simp] theorem setPldm_pending (q : List PldmEvent) (s : State) : (setPldm q s).pending = s.pending := by
  simp only [setPldm, State.set_queue]

@[simp] theorem pldmPut_pending (e : PldmEvent) (s : State) : (pldmPut e s).pending = s.pending := by
  simp only [pldmPut, setPldm_pending, State.bump_queue, ite_pending, ite_self]

@[simp] theorem forwardEvent_pending (e : Entry) (s : State) : (forwardEvent e s).pending = s.pending := by
  simp only [forwardEvent, pldmPut_pending, ite_pending, ite_self]

@[simp] theorem beginEvent_pending (code unit detail : Nat) (s : State) :
    (beginEvent code unit detail s).2.pending = s.pending := (beginEvent_logOnly code unit detail s).pending_eq

@[simp] theorem freezeRing_pending (s : State) : (freezeRing s).pending = s.pending := (freezeRing_logOnly s).pending_eq

@[simp] theorem afterEntry_pending (e : Entry) (s : State) : (afterEntry e s).pending = s.pending := by
  unfold afterEntry
  (repeat' split) <;> first
    | with_reducible rfl
    | simp only [freezeRing_pending, ite_pending, ite_self]
    | simp only [freezeRing_pending, ite_pending, ite_self, *]

@[simp] theorem enterEvent_pending (code unit detail : Nat) (s : State) :
    (enterEvent code unit detail s).pending = s.pending := by
  simp only [enterEvent, afterEntry_pending, enterRing_pending, beginEvent_pending, State.bump_queue, ite_pending, ite_self]

@[simp] theorem firstInFrame_pending (code unit : Nat) (s : State) : (firstInFrame code unit s).2.pending = s.pending := by
  unfold firstInFrame
  (repeat' split) <;> first
    | with_reducible rfl
    | simp only [ite_pending, ite_self]
    | simp only [ite_pending, ite_self, *]

@[simp] theorem droppedEvent_pending (s : State) : (droppedEvent s).pending = s.pending := by
  simp only [droppedEvent, enterEvent_pending, firstInFrame_pending, ite_pending, ite_self]

@[simp] theorem fitQueue_pending (x0 : Nat) (s : State) : (fitQueue x0 s).pending = s.pending := by
  induction x0 generalizing s with
  | zero => simp only [fitQueue]
  | succ n ih => unfold fitQueue; (repeat' split) <;> simp_all only [droppedEvent_pending, State.bump_queue, ite_pending,
      ite_self, ih]

@[simp] theorem persistRecord_pending (s : State) : (persistRecord s).pending = s.pending := by
  simp only [persistRecord, keelAppend_pending, ite_pending, ite_self]

@[simp] theorem persistAll_pending (x0 : Nat) (s : State) : (persistAll x0 s).pending = s.pending := by
  induction x0 generalizing s with
  | zero => simp only [persistAll]
  | succ n ih => simp only [persistAll, persistRecord_pending, ih]

@[simp] theorem logEvent_pending (code unit detail : Nat) (s : State) :
    (logEvent code unit detail s).pending = s.pending := by
  simp only [logEvent, enterEvent_pending, persistAll_pending, ite_pending, ite_self]

@[simp] theorem raiseOnceFrame_pending (code unit detail : Nat) (s : State) :
    (raiseOnceFrame code unit detail s).pending = s.pending := by
  simp only [raiseOnceFrame, raise_pending, firstInFrame_pending, ite_pending, ite_self]

@[simp] theorem inOneCycle_pending (f : State → State) (s : State) (h_f : ∀ t, (f t).pending = t.pending) :
    (inOneCycle f s).pending = s.pending := by
  unfold inOneCycle
  (repeat' split) <;> first
    | with_reducible rfl
    | simp only [logEvent_pending, foldl_pending, implies_true, h_f]
    | simp only [logEvent_pending, foldl_pending, implies_true, h_f, *]

@[simp] theorem forgetRequest_pending (i : Nat) (s : State) : (forgetRequest i s).pending = s.pending := by
  simp only [forgetRequest, State.set_queue]

@[simp] theorem setLocks_pending (cs : List Nat) (b : Bool) (s : State) : (setLocks cs b s).pending = s.pending := by
  simp only [setLocks, State.set_queue, foldl_pending, implies_true]

@[simp] theorem lagoonPut_pending (i a : Nat) (v : Byte) (s : State) : (lagoonPut i a v s).pending = s.pending := by
  simp only [lagoonPut, ite_pending, ite_self]

@[simp] theorem putBytes_pending (i : Nat) (x0 : Nat) (x1 : List Nat) (s : State) :
    (putBytes i x0 x1 s).pending = s.pending := by
  induction x1 generalizing x0 s with
  | nil => simp only [putBytes]
  | cons e es ih => simp only [putBytes, lagoonPut_pending, ih]

@[simp] theorem setLagoonErr_pending (i a e : Nat) (s : State) : (setLagoonErr i a e s).pending = s.pending := by
  simp only [setLagoonErr]

@[simp] theorem settleWord_pending (i a : Nat) (s : State) : (settleWord i a s).pending = s.pending := by
  unfold settleWord
  (repeat' split) <;> first
    | with_reducible rfl
    | simp only [setLagoonErr_pending, putBytes_pending]
    | simp only [setLagoonErr_pending, putBytes_pending, *]

@[simp] theorem freshWords_pending (i first stop : Nat) (s : State) : (freshWords i first stop s).pending = s.pending := by
  simp only [freshWords]

@[simp] theorem lagoonWrite_pending (i a : Nat) (bs : List Nat) (s : State) : (lagoonWrite i a bs s).pending = s.pending := by
  simp only [lagoonWrite, freshWords_pending, putBytes_pending, settleWord_pending, ite_pending, ite_self]

@[simp] theorem lagoonForget_pending (i : Nat) (s : State) : (lagoonForget i s).pending = s.pending := by
  simp only [lagoonForget, State.modIsle_queue, State.draw_queue]

@[simp] theorem lagoonFill_pending (i : Nat) (s : State) : (lagoonFill i s).pending = s.pending := by
  simp only [lagoonFill, State.modIsle_queue]

@[simp] theorem detect_pending (a i c : Nat) (s : State) : (detect a i c s).pending = s.pending := by
  simp only [detect, State.modArch_queue, ite_pending, ite_self]

@[simp] theorem detectIf_pending (b : Bool) (a i c : Nat) (s : State) : (detectIf b a i c s).pending = s.pending := by
  simp only [detectIf, detect_pending, ite_pending, ite_self]

@[simp] theorem resetDomain_pending (d : Nat) (s : State) : (resetDomain d s).pending = s.pending := by
  simp only [resetDomain]

@[simp] theorem ordered_pending (func : Nat) (writes : List Nat) (cmd : Instr) (now : State → State) (s : State)
    (h_now : ∀ t, (now t).pending = t.pending) : (ordered func writes cmd now s).pending = s.pending := by
  simp only [ordered, ite_pending, ite_self, h_now]

@[simp] theorem clearRead_pending (r : Reg) (s : State) (func : Nat) : (clearRead r s func).pending = s.pending := by
  simp only [clearRead, State.set_queue, foldl_pending, implies_true, ite_pending, ite_self]

@[simp] theorem readIsleState_pending (i : Nat) (s : State) : (readIsleState i s).2.pending = s.pending := by
  simp only [readIsleState, raiseOnce_pending, ite_pending, ite_self]

@[simp] theorem writeField_pending (s : State) (func : Nat) (f : Field) (v : Nat) :
    (writeField s func f v).pending = s.pending := by
  unfold writeField
  (repeat' split) <;> first
    | with_reducible rfl
    | simp only [State.set_queue, ite_pending, ite_self]
    | simp only [State.set_queue, ite_pending, ite_self, *]

@[simp] theorem writeReg_pending (s : State) (func : Nat) (r : Reg) (v : Nat) :
    (writeReg s func r v).pending = s.pending := by
  simp only [writeReg, writeField_pending, foldl_pending, implies_true, ite_pending, ite_self]

@[simp] theorem writeRest_pending (func a v : Nat) (s : State) : (writeRest func a v s).pending = s.pending := by
  unfold writeRest
  (repeat' split) <;> first
    | with_reducible rfl
    | simp only [writeReg_pending]
    | simp only [writeReg_pending, *]

@[simp] theorem setMsixWord_pending (func v w x : Nat) (s : State) : (setMsixWord func v w x s).pending = s.pending := by
  simp only [setMsixWord, ite_pending, ite_self]

@[simp] theorem setMsixPending_pending (func v : Nat) (b : Bool) (s : State) :
    (setMsixPending func v b s).pending = s.pending := by
  simp only [setMsixPending]

@[simp] theorem msixMessage_pending (func v : Nat) (s : State) : (msixMessage func v s).pending = s.pending := by
  simp only [msixMessage, State.emit_queue]

@[simp] theorem notify_pending (func v : Nat) (s : State) : (notify func v s).pending = s.pending := by
  simp only [notify, setMsixPending_pending, raiseOnceFrame_pending, msixMessage_pending, State.bump_queue, ite_pending,
      ite_self]

@[simp] theorem writeMsix_pending (func v w x : Nat) (s : State) : (writeMsix func v w x s).pending = s.pending := by
  simp only [writeMsix, setMsixPending_pending, setMsixWord_pending, msixMessage_pending, ite_pending, ite_self]

@[simp] theorem clearMsix_pending (func : Nat) (s : State) : (clearMsix func s).pending = s.pending := by
  simp only [clearMsix]

@[simp] theorem setBollard_pending (b v : Nat) (s : State) : (setBollard b v s).pending = s.pending := by
  simp only [setBollard, State.set_queue]

@[simp] theorem bolAdd_pending (b : Nat) (delta : Int) (s : State) : (bolAdd b delta s).pending = s.pending := by
  simp only [bolAdd, setBollard_pending, raiseOnce_pending, State.set_queue, State.bump_queue, ite_pending, ite_self]

@[simp] theorem waiterNotice_pending (w : Nat) (s : State) : (waiterNotice w s).pending = s.pending := by
  simp only [waiterNotice, notify_pending, State.emit_queue, ite_pending, ite_self]

@[simp] theorem disarm_pending (w : Nat) (s : State) : (disarm w s).pending = s.pending := by
  simp only [disarm, State.set_queue]

@[simp] theorem fireWaiter_pending (w : Nat) (s : State) : (fireWaiter w s).pending = s.pending := by
  simp only [fireWaiter, disarm_pending, setBollard_pending, waiterNotice_pending, State.set_queue, ite_pending, ite_self]

@[simp] theorem evalWaiter_pending (raised arms : List Nat) (s : State) (w : Nat) :
    (evalWaiter raised arms s w).pending = s.pending := by
  simp only [evalWaiter, fireWaiter_pending, ite_pending, ite_self]

@[simp] theorem evalWaiters_pending (raised arms : List Nat) (s : State) :
    (evalWaiters raised arms s).pending = s.pending := by
  simp only [evalWaiters, evalWaiter_pending, foldl_pending, implies_true, ite_pending, ite_self]

@[simp] theorem applyOp_pending (acc : List Nat × State) (o : BolOp) : (applyOp acc o).2.pending = acc.2.pending := by
  unfold applyOp
  (repeat' split) <;> first
    | rfl
    | simp

theorem applyOps_pending (l : List BolOp) (acc : List Nat × State) : (l.foldl applyOp acc).2.pending = acc.2.pending :=
  foldl_pending_snd applyOp (fun _ _ => applyOp_pending _ _) l acc

@[simp] theorem closeCycle_pending (ops : List BolOp) (first : State → List Nat × State) (s : State)
    (h : ∀ t, (first t).2.pending = t.pending) : (closeCycle ops first s).pending = s.pending := by
  unfold closeCycle
  simp only [evalWaiters_pending]
  exact (applyOps_pending _ _).trans (h s)

@[simp] theorem cycleOp_pending (o : BolOp) (more : Bool) (s : State) : (cycleOp o more s).pending = s.pending := by
  unfold cycleOp
  simp only []
  split
  · rfl
  · exact closeCycle_pending _ _ _ (fun _ => rfl)

@[simp] theorem bollardAdd_pending (who b delta : Nat) (more : Bool) (s : State) :
    (bollardAdd who b delta more s).pending = s.pending := by
  simp only [bollardAdd, cycleOp_pending, ite_pending, ite_self]

@[simp] theorem waiterConfig_pending (w ctrl : Nat) (s : State) : (waiterConfig w ctrl s).pending = s.pending := by
  simp only [waiterConfig, State.set_queue]

@[simp] theorem waiterFlags_pending (w ctrl : Nat) (s : State) : (waiterFlags w ctrl s).pending = s.pending := by
  simp only [waiterFlags, State.set_queue, ite_pending, ite_self]

@[simp] theorem waiterArm_pending (who w ctrl : Nat) (s : State) : (waiterArm who w ctrl s).pending = s.pending := by
  simp only [waiterArm, evalWaiter_pending, waiterConfig_pending, waiterFlags_pending, State.set_queue, ite_pending, ite_self]

@[simp] theorem waiterDisarm_pending (who w ctrl : Nat) (s : State) : (waiterDisarm who w ctrl s).pending = s.pending := by
  simp only [waiterDisarm, disarm_pending, waiterConfig_pending, waiterFlags_pending, ite_pending, ite_self]

@[simp] theorem putStored_pending (i o : Nat) (x0 : Nat) (x1 : List Nat) (s : State) :
    (putStored i o x0 x1 s).pending = s.pending := by
  induction x1 generalizing x0 s with
  | nil => simp only [putStored]
  | cons e es ih => simp only [putStored, ih]

@[simp] theorem sliceFill_pending (i : Nat) (s : State) : (sliceFill i s).pending = s.pending := by
  simp only [sliceFill]

@[simp] theorem errRecord_pending (i o cls agent : Nat) (s : State) : (errRecord i o cls agent s).pending = s.pending := by
  simp only [errRecord, State.set_queue, ite_pending, ite_self]

@[simp] theorem noteOutcome_pending (i o : Nat) (agent : Agent) (strict : Bool) (c : ReadClass) (s : State) :
    (noteOutcome i o agent strict c s).pending = s.pending := by
  unfold noteOutcome
  (repeat' split) <;> first
    | with_reducible rfl
    | simp only [errRecord_pending, raiseOnce_pending, State.set_queue, State.bump_queue, State.modSlice_queue,
        ite_pending, ite_self]
    | simp only [errRecord_pending, raiseOnce_pending, State.set_queue, State.bump_queue, State.modSlice_queue,
        ite_pending, ite_self, *]

@[simp] theorem readWord_pending (agent : Agent) (i o : Nat) (s : State) : (readWord agent i o s).2.pending = s.pending := by
  simp only [readWord]
  (repeat' split) <;> first
    | with_reducible rfl
    | simp only [noteOutcome_pending]
    | simp only [noteOutcome_pending, *]

@[simp] theorem readRaw_pending (agent : Agent) (i o : Nat) (s : State) : (readRaw agent i o s).2.2.pending = s.pending := by
  simp only [readRaw, noteOutcome_pending]

@[simp] theorem markDirty_pending (i o : Nat) (s : State) : (markDirty i o s).pending = s.pending := by
  simp only [markDirty, State.set_queue, State.count_queue, ite_pending, ite_self]

@[simp] theorem flipConsume_pending (i : Nat) (s : State) : (flipConsume i s).pending = s.pending := by
  unfold flipConsume
  simp only [raise_pending, State.set_queue]
  rw [foldl_pending]
  · simp
  · intro t x; rfl

@[simp] theorem storeBare_pending (agent : Agent) (i o : Nat) (data : List Nat) (poison : Bool) (s : State) :
    (storeBare agent i o data poison s).pending = s.pending := by
  simp only [storeBare, putStored_pending, flipConsume_pending, ite_pending, ite_self]

@[simp] theorem storeWord_pending (agent : Agent) (i o : Nat) (data : List Nat) (poison : Bool) (s : State) :
    (storeWord agent i o data poison s).pending = s.pending := by
  simp only [storeWord, storeBare_pending, markDirty_pending, ite_pending, ite_self]

@[simp] theorem writeWord_pending (agent : Agent) (i o : Nat) (data : List Nat) (poison : Bool) (s : State) :
    (writeWord agent i o data poison s).pending = s.pending := by
  simp only [writeWord]
  (repeat' split) <;> first
    | with_reducible rfl
    | simp only [noteOutcome_pending, storeWord_pending, ite_pending, ite_self]
    | simp only [noteOutcome_pending, storeWord_pending, ite_pending, ite_self, *]

@[simp] theorem rmwWord_pending (agent : Agent) (i o mask : Nat) (new : List Nat) (poison : Bool) (s : State) :
    (rmwWord agent i o mask new poison s).2.pending = s.pending := by
  simp only [rmwWord, storeWord_pending, readRaw_pending, ite_pending, ite_self]

@[simp] theorem mergePut_pending (i t o mask : Nat) (bytes : List Nat) (poison : Bool) (s : State) :
    (mergePut i t o mask bytes poison s).pending = s.pending := by
  simp only [mergePut, State.modSlice_queue, ite_pending, ite_self]

@[simp] theorem mergeCommit_pending (i : Nat) (e : MergeEntry) (s : State) : (mergeCommit i e s).2.pending = s.pending := by
  unfold mergeCommit
  (repeat' split) <;> first
    | with_reducible rfl
    | simp only [storeWord_pending, rmwWord_pending, State.modSlice_queue, ite_pending, ite_self]
    | simp only [storeWord_pending, rmwWord_pending, State.modSlice_queue, ite_pending, ite_self, *]

@[simp] theorem noteNoKey_pending (i off len : Nat) (s : State) : (noteNoKey i off len s).pending = s.pending := by
  unfold noteNoKey
  (repeat' split) <;> first
    | with_reducible rfl
    | simp only [noteOutcome_pending, ite_pending, ite_self]
    | simp only [noteOutcome_pending, ite_pending, ite_self, *]

@[simp] theorem pushAccess_pending (i : Nat) (a : HostAcc) (s : State) : (pushAccess i a s).pending = s.pending := by
  simp only [pushAccess, State.modSlice_queue]

@[simp] theorem pushRead_pending (src : HostSrc) (dpa n : Nat) (s : State) : (pushRead src dpa n s).pending = s.pending := by
  simp only [pushRead, pushAccess_pending]

@[simp] theorem pushWrite_pending (src : HostSrc) (dpa : Nat) (bytes : List Nat) (s : State) :
    (pushWrite src dpa bytes s).pending = s.pending := by
  simp only [pushWrite, pushAccess_pending]

@[simp] theorem filterAccesses_pending (keep : HostAcc → Bool) (s : State) : (filterAccesses keep s).pending = s.pending := by
  simp only [filterAccesses, State.modSlice_queue, foldl_pending, implies_true]

@[simp] theorem readPart_pending (i : Nat) (p : Nat × Nat) (s : State) : (readPart i p s).2.2.pending = s.pending := by
  simp only [readPart, readRaw_pending, ite_pending, ite_self]

@[simp] theorem readStored_pending (i : Nat) (p : Nat × Nat) (s : State) : (readStored i p s).2.2.pending = s.pending := by
  simp only [readStored, readRaw_pending]

@[simp] theorem writePart_pending (i : Nat) (p : Nat × Nat) (bytes : List Nat) (s : State) :
    (writePart i p bytes s).pending = s.pending := by
  simp only [writePart, rmwWord_pending, writeWord_pending, ite_pending, ite_self]

@[simp] theorem readParts_pending (one : Nat → Nat × Nat → State → List Nat × Bool × State) (i : Nat) (x0 : List (Nat × Nat))
    (s : State) (h : ∀ p t, (one i p t).2.2.pending = t.pending) : (readParts one i x0 s).2.2.pending = s.pending := by
  induction x0 generalizing s with
  | nil => rfl
  | cons p ps ih => simp only [readParts]; rw [ih, h]

@[simp] theorem writeParts_pending (i off : Nat) (data : List Nat) (ps : List (Nat × Nat)) (s : State) :
    (writeParts i off data ps s).pending = s.pending := by
  simp only [writeParts, writePart_pending, foldl_pending, implies_true]

@[simp] theorem noteService_pending (i cycle : Nat) (write : Bool) (ps : List (Nat × Nat)) (s : State) :
    (noteService i cycle write ps s).pending = s.pending := by
  simp only [noteService, State.modSlice_queue, ite_pending, ite_self]

@[simp] theorem ringWrite_pending (src : HostSrc) (q func index k : Nat) (bytes : List Nat) (s : State) :
    (ringWrite src q func index k bytes s).pending = s.pending := by
  simp only [ringWrite, pushWrite_pending, State.emit_queue, foldl_pending, implies_true, ite_pending, ite_self]

@[simp] theorem quayNotice_pending (pending : Field) (enabled : Bool) (q : Nat) (s : State) :
    (quayNotice pending enabled q s).pending = s.pending := by
  simp only [quayNotice]
  (repeat' split) <;> first
    | with_reducible rfl
    | simp only [notify_pending, State.set_queue, ite_pending, ite_self]
    | simp only [notify_pending, State.set_queue, ite_pending, ite_self, *]

@[simp] theorem packetNotice_pending (q : Nat) (s : State) : (packetNotice q s).pending = s.pending := by
  simp only [packetNotice, quayNotice_pending]

@[simp] theorem errorNotice_pending (q : Nat) (s : State) : (errorNotice q s).pending = s.pending := by
  simp only [errorNotice, quayNotice_pending]

@[simp] theorem restartIdle_pending (q : Nat) (s : State) : (restartIdle q s).pending = s.pending := by
  simp only [restartIdle, State.modQuay_queue]

@[simp] theorem advanceCi_pending (q n : Nat) (s : State) : (advanceCi q n s).pending = s.pending := by
  simp only [advanceCi, restartIdle_pending, State.count_queue]

@[simp] theorem noteBusy_pending (q : Nat) (s : State) : (noteBusy q s).pending = s.pending := by
  simp only [noteBusy, State.setFlag_queue]

@[simp] theorem packetGone_pending (q : Nat) (p : Packet) (fate : Nat) (s : State) :
    (packetGone q p fate s).pending = s.pending := by
  simp only [packetGone, packetNotice_pending, noteBusy_pending, advanceCi_pending, errorNotice_pending, State.count_queue,
      State.modQuay_queue, ite_pending, ite_self]

@[simp] theorem consumePacket_pending (q func : Nat) (p : Packet) (fate : Nat) (s : State) :
    (consumePacket q func p fate s).pending = s.pending := by
  simp only [consumePacket, ringWrite_pending, packetGone_pending, State.modQuay_queue, ite_pending, ite_self]

@[simp] theorem packetBad_pending (q reason : Nat) (p : Packet) (s : State) :
    (packetBad q reason p s).pending = s.pending := by
  unfold packetBad
  (repeat' split) <;> first
    | with_reducible rfl
    | simp only [raiseOnce_pending, consumePacket_pending, State.set_queue, State.bump_queue]
    | simp only [raiseOnce_pending, consumePacket_pending, State.set_queue, State.bump_queue, *]

@[simp] theorem quayHalt_pending (q cause : Nat) (s : State) : (quayHalt q cause s).pending = s.pending := by
  simp only [quayHalt, raise_pending, errorNotice_pending, State.set_queue]

@[simp] theorem releaseArbiters_pending (r : Nat) (s : State) : (releaseArbiters r s).pending = s.pending := by
  simp only [releaseArbiters]

@[simp] theorem quayDrop_pending (q : Nat) (s : State) : (quayDrop q s).pending = s.pending := by
  simp only [quayDrop, filterAccesses_pending, releaseArbiters_pending, State.set_queue, State.modQuay_queue,
      State.setReads_queue]

@[simp] theorem quayOff_pending (q : Nat) (s : State) : (quayOff q s).pending = s.pending := by
  simp only [quayOff, quayDrop_pending, State.set_queue]

@[simp] theorem indexRefused_pending (q : Nat) (s : State) : (indexRefused q s).pending = s.pending := by
  simp only [indexRefused, raise_pending, errorNotice_pending, State.bump_queue]

@[simp] theorem quayDoorbell_pending (func q pi : Nat) (s : State) : (quayDoorbell func q pi s).pending = s.pending := by
  simp only [quayDoorbell, indexRefused_pending, State.set_queue, ite_pending, ite_self]

@[simp] theorem quayConsumerWrite_pending (func q ci : Nat) (s : State) :
    (quayConsumerWrite func q ci s).pending = s.pending := by
  simp only [quayConsumerWrite, restartIdle_pending, indexRefused_pending, State.set_queue, ite_pending, ite_self]

@[simp] theorem judgeHeader_pending (q : Nat) (b : QuayBind) (h : List Nat) (bad : Bool) (s : State) :
    (judgeHeader q b h bad s).pending = s.pending := by
  unfold judgeHeader
  (repeat' split) <;> first
    | with_reducible rfl
    | simp only [packetBad_pending, quayHalt_pending, noteBusy_pending, State.modQuay_queue, ite_pending, ite_self]
    | simp only [packetBad_pending, quayHalt_pending, noteBusy_pending, State.modQuay_queue, ite_pending, ite_self, *]

@[simp] theorem emissionGone_pending (q : Nat) (b : QuayBind) (s : State) : (emissionGone q b s).pending = s.pending := by
  simp only [emissionGone, packetNotice_pending, noteBusy_pending, State.count_queue, State.modQuay_queue, ite_pending,
      ite_self]

@[simp] theorem drainClosing_pending (q : Nat) (b : QuayBind) (x0 : Nat) (s : State) :
    (drainClosing q b x0 s).pending = s.pending := by
  induction x0 generalizing s with
  | zero => simp only [drainClosing]
  | succ n ih => unfold drainClosing; (repeat' split) <;> simp_all only [ringWrite_pending, emissionGone_pending,
      ite_pending, ite_self, ih]

@[simp] theorem emissionLate_pending (q : Nat) (s : State) : (emissionLate q s).pending = s.pending := by
  simp only [emissionLate, raise_pending, State.bump_queue]

@[simp] theorem emissionDrop_pending (q : Nat) (s : State) : (emissionDrop q s).pending = s.pending := by
  simp only [emissionDrop, filterAccesses_pending, noteBusy_pending, State.modQuay_queue]

@[simp] theorem emissionEnd_pending (q : Nat) (b : QuayBind) (s : State) : (emissionEnd q b s).pending = s.pending := by
  simp only [emissionEnd]
  (repeat' split) <;> first
    | with_reducible rfl
    | simp only [ringWrite_pending, emissionLate_pending, drainClosing_pending, emissionDrop_pending, State.modQuay_queue,
        ite_pending, ite_self]
    | simp only [ringWrite_pending, emissionLate_pending, drainClosing_pending, emissionDrop_pending, State.modQuay_queue,
        ite_pending, ite_self, *]

@[simp] theorem emissionsEnd_pending (a : Nat) (s : State) : (emissionsEnd a s).pending = s.pending := by
  simp only [emissionsEnd, emissionEnd_pending, foldl_pending, implies_true]

@[simp] theorem emissionsVoid_pending (a : Nat) (s : State) : (emissionsVoid a s).pending = s.pending := by
  simp only [emissionsVoid, emissionDrop_pending, foldl_pending, implies_true, ite_pending, ite_self]

@[simp] theorem ringHeader_pending (q : Nat) (s : State) : (ringHeader q s).2.pending = s.pending := by
  simp only [ringHeader]
  (repeat' split) <;> first
    | with_reducible rfl
    | simp only [readRaw_pending, ite_pending, ite_self]
    | simp only [readRaw_pending, ite_pending, ite_self, *]

@[simp] theorem readPeek_pending (func q held : Nat) (s : State) : (readPeek func q held s).2.pending = s.pending := by
  simp only [readPeek]
  (repeat' split) <;> first
    | with_reducible rfl
    | simp only [restartIdle_pending, ringHeader_pending, ite_pending, ite_self]
    | simp only [restartIdle_pending, ringHeader_pending, ite_pending, ite_self, *]

@[simp] theorem peekRead_pending (func q held : Nat) (s : State) : (peekRead func q held s).pending = s.pending := by
  simp only [peekRead, readPeek_pending, State.emit_queue]

@[simp] theorem quayEnable_pending (func q ctrl : Nat) (s : State) : (quayEnable func q ctrl s).pending = s.pending := by
  unfold quayEnable
  (repeat' split) <;> first
    | with_reducible rfl
    | simp only [writeRest_pending, restartIdle_pending, quayDrop_pending, State.set_queue, ite_pending, ite_self]
    | simp only [writeRest_pending, restartIdle_pending, quayDrop_pending, State.set_queue, ite_pending, ite_self, *]

@[simp] theorem quayDisable_pending (func q ctrl : Nat) (s : State) : (quayDisable func q ctrl s).pending = s.pending := by
  unfold quayDisable
  (repeat' split) <;> first
    | with_reducible rfl
    | simp only [writeRest_pending, quayOff_pending, ite_pending, ite_self]
    | simp only [writeRest_pending, quayOff_pending, ite_pending, ite_self, *]

@[simp] theorem quaysOff_pending (which : QuayBind → Bool) (s : State) : (quaysOff which s).pending = s.pending := by
  unfold quaysOff
  (repeat' split) <;> first
    | with_reducible rfl
    | simp only [quayOff_pending, foldl_pending, implies_true, ite_pending, ite_self]
    | simp only [quayOff_pending, foldl_pending, implies_true, ite_pending, ite_self, *]

@[simp] theorem sendFlit_pending (p kind cause dst : Nat) (bcast : Bool) (slot idx fn : Nat) (payload : List Nat) (s : State) : (sendFlit p kind cause dst bcast slot idx fn payload s).pending = s.pending := by
  simp only [sendFlit, State.count_queue, State.emit_queue, ite_pending, ite_self]

@[simp] theorem portEnterUp_pending (p cycle : Nat) (s : State) : (portEnterUp p cycle s).pending = s.pending := by
  simp only [portEnterUp, raise_pending, State.set_queue, State.modPort_queue]

@[simp] theorem portLeave_pending (p state : Nat) (s : State) : (portLeave p state s).pending = s.pending := by
  simp only [portLeave, raise_pending, State.set_queue, State.modPort_queue, ite_pending, ite_self]

@[simp] theorem quarantineEnd_pending (p : Nat) (s : State) : (quarantineEnd p s).pending = s.pending := by
  simp only [quarantineEnd, raise_pending, State.set_queue, ite_pending, ite_self]

@[simp] theorem portTrain_pending (p : Nat) (s : State) : (portTrain p s).pending = s.pending := by
  simp only [portTrain, State.set_queue, ite_pending, ite_self]

@[simp] theorem violation_pending (p reason : Nat) (f : Flit) (s : State) : (violation p reason f s).pending = s.pending := by
  simp only [violation, raise_pending, raiseOnce_pending, State.set_queue, State.bump_queue, State.modPort_queue,
      ite_pending, ite_self]

@[simp] theorem followLsn_pending (p : Nat) (f : Flit) (s : State) : (followLsn p f s).pending = s.pending := by
  simp only [followLsn, State.set_queue, State.bump_queue, ite_pending, ite_self]

@[simp] theorem countControl_pending (p : Nat) (f : Flit) (s : State) : (countControl p f s).pending = s.pending := by
  simp only [countControl, State.modPort_queue, ite_pending, ite_self]

/-- The state a verdict carries. -/
def Verdict.state : Verdict → State
  | .drop t => t
  | .violates _ t => t
  | .accept t => t

@[simp] theorem judgeFlit_pending (p : Nat) (f : Flit) (s : State) : (judgeFlit p f s).state.pending = s.pending := by
  unfold judgeFlit
  have h : (countControl p f (followLsn p f s)).pending = s.pending := by rw [countControl_pending, followLsn_pending]
  split
  · simp only [Verdict.state, State.bump_queue, followLsn_pending]
  · (repeat' split) <;> exact h

@[simp] theorem receive_pending (p : Nat) (bytes : List Nat) (damaged : Bool) (act : Flit → State → State) (s : State)
    (h_act : ∀ a0 t, (act a0 t).pending = t.pending) : (receive p bytes damaged act s).pending = s.pending := by
  unfold receive
  simp only []
  split
  · rfl
  · split
    · exact State.bump_queue _ _ _
    · have hj := judgeFlit_pending p (flitOf bytes) s
      split <;> (rename_i h; rw [h] at hj)
      · exact hj
      · rw [violation_pending]; exact hj
      · rw [h_act]; exact hj

@[simp] theorem takeData_pending (p cycle : Nat) (f : Flit) (s : State) : (takeData p cycle f s).pending = s.pending := by
  unfold takeData
  (repeat' split) <;> first
    | with_reducible rfl
    | simp only [violation_pending, State.modPort_queue, ite_pending, ite_self]
    | simp only [violation_pending, State.modPort_queue, ite_pending, ite_self, *]

@[simp] theorem takeControl_pending (p : Nat) (act : Flit → State → State) (f : Flit) (s : State) (h_act : ∀ a0 t,
    (act a0 t).pending = t.pending) : (takeControl p act f s).pending = s.pending := by
  simp only [takeControl, violation_pending, ite_pending, ite_self, h_act]

@[simp] theorem post_pending (p pos : Nat) (s : State) : (post p pos s).pending = s.pending := by
  simp only [post, State.modPort_queue]

@[simp] theorem judgeSlot_pending (p slot : Nat) (e : SlotEntry) (s : State) :
    (judgeSlot p slot e s).pending = s.pending := by
  simp only [judgeSlot, raise_pending, State.set_queue, State.count_queue, State.modPort_queue, foldl_pending,
      implies_true, ite_pending, ite_self]

@[simp] theorem releaseSlot_pending (p slot : Nat) (s : State) : (releaseSlot p slot s).pending = s.pending := by
  simp only [releaseSlot, State.modPort_queue]

@[simp] theorem requestRetrain_pending (p : Nat) (s : State) : (requestRetrain p s).pending = s.pending := by
  simp only [requestRetrain, sendFlit_pending, State.set_queue, State.modPort_queue, ite_pending, ite_self]

@[simp] theorem control_pending (op : Nat) (effect : Nat → Isle → Isle) (i : Nat) (s : State) :
    (control op effect i s).pending = s.pending := by
  unfold control
  (repeat' split) <;> first
    | with_reducible rfl
    | simp only [State.modIsle_queue]
    | simp only [State.modIsle_queue, *]

@[simp] theorem noteMarks_pending (i : Nat) (ms : List Mark) (s : State) : (noteMarks i ms s).pending = s.pending := by
  simp only [noteMarks, State.modIsle_queue]

@[simp] theorem noteLaunch_pending (l : Launch) (s : State) : (noteLaunch l s).pending = s.pending := by
  simp only [noteLaunch, State.modIsle_queue]

@[simp] theorem enqueue_pending (i : Nat) (f : Flight) (s : State) : (enqueue i f s).pending = s.pending := by
  simp only [enqueue, State.modIsle_queue]

@[simp] theorem noteReads_pending (l : Launch) (keeps : Bool) (cells : List (Nat × Nat)) (s : State) :
    (noteReads l keeps cells s).pending = s.pending := by
  unfold noteReads
  (repeat' split) <;> first
    | with_reducible rfl
    | simp only [detect_pending, enqueue_pending, foldl_pending, implies_true]
    | simp only [detect_pending, enqueue_pending, foldl_pending, implies_true, *]

@[simp] theorem noteTensors_pending (l : Launch) (ks : List Nat) (t d : Nat) (s : State) :
    (noteTensors l ks t d s).pending = s.pending := by
  simp only [noteTensors, noteReads_pending]

@[simp] theorem writeLater_pending (l : Launch) (dst : Tensor) (t d : Nat) (bytes : List Nat) (counts : List (Nat × Ctr × Nat)) (s : State) : (writeLater l dst t d bytes counts s).pending = s.pending := by
  simp only [writeLater, enqueue_pending]

@[simp] theorem streamPass_pending (l : Launch) (stat : List Nat) (s : State) :
    (streamPass l stat s).pending = s.pending := by
  simp only [streamPass, noteReads_pending, enqueue_pending, State.modIsle_queue, ite_pending, ite_self]

@[simp] theorem writeRuns_pending (i : Nat) (rs : List (Nat × List Nat)) (s : State) :
    (writeRuns i rs s).pending = s.pending := by
  simp only [writeRuns, lagoonWrite_pending, foldl_pending, implies_true]

@[simp] theorem lowerWrite_pending (i c o mask : Nat) (bytes : List Nat) (poison : Bool) (s : State) :
    (lowerWrite i c o mask bytes poison s).pending = s.pending := by
  simp only [lowerWrite]
  (repeat' split) <;> first
    | with_reducible rfl
    | simp only [rmwWord_pending, detectIf_pending, writeWord_pending, ite_pending, ite_self]
    | simp only [rmwWord_pending, detectIf_pending, writeWord_pending, ite_pending, ite_self, *]

@[simp] theorem perform_pending (i : Nat) (f : Flight) (s : State) : (perform i f s).pending = s.pending := by
  unfold perform
  (repeat' split) <;> first
    | with_reducible rfl
    | simp only [writeRuns_pending, noteMarks_pending, releaseSlot_pending, lowerWrite_pending, readWord_pending,
        streamPass_pending, State.modIsle_queue, ite_pending, ite_self]
    | simp only [writeRuns_pending, noteMarks_pending, releaseSlot_pending, lowerWrite_pending, readWord_pending,
        streamPass_pending, State.modIsle_queue, ite_pending, ite_self, *]

@[simp] theorem landSome_pending (x0 : Nat) (x1 : Nat) (x2 : Nat) (s : State) :
    (landSome x0 x1 x2 s).pending = s.pending := by
  induction x0 generalizing x1 x2 s with
  | zero => simp only [landSome]
  | succ n ih => unfold landSome; (repeat' split) <;> simp_all only [perform_pending, State.modIsle_queue, ite_pending,
      ite_self, ih]

@[simp] theorem land_pending (i c : Nat) (s : State) : (land i c s).pending = s.pending := by
  simp only [land, landSome_pending]

@[simp] theorem cutOff_pending (i v : Nat) (f : Flight) (s : State) : (cutOff i v f s).pending = s.pending := by
  unfold cutOff
  (repeat' split) <;> first
    | with_reducible rfl
    | simp only [noteMarks_pending, releaseSlot_pending, State.modPort_queue, ite_pending, ite_self]
    | simp only [noteMarks_pending, releaseSlot_pending, State.modPort_queue, ite_pending, ite_self, *]

@[simp] theorem cutFlights_pending (i v : Nat) (s : State) : (cutFlights i v s).pending = s.pending := by
  simp only [cutFlights, cutOff_pending, State.modIsle_queue, foldl_pending, implies_true]

@[simp] theorem launch_pending (op : Nat) (effect : Launch → State → State) (i : Nat) (s : State) (h_effect : ∀ a0 t,
    (effect a0 t).pending = t.pending) : (launch op effect i s).pending = s.pending := by
  simp only [launch]
  (repeat' split) <;> first
    | with_reducible rfl
    | simp only [land_pending, noteLaunch_pending, State.modIsle_queue, ite_pending, ite_self, h_effect]
    | simp only [land_pending, noteLaunch_pending, State.modIsle_queue, ite_pending, ite_self, h_effect, *]

@[simp] theorem setLh_pending (v : Nat) (s : State) : (setLh v s).pending = s.pending := by
  simp only [setLh, State.set_queue]

@[simp] theorem setOrigin_pending (o : Nat) (s : State) : (setOrigin o s).pending = s.pending := by
  simp only [setOrigin, State.set_queue, State.modLh_queue, ite_pending, ite_self]

@[simp] theorem startLt_pending (s : State) : (startLt s).pending = s.pending := by
  simp only [startLt, State.modLh_queue]

@[simp] theorem takeRole_pending (s : State) : (takeRole s).pending = s.pending := by
  simp only [takeRole, setLh_pending, startLt_pending, State.modLh_queue, ite_pending, ite_self]

@[simp] theorem lhToFree_pending (s : State) : (lhToFree s).pending = s.pending := by
  simp only [lhToFree, setLh_pending, State.set_queue, State.modLh_queue, foldl_pending, implies_true]

@[simp] theorem enterMaster_pending (epoch : Nat) (s : State) : (enterMaster epoch s).pending = s.pending := by
  simp only [enterMaster, setLh_pending, State.set_queue, State.modLh_queue]

@[simp] theorem promote_pending (s : State) : (promote s).pending = s.pending := by
  simp only [promote, raise_pending, enterMaster_pending]

@[simp] theorem enterUnlocked_pending (s : State) : (enterUnlocked s).pending = s.pending := by
  simp only [enterUnlocked, raise_pending, setLh_pending, State.modLh_queue]

@[simp] theorem servo_pending (s : State) : (servo s).pending = s.pending := by
  simp only [servo]
  (repeat' split) <;> first
    | with_reducible rfl
    | simp only [enterUnlocked_pending, State.set_queue, State.setFlag_queue, foldl_pending, implies_true, ite_pending,
        ite_self]
    | simp only [enterUnlocked_pending, State.set_queue, State.setFlag_queue, foldl_pending, implies_true, ite_pending,
        ite_self, *]

@[simp] theorem takeEstimate_pending (p : Nat) (o2 : Int) (s : State) : (takeEstimate p o2 s).pending = s.pending := by
  simp only [takeEstimate, servo_pending, State.set_queue, State.modLh_queue, ite_pending, ite_self]

@[simp] theorem masterHears_pending (src epoch : Nat) (s : State) : (masterHears src epoch s).pending = s.pending := by
  simp only [masterHears, State.modLh_queue, ite_pending, ite_self]

@[simp] theorem takeFlit0_pending (p t2 : Nat) (f : Flit) (s : State) : (takeFlit0 p t2 f s).pending = s.pending := by
  simp only [takeFlit0, raise_pending, setOrigin_pending, State.set_queue, State.setFlag_queue, State.modLh_queue,
      ite_pending, ite_self]

@[simp] theorem takeEcho_pending (p : Nat) (f : Flit) (s : State) : (takeEcho p f s).pending = s.pending := by
  unfold takeEcho
  (repeat' split) <;> first
    | with_reducible rfl
    | simp only [takeEstimate_pending, ite_pending, ite_self]
    | simp only [takeEstimate_pending, ite_pending, ite_self, *]

@[simp] theorem takeAlive_pending (j : Nat) (f : Flit) (s : State) : (takeAlive j f s).pending = s.pending := by
  simp only [takeAlive, State.modLh_queue, ite_pending, ite_self]

@[simp] theorem takeMaster_pending (p j t2 : Nat) (f : Flit) (s : State) : (takeMaster p j t2 f s).pending = s.pending := by
  unfold takeMaster
  simp only []
  split
  · rw [raiseOnce_pending, State.set_queue]
  · split
    · rfl
    · split
      · rw [masterHears_pending]
      · split
        · rfl
        · apply inOneCycle_pending
          intro t
          simp only [startLt_pending, takeAlive_pending, takeFlit0_pending, takeEcho_pending, State.set_queue,
              State.modLh_queue,
            ite_pending, ite_self]

@[simp] theorem applyStep_pending (s : State) : (applyStep s).pending = s.pending := by
  unfold applyStep
  (repeat' split) <;> first
    | with_reducible rfl
    | simp only [portLeave_pending, State.set_queue, State.modLh_queue, foldl_pending, implies_true, ite_pending, ite_self]
    | simp only [portLeave_pending, State.set_queue, State.modLh_queue, foldl_pending, implies_true, ite_pending, ite_self, *]

@[simp] theorem lighthouseTick_pending (s : State) : (lighthouseTick s).pending = s.pending := by
  simp only [lighthouseTick, State.set_queue, State.modLh_queue, foldl_pending, implies_true, ite_pending, ite_self]

@[simp] theorem idle_pending (s : State) : (idle s).pending = s.pending := by
  simp only [idle, State.set_queue, ite_pending, ite_self]

@[simp] theorem setIsleState_pending (i : Nat) (st : IsleState) (s : State) : (setIsleState i st s).pending = s.pending := by
  simp only [setIsleState, State.count_queue, State.modIsle_queue, ite_pending, ite_self]

@[simp] theorem moveIsles_pending (is : List Nat) (src : List IsleState) (dst : IsleState) (s : State) :
    (moveIsles is src dst s).pending = s.pending := by
  simp only [moveIsles, setIsleState_pending, foldl_pending, implies_true, ite_pending, ite_self]

@[simp] theorem voidIsle_pending (v cause source i : Nat) (s : State) :
    (voidIsle v cause source i s).pending = s.pending := by
  simp only [voidIsle, cutFlights_pending, land_pending, lagoonForget_pending, State.modIsle_queue, State.modSlice_queue,
      State.draw_queue, ite_pending, ite_self]

@[simp] theorem voidArch_pending (a v cause source : Nat) (s : State) :
    (voidArch a v cause source s).pending = s.pending := by
  simp only [voidArch, emissionsVoid_pending, raise_pending, voidIsle_pending, State.set_queue, State.modArch_queue,
      foldl_pending, implies_true, ite_pending, ite_self]

@[simp] theorem voidAll_pending (v cause : Nat) (s : State) : (voidAll v cause s).pending = s.pending := by
  simp only [voidAll, voidArch_pending, foldl_pending, implies_true, ite_pending, ite_self]

@[simp] theorem recordOutcome_pending (a : Nat) (s : State) : (recordOutcome a s).pending = s.pending := by
  simp only [recordOutcome, State.modIsle_queue, foldl_pending, implies_true, ite_pending, ite_self]

@[simp] theorem uninstall_pending (a : Nat) (s : State) : (uninstall a s).pending = s.pending := by
  simp only [uninstall, land_pending, recordOutcome_pending, State.set_queue, State.modIsle_queue, State.modArch_queue,
      State.modSlice_queue, foldl_pending, implies_true]

@[simp] theorem idleIsles_pending (a : Nat) (s : State) : (idleIsles a s).pending = s.pending := by
  simp only [idleIsles, idle_pending, moveIsles_pending]

@[simp] theorem archOff_pending (v cause source a : Nat) (s : State) : (archOff v cause source a s).pending = s.pending := by
  simp only [archOff, idle_pending, cutFlights_pending, land_pending, voidArch_pending, moveIsles_pending,
      uninstall_pending, foldl_pending, implies_true, ite_pending, ite_self]

@[simp] theorem islesOff_pending (is : List Nat) (v cause : Nat) (s : State) :
    (islesOff is v cause s).pending = s.pending := by
  unfold islesOff
  simp only []
  rw [foldl_pending, foldl_pending _ (fun _ _ => by rw [setIsleState_pending, State.modIsle_queue])]
  intro t a
  split
  · exact archOff_pending _ _ _ _ _
  · rfl

@[simp] theorem stackIslesOff_pending (k v cause : Nat) (s : State) : (stackIslesOff k v cause s).pending = s.pending := by
  simp only [stackIslesOff, islesOff_pending]

@[simp] theorem refuseRequest_pending (i : Nat) (s : State) : (refuseRequest i s).pending = s.pending := by
  simp only [refuseRequest, State.bump_queue]

@[simp] theorem applyOn_pending (i : Nat) (s : State) : (applyOn i s).pending = s.pending := by
  simp only [applyOn, refuseRequest_pending, setIsleState_pending, State.modIsle_queue, ite_pending, ite_self]

@[simp] theorem applyGroup_pending (is : List Nat) (x0 : Option Nat) (x1 : List (Nat × Nat)) (s : State) :
    (applyGroup is x0 x1 s).pending = s.pending := by
  induction x1 generalizing x0 s with
  | nil => simp only [applyGroup]
  | cons e es ih => unfold applyGroup; (repeat' split) <;> simp_all only [refuseRequest_pending, moveIsles_pending,
      ite_pending, ite_self, ih]

@[simp] theorem applyRequests_pending (items : List (Nat × Nat)) (s : State) :
    (applyRequests items s).pending = s.pending := by
  simp only [applyRequests, applyOn_pending, applyGroup_pending, foldl_pending, implies_true]

@[simp] theorem applyPending_pending (s : State) : (applyPending s).pending = s.pending := by
  simp only [applyPending, raise_pending, applyRequests_pending, moveIsles_pending, State.set_queue, State.modArch_queue,
      foldl_pending, implies_true, ite_pending, ite_self]

@[simp] theorem copyIsle_pending (i : Nat) (s : State) : (copyIsle i s).pending = s.pending := by
  simp only [copyIsle, State.set_queue, State.setFlag_queue]

@[simp] theorem copyIsles_pending (s : State) : (copyIsles s).pending = s.pending := by
  simp only [copyIsles, copyIsle_pending, foldl_pending, implies_true]

@[simp] theorem isleRequest_pending (i r v : Nat) (s : State) : (isleRequest i r v s).pending = s.pending := by
  unfold isleRequest; (repeat' split) <;> simp_all

@[simp] theorem nbuRead_pending (i : Nat) (c : NbuCmd) (b : Nat × Nat) (j : Nat) (x0 : List Nat) (s : State) :
    (nbuRead i c b j x0 s).2.2.pending = s.pending := by
  induction x0 generalizing s with
  | nil => simp only [nbuRead]
  | cons e es ih => simp only [nbuRead, readRaw_pending, ih]

@[simp] theorem nbuPut_pending (i : Nat) (c : NbuCmd) (b : Nat × Nat) (j : Nat) (poison : Bool) (s : State) (w : Nat × List Nat) : (nbuPut i c b j poison s w).pending = s.pending := by
  simp only [nbuPut, storeWord_pending]

@[simp] theorem nbuWrite_pending (i : Nat) (c : NbuCmd) (b : Nat × Nat) (j : Nat) (poison : Bool) (ws : List (Nat × List Nat)) (s : State) :
    (nbuWrite i c b j poison ws s).pending = s.pending := by
  unfold nbuWrite
  rw [foldl_pending _ (nbuPut_pending i c b j poison)]

@[simp] theorem nbuIndex_pending (i : Nat) (c : NbuCmd) (b : Nat × Nat) (j : Nat) (ts : BankTally × State) :
    (nbuIndex i c b j ts).2.pending = ts.2.pending := by
  unfold nbuIndex
  simp only []
  split
  · simp
  · split <;> simp

@[simp] theorem nbuBank_pending (i n : Nat) (c : NbuCmd) (acc : List Nat × Bool × State) (b : Nat × Nat) :
    (nbuBank i n c acc b).2.2.pending = acc.2.2.pending := by
  unfold nbuBank
  simp only [State.bump_queue]
  rw [foldl_pending_snd _ (fun t x => nbuIndex_pending _ _ _ _ _)]

theorem bankList_pending (i n : Nat) (c : NbuCmd) (l : List (Nat × Nat)) (acc : List Nat × Bool × State) :
    (l.foldl (nbuBank i n c) acc).2.2.pending = acc.2.2.pending := by
  induction l generalizing acc with
  | nil => rfl
  | cons x l ih => rw [List.foldl_cons, ih, nbuBank_pending]

@[simp] theorem nbuOperate_pending (op i n : Nat) (s : State) : (nbuOperate op i n s).pending = s.pending := by
  unfold nbuOperate
  simp only []
  split
  · rfl
  · split
    · rfl
    · simp only [State.modSlice_queue, ite_pending, raiseOnce_pending, ite_self, bankList_pending]

@[simp] theorem beatError_pending (i n : Nat) (s : State) : (beatError i n s).pending = s.pending := by
  simp only [beatError, raise_pending, State.bump_queue, ite_pending, ite_self]

@[simp] theorem nbuStart_pending (i t n : Nat) (c : NbuCmd) (result : Option (List Nat × Nat)) (s : State) :
    (nbuStart i t n c result s).pending = s.pending := by
  simp only [nbuStart, beatError_pending, State.modSlice_queue]

@[simp] theorem ferryEffect_pending (damaged : Nat) (l : Launch) (s : State) :
    (ferryEffect damaged l s).pending = s.pending := by
  simp only [ferryEffect, nbuStart_pending, noteTensors_pending, State.count_queue, State.modArch_queue, ite_pending,
      ite_self]

@[simp] theorem endHostCmd_pending (i : Nat) (r : NbuRun) (s : State) : (endHostCmd i r s).pending = s.pending := by
  simp only [endHostCmd, State.setWords_pending, State.set_queue, State.count_queue, ite_pending, ite_self]

@[simp] theorem endFerry_pending (i : Nat) (r : NbuRun) (s : State) : (endFerry i r s).pending = s.pending := by
  unfold endFerry
  (repeat' split) <;> first
    | with_reducible rfl
    | simp only [detectIf_pending, enqueue_pending, ite_pending, ite_self]
    | simp only [detectIf_pending, enqueue_pending, ite_pending, ite_self, *]

@[simp] theorem noneRequested_pending (a v : Nat) (s : State) : (noneRequested a v s).pending = s.pending := by
  unfold noneRequested
  (repeat' split) <;> first
    | with_reducible rfl
    | simp only [forgetRequest_pending, ite_pending, ite_self]
    | simp only [forgetRequest_pending, ite_pending, ite_self, *]

@[simp] theorem bar0WriteAt_pending (func a bytes v : Nat) (s : State) :
    (bar0WriteAt func a bytes v s).pending = s.pending := by
  unfold bar0WriteAt
  (repeat' split) <;> first
    | with_reducible rfl
    | simp only [writeReg_pending, noneRequested_pending, ite_pending, ite_self]
    | simp only [writeReg_pending, noneRequested_pending, ite_pending, ite_self, *]

@[simp] theorem bar0Write4_pending (func a v : Nat) (s : State) : (bar0Write4 func a v s).pending = s.pending := by
  unfold bar0Write4
  (repeat' split) <;> first
    | with_reducible rfl
    | simp only [bar0WriteAt_pending, writeMsix_pending, ite_pending, ite_self]
    | simp only [bar0WriteAt_pending, writeMsix_pending, ite_pending, ite_self, *]

@[simp] theorem bar0Bad_pending (func : Nat) (s : State) : (bar0Bad func s).pending = s.pending := by
  simp only [bar0Bad, raiseOnceFrame_pending, State.bump_queue]

@[simp] theorem registerWrite_pending (func a width v : Nat) (s : State) :
    (registerWrite func a width v s).pending = s.pending := by
  unfold registerWrite
  (repeat' split) <;> first
    | with_reducible rfl
    | simp only [bar0Write4_pending, bar0WriteAt_pending, bar0Bad_pending, ite_pending, ite_self]
    | simp only [bar0Write4_pending, bar0WriteAt_pending, bar0Bad_pending, ite_pending, ite_self, *]

@[simp] theorem tasNow_pending (b : Nat) (s : State) : (tasNow b s).2.pending = s.pending := by
  simp only [tasNow, evalWaiters_pending, setBollard_pending, ite_pending, ite_self]

@[simp] theorem hostHeader_pending (s : State) : (hostHeader s).2.pending = s.pending := by
  simp only [hostHeader, State.draw_queue]

@[simp] theorem readWhole_pending (func a : Nat) (r : Reg) (s : State) : (readWhole func a r s).2.pending = s.pending := by
  simp only [readWhole]
  (repeat' split) <;> first
    | with_reducible rfl
    | simp only [hostHeader_pending, tasNow_pending, readIsleState_pending, clearRead_pending, readPeek_pending,
        ite_pending, ite_self]
    | simp only [hostHeader_pending, tasNow_pending, readIsleState_pending, clearRead_pending, readPeek_pending,
        ite_pending, ite_self, *]

@[simp] theorem bar0Read4_pending (func a : Nat) (s : State) : (bar0Read4 func a s).2.pending = s.pending := by
  unfold bar0Read4
  (repeat' split) <;> first
    | with_reducible rfl
    | simp only [readWhole_pending, ite_pending, ite_self]
    | simp only [readWhole_pending, ite_pending, ite_self, *]

@[simp] theorem bar0Read_pending (func a width : Nat) (s : State) : (bar0Read func a width s).2.pending = s.pending := by
  simp only [bar0Read]
  (repeat' split) <;> first
    | with_reducible rfl
    | simp only [bar0Read4_pending, readWhole_pending, ite_pending, ite_self]
    | simp only [bar0Read4_pending, readWhole_pending, ite_pending, ite_self, *]

@[simp] theorem bar0Answer_pending (func a width : Nat) (s : State) : (bar0Answer func a width s).pending = s.pending := by
  simp only [bar0Answer, bar0Read_pending, bar0Bad_pending, State.emit_queue, ite_pending, ite_self]

@[simp] theorem bollardTas_pending (who b : Nat) (more : Bool) (s : State) :
    (bollardTas who b more s).pending = s.pending := by
  simp only [bollardTas, cycleOp_pending, State.emit_queue, ite_pending, ite_self]

@[simp] theorem aerReport_pending (func : Nat) (what : String) (hdr : List Nat) (s : State) :
    (aerReport func what hdr s).pending = s.pending := by
  simp only [aerReport, State.emit_queue, ite_pending, ite_self]

@[simp] theorem hostviewWrite_pending (view : Nat) (s : State) : (hostviewWrite view s).pending = s.pending := by
  simp only [hostviewWrite, State.set_queue, ite_pending, ite_self]

@[simp] theorem bar2WindowWrite_pending (offset size : Nat) (s : State) :
    (bar2WindowWrite offset size s).pending = s.pending := by
  simp only [bar2WindowWrite, State.set_queue, ite_pending, ite_self]

@[simp] theorem bar2Refuse_pending (tag : Nat) (write : Bool) (hdr : List Nat) (s : State) :
    (bar2Refuse tag write hdr s).pending = s.pending := by
  simp only [bar2Refuse, raiseOnceFrame_pending, aerReport_pending, State.bump_queue, State.emit_queue, ite_pending, ite_self]

@[simp] theorem dmaEnd_pending (e code : Nat) (linkUp : Bool) (s : State) : (dmaEnd e code linkUp s).pending = s.pending := by
  simp only [dmaEnd]
  (repeat' split) <;> first
    | with_reducible rfl
    | simp only [filterAccesses_pending, notify_pending, raise_pending, releaseArbiters_pending, State.set_queue,
        State.count_queue, State.emit_queue, State.setDma_queue, State.setReads_queue, ite_pending, ite_self]
    | simp only [filterAccesses_pending, notify_pending, raise_pending, releaseArbiters_pending, State.set_queue,
        State.count_queue, State.emit_queue, State.setDma_queue, State.setReads_queue, ite_pending, ite_self, *]

@[simp] theorem dmaSettle_pending (e : Nat) (s : State) : (dmaSettle e s).pending = s.pending := by
  simp only [dmaSettle, dmaEnd_pending, ite_pending, ite_self]

@[simp] theorem dmaMoved_pending (e n : Nat) (bad : Bool) (s : State) : (dmaMoved e n bad s).pending = s.pending := by
  simp only [dmaMoved, State.count_queue, State.modDma_queue]

@[simp] theorem dmaStop_pending (linkUp : Bool) (e : Nat) (s : State) : (dmaStop linkUp e s).pending = s.pending := by
  simp only [dmaStop, dmaEnd_pending, State.set_queue, State.setDma_queue, ite_pending, ite_self]

@[simp] theorem dmaEnable_pending (e ctrl : Nat) (s : State) : (dmaEnable e ctrl s).pending = s.pending := by
  simp only [dmaEnable, writeRest_pending, State.set_queue, ite_pending, ite_self]

@[simp] theorem dmaDisable_pending (e ctrl : Nat) (s : State) : (dmaDisable e ctrl s).pending = s.pending := by
  simp only [dmaDisable, dmaStop_pending, writeRest_pending, ite_pending, ite_self]

@[simp] theorem dmaDoorbell_pending (e pi : Nat) (s : State) : (dmaDoorbell e pi s).pending = s.pending := by
  simp only [dmaDoorbell, State.set_queue, State.bump_queue, ite_pending, ite_self]

@[simp] theorem dmaResume_pending (e : Nat) (s : State) : (dmaResume e s).pending = s.pending := by
  simp only [dmaResume, State.set_queue, ite_pending, ite_self]

@[simp] theorem grantDma_pending (e : Nat) (d : DmaDesc) (s : State) : (grantDma e d s).pending = s.pending := by
  simp only [grantDma, pushRead_pending, State.emit_queue, State.setDma_queue, State.setReads_queue, ite_pending, ite_self]

@[simp] theorem grantDelivery_pending (q : Nat) (b : QuayBind) (p : Packet) (s : State) :
    (grantDelivery q b p s).pending = s.pending := by
  simp only [grantDelivery, pushRead_pending, State.emit_queue, State.modQuay_queue, State.setReads_queue, ite_pending,
      ite_self]

@[simp] theorem grantEmission_pending (q : Nat) (b : QuayBind) (e : Emission) (s : State) :
    (grantEmission q b e s).pending = s.pending := by
  simp only [grantEmission, ringWrite_pending, drainClosing_pending, State.modQuay_queue, ite_pending, ite_self]

@[simp] theorem grantBurst_pending (toHost : Bool) (r : Nat) (s : State) : (grantBurst toHost r s).pending = s.pending := by
  simp only [grantBurst]
  (repeat' split) <;> first
    | with_reducible rfl
    | simp only [grantDelivery_pending, grantEmission_pending, releaseArbiters_pending, grantDma_pending, ite_pending,
        ite_self]
    | simp only [grantDelivery_pending, grantEmission_pending, releaseArbiters_pending, grantDma_pending, ite_pending,
        ite_self, *]

@[simp] theorem fetchFailed_pending (q : Nat) (reason : Nat) (s : State) : (fetchFailed q reason s).pending = s.pending := by
  unfold fetchFailed
  (repeat' split) <;> first
    | with_reducible rfl
    | simp only [filterAccesses_pending, packetBad_pending, releaseArbiters_pending, State.setReads_queue]
    | simp only [filterAccesses_pending, packetBad_pending, releaseArbiters_pending, State.setReads_queue, *]

@[simp] theorem stageDelivery_pending (q : Nat) (data : List Nat) (s : State) :
    (stageDelivery q data s).pending = s.pending := by
  unfold stageDelivery
  (repeat' split) <;> first
    | with_reducible rfl
    | simp only [pushWrite_pending, releaseArbiters_pending, State.modQuay_queue]
    | simp only [pushWrite_pending, releaseArbiters_pending, State.modQuay_queue, *]

@[simp] theorem stageDma_pending (e : Nat) (data : List Nat) (s : State) : (stageDma e data s).pending = s.pending := by
  unfold stageDma
  (repeat' split) <;> first
    | with_reducible rfl
    | simp only [pushWrite_pending, releaseArbiters_pending, State.setDma_queue]
    | simp only [pushWrite_pending, releaseArbiters_pending, State.setDma_queue, *]

@[simp] theorem hostReadFailed_pending (r code : Nat) (s : State) : (hostReadFailed r code s).pending = s.pending := by
  simp only [hostReadFailed, fetchFailed_pending, dmaEnd_pending, ite_pending, ite_self]

@[simp] theorem disarmAll_pending (owner : Nat) (s : State) : (disarmAll owner s).pending = s.pending := by
  simp only [disarmAll, disarm_pending, foldl_pending, implies_true, ite_pending, ite_self]

@[simp] theorem vfReset_pending (f : Nat) (s : State) : (vfReset f s).pending = s.pending := by
  simp only [vfReset, clearMsix_pending, disarmAll_pending, quaysOff_pending]

@[simp] theorem vfsOff_pending (s : State) : (vfsOff s).pending = s.pending := by
  simp only [vfsOff, vfReset_pending, foldl_pending, implies_true]

@[simp] theorem dmaStopAll_pending (linkUp : Bool) (s : State) : (dmaStopAll linkUp s).pending = s.pending := by
  simp only [dmaStopAll, dmaStop_pending, foldl_pending, implies_true]

@[simp] theorem pfReset_pending (linkUp : Bool) (s : State) : (pfReset linkUp s).pending = s.pending := by
  simp only [pfReset, dmaStopAll_pending, clearMsix_pending, disarmAll_pending, vfsOff_pending, quaysOff_pending,
      State.set_queue]

@[simp] theorem linkDown_pending (s : State) : (linkDown s).pending = s.pending := by
  simp only [linkDown, filterAccesses_pending, dmaStopAll_pending, quaysOff_pending]

@[simp] theorem setMapWord_pending (k v : Nat) (s : State) : (setMapWord k v s).pending = s.pending := by
  simp only [setMapWord, State.set_queue]

@[simp] theorem clearMaps_pending (s : State) : (clearMaps s).pending = s.pending := by
  simp only [clearMaps, setMapWord_pending, foldl_pending, implies_true]

@[simp] theorem refugeWord_pending (i o : Nat) (data : List Nat) (poison : Bool) (s : State) :
    (refugeWord i o data poison s).pending = s.pending := by
  simp only [refugeWord, storeBare_pending]

@[simp] theorem refugeBytes_pending (i o : Nat) (bs : List Nat) (s : State) : (refugeBytes i o bs s).pending = s.pending := by
  simp only [refugeBytes, readRaw_pending, refugeWord_pending]

@[simp] theorem setDirEntry_pending (i e : Nat) (d : DirEntry) (s : State) : (setDirEntry i e d s).pending = s.pending := by
  simp only [setDirEntry, refugeBytes_pending]

@[simp] theorem notePool_pending (s : State) : (notePool s).pending = s.pending := by
  simp only [notePool, State.set_queue, foldl_pending, implies_true, ite_pending, ite_self]

@[simp] theorem clearUsed_pending (which : DirEntry → Bool) (s : State) : (clearUsed which s).pending = s.pending := by
  simp only [clearUsed, setDirEntry_pending, foldl_pending, implies_true, ite_pending, ite_self]

@[simp] theorem stagePiece_pending (j : CkpJob) (data : List Nat) (mask : Nat) (s : State) :
    (stagePiece j data mask s).pending = s.pending := by
  simp only [stagePiece, State.setCkp_queue]

@[simp] theorem stageSeal_pending (s : State) : (stageSeal s).pending = s.pending := by
  simp only [stageSeal]
  (repeat' split) <;> first
    | with_reducible rfl
    | simp only [readRaw_pending, State.setCkp_queue, ite_pending, ite_self]
    | simp only [readRaw_pending, State.setCkp_queue, ite_pending, ite_self, *]

@[simp] theorem ckpPump_pending (n : Nat) (s : State) : (ckpPump n s).pending = s.pending := by
  induction n generalizing s with
  | zero => rfl
  | succ n ih =>
    unfold ckpPump
    simp only []
    split
    · rfl
    · split
      · split
        · exact stageSeal_pending _
        · rfl
      · split
        · rw [pushAccess_pending, State.setCkp_queue]
        · rw [ih, stagePiece_pending, State.setCkp_queue]

@[simp] theorem pumpAll_pending (s : State) : (pumpAll s).pending = s.pending := by
  simp only [pumpAll, ckpPump_pending]

@[simp] theorem ckpReadDone_pending (data : List Nat) (mask : Nat) (s : State) :
    (ckpReadDone data mask s).pending = s.pending := by
  unfold ckpReadDone
  (repeat' split) <;> first
    | with_reducible rfl
    | simp only [pumpAll_pending, stagePiece_pending]
    | simp only [pumpAll_pending, stagePiece_pending, *]

@[simp] theorem fillSlot_pending (x : Nat × Nat × Nat × Nat × Nat) (s : State) : (fillSlot x s).pending = s.pending := by
  simp only [fillSlot, State.set_queue, State.count_queue, State.modPort_queue, State.setCkp_queue, foldl_pending,
      implies_true, ite_pending, ite_self]

@[simp] theorem ckpRendezvous_pending (s : State) : (ckpRendezvous s).pending = s.pending := by
  simp only [ckpRendezvous]
  (repeat' split) <;> first
    | with_reducible rfl
    | simp only [pumpAll_pending, fillSlot_pending, State.setCkp_queue, foldl_pending, implies_true, ite_pending, ite_self]
    | simp only [pumpAll_pending, fillSlot_pending, State.setCkp_queue, foldl_pending, implies_true, ite_pending, ite_self, *]

@[simp] theorem archRequest_pending (a r : Nat) (s : State) : (archRequest a r s).pending = s.pending := by
  simp only [archRequest, isleRequest_pending]

@[simp] theorem ckpStart_pending (s : State) : (ckpStart s).pending = s.pending := by
  simp only [ckpStart, raise_pending, archRequest_pending, State.set_queue, State.count_queue, State.setCkp_queue,
      foldl_pending, implies_true]

@[simp] theorem ckpTrigger_pending (cause now : Nat) (s : State) : (ckpTrigger cause now s).pending = s.pending := by
  simp only [ckpTrigger, raise_pending, ckpStart_pending, State.set_queue, ite_pending, ite_self]

@[simp] theorem ckpCut_pending (fn : Nat) (s : State) : (ckpCut fn s).pending = s.pending := by
  simp only [ckpCut, clearMaps_pending, raise_pending, pumpAll_pending, State.set_queue, State.setCkp_queue, ite_pending,
      ite_self]

@[simp] theorem dropReads_pending (s : State) : (dropReads s).pending = s.pending := by
  simp only [dropReads, filterAccesses_pending]

@[simp] theorem ckpFinish_pending (now : Nat) (s : State) : (ckpFinish now s).pending = s.pending := by
  simp only [ckpFinish, dropReads_pending, archRequest_pending, ckpStart_pending, State.set_queue, State.setCkp_queue,
      foldl_pending, implies_true, ite_pending, ite_self]

@[simp] theorem ckpAbandon_pending (reason now : Nat) (s : State) : (ckpAbandon reason now s).pending = s.pending := by
  simp only [ckpAbandon, raise_pending, ckpFinish_pending, setMapWord_pending, State.set_queue, State.bump_queue,
      foldl_pending, implies_true]

@[simp] theorem refugeReset_pending (s : State) : (refugeReset s).pending = s.pending := by
  simp only [refugeReset, refugeBytes_pending, clearUsed_pending, notePool_pending, State.set_queue, State.setCkp_queue,
      ite_pending, ite_self]

@[simp] theorem ckpWrite_pending (w now : Nat) (s : State) : (ckpWrite w now s).pending = s.pending := by
  simp only [ckpWrite, clearMaps_pending, writeRest_pending, ckpTrigger_pending, ckpAbandon_pending, notePool_pending,
      refugeReset_pending, State.set_queue, ite_pending, ite_self]

@[simp] theorem sendReply_pending (dest : Nat) (u : CkpUnit) (s : State) : (sendReply dest u s).pending = s.pending := by
  simp only [sendReply, State.setCkp_queue]

@[simp] theorem sendAck_pending (dest gen : Nat) (restore : Bool) (s : State) :
    (sendAck dest gen restore s).pending = s.pending := by
  simp only [sendAck, sendReply_pending]

@[simp] theorem putRx_pending (r : CkpRx) (s : State) : (putRx r s).pending = s.pending := by
  simp only [putRx, State.setCkp_queue]

@[simp] theorem dropRx_pending (r : CkpRx) (s : State) : (dropRx r s).pending = s.pending := by
  simp only [dropRx, State.setCkp_queue]

@[simp] theorem nakOnce_pending (r : CkpRx) (reason : Nat) (s : State) : (nakOnce r reason s).pending = s.pending := by
  simp only [nakOnce, putRx_pending, sendReply_pending, ite_pending, ite_self]

@[simp] theorem queuePiece_pending (r : CkpRx) (i off : Nat) (u : CkpUnit) (s : State) :
    (queuePiece r i off u s).pending = s.pending := by
  simp only [queuePiece, pushAccess_pending]

@[simp] theorem ckpCommit_pending (r : CkpRx) (cutFn : Nat) (s : State) : (ckpCommit r cutFn s).pending = s.pending := by
  simp only [ckpCommit, dropRx_pending, setDirEntry_pending, clearUsed_pending, notePool_pending, refugeWord_pending,
      sendAck_pending, State.set_queue, foldl_pending, implies_true, ite_pending, ite_self]

@[simp] theorem restoreDone_pending (r : CkpRx) (s : State) : (restoreDone r s).pending = s.pending := by
  simp only [restoreDone, dropRx_pending, clearMaps_pending, sendAck_pending, State.set_queue]

@[simp] theorem judgeRx_pending (r : CkpRx) (s : State) : (judgeRx r s).pending = s.pending := by
  unfold judgeRx
  (repeat' split) <;> first
    | with_reducible rfl
    | simp only [ckpCommit_pending, restoreDone_pending, ite_pending, ite_self]
    | simp only [ckpCommit_pending, restoreDone_pending, ite_pending, ite_self, *]

@[simp] theorem poolPiece_pending (u : CkpUnit) (r : CkpRx) (s : State) : (poolPiece u r s).pending = s.pending := by
  unfold poolPiece
  simp only []
  split
  · simp only [nakOnce_pending, raise_pending, ite_pending, clearUsed_pending, State.setCkp_queue, ite_self]
  · simp only [queuePiece_pending, putRx_pending, ite_pending, clearUsed_pending, State.setCkp_queue, ite_self]

@[simp] theorem restorePiece_pending (u : CkpUnit) (r : CkpRx) (s : State) : (restorePiece u r s).pending = s.pending := by
  unfold restorePiece; (repeat' split) <;> simp_all

@[simp] theorem pieceWritten_pending (src : Nat) (restore : Bool) (gen key : Nat) (s : State) :
    (pieceWritten src restore gen key s).pending = s.pending := by
  unfold pieceWritten
  (repeat' split) <;> first
    | with_reducible rfl
    | simp only [putRx_pending, judgeRx_pending, ite_pending, ite_self]
    | simp only [putRx_pending, judgeRx_pending, ite_pending, ite_self, *]

@[simp] theorem takePiece_pending (u : CkpUnit) (s : State) : (takePiece u s).pending = s.pending := by
  unfold takePiece
  (repeat' split) <;> first
    | with_reducible rfl
    | simp only [nakOnce_pending, restorePiece_pending, poolPiece_pending, ite_pending, ite_self]
    | simp only [nakOnce_pending, restorePiece_pending, poolPiece_pending, ite_pending, ite_self, *]

@[simp] theorem sendMisses_pending (r : CkpRx) (s : State) : (sendMisses r s).pending = s.pending := by
  simp only [sendMisses, sendReply_pending, foldl_pending, implies_true]

@[simp] theorem takeSeal_pending (u : CkpUnit) (s : State) : (takeSeal u s).pending = s.pending := by
  unfold takeSeal
  (repeat' split) <;> first
    | with_reducible rfl
    | simp only [putRx_pending, nakOnce_pending, raise_pending, sendMisses_pending, sendAck_pending, judgeRx_pending,
        State.count_queue, ite_pending, ite_self]
    | simp only [putRx_pending, nakOnce_pending, raise_pending, sendMisses_pending, sendAck_pending, judgeRx_pending,
        State.count_queue, ite_pending, ite_self, *]

@[simp] theorem ckpDiscard_pending (s : State) : (ckpDiscard s).pending = s.pending := by
  simp only [ckpDiscard, filterAccesses_pending, ckpWrite_pending, sendMisses_pending, foldl_pending, implies_true,
      ite_pending, ite_self]

@[simp] theorem takeAck_pending (u : CkpUnit) (now : Nat) (s : State) : (takeAck u now s).pending = s.pending := by
  simp only [takeAck, raise_pending, dropReads_pending, ckpFinish_pending, ckpStart_pending, State.set_queue,
      State.count_queue, State.setCkp_queue, ite_pending, ite_self]

@[simp] theorem takeMiss_pending (u : CkpUnit) (s : State) : (takeMiss u s).pending = s.pending := by
  simp only [takeMiss, raise_pending, pumpAll_pending, State.set_queue, State.bump_queue, State.setCkp_queue, ite_pending,
      ite_self]

@[simp] theorem takeNak_pending (u : CkpUnit) (now : Nat) (s : State) : (takeNak u now s).pending = s.pending := by
  simp only [takeNak, ckpAbandon_pending, State.set_queue, State.count_queue, ite_pending, ite_self]

@[simp] theorem ckpPassed_pending (s : State) : (ckpPassed s).pending = s.pending := by
  simp only [ckpPassed, State.setCkp_queue, ite_pending, ite_self]

@[simp] theorem tasRead_pending (r : InCycle) (x width : Nat) (s : State) : (tasRead r x width s).pending = s.pending := by
  simp only [tasRead, bollardTas_pending, bar0Answer_pending, ite_pending, ite_self]

@[simp] theorem replay_pending (c : Instr) (s : State) : (replay c s).pending = s.pending := by
  unfold replay
  (repeat' split) <;> first
    | with_reducible rfl
    | simp only [hostviewWrite_pending, bar0Answer_pending, bollardAdd_pending, quayConsumerWrite_pending,
        dmaDisable_pending, dmaDoorbell_pending, dmaEnable_pending, waiterDisarm_pending, bar2WindowWrite_pending,
        bollardTas_pending, tasRead_pending, quayEnable_pending, waiterArm_pending, quayDoorbell_pending, quayDisable_pending,
        dmaResume_pending, peekRead_pending, registerWrite_pending, ite_pending, ite_self]
    | simp only [hostviewWrite_pending, bar0Answer_pending, bollardAdd_pending, quayConsumerWrite_pending,
        dmaDisable_pending, dmaDoorbell_pending, dmaEnable_pending, waiterDisarm_pending, bar2WindowWrite_pending,
        bollardTas_pending, tasRead_pending, quayEnable_pending, waiterArm_pending, quayDoorbell_pending, quayDisable_pending,
        dmaResume_pending, peekRead_pending, registerWrite_pending, ite_pending, ite_self, *]

@[simp] theorem releaseHeld_pending (x0 : List HeldOp) (s : State) : (releaseHeld x0 s).pending = s.pending := by
  induction x0 generalizing s with
  | nil => simp only [releaseHeld]
  | cons e es ih => unfold releaseHeld; (repeat' split) <;> simp_all only [replay_pending, ite_pending, ite_self, ih]

@[simp] theorem bar2WriteDone_pending (tag : Nat) (s : State) : (bar2WriteDone tag s).pending = s.pending := by
  simp only [bar2WriteDone, releaseHeld_pending]

@[simp] theorem completions_pending (tag off : Nat) (bad : List Nat) (data : List Nat) (s : State) :
    (completions tag off bad data s).pending = s.pending := by
  simp only [completions, State.emit_queue, foldl_pending, implies_true]

@[simp] theorem emissionRead_pending (q : Nat) (a : HostAcc) (s : State) : (emissionRead q a s).pending = s.pending := by
  unfold emissionRead
  (repeat' split) <;> first
    | with_reducible rfl
    | simp only [ringWrite_pending, State.modQuay_queue, ite_pending, ite_self]
    | simp only [ringWrite_pending, State.modQuay_queue, ite_pending, ite_self, *]

@[simp] theorem ringPayload_pending (q : Nat) (a : HostAcc) (s : State) : (ringPayload q a s).pending = s.pending := by
  simp only [ringPayload, stageDelivery_pending, fetchFailed_pending, ite_pending, ite_self]

@[simp] theorem ringHeaderRead_pending (q : Nat) (a : HostAcc) (s : State) : (ringHeaderRead q a s).pending = s.pending := by
  simp only [ringHeaderRead]
  (repeat' split) <;> first
    | with_reducible rfl
    | simp only [judgeHeader_pending, State.modQuay_queue]
    | simp only [judgeHeader_pending, State.modQuay_queue, *]

@[simp] theorem ringZeroed_pending (q : Nat) (s : State) : (ringZeroed q s).pending = s.pending := by
  unfold ringZeroed
  (repeat' split) <;> first
    | with_reducible rfl
    | simp only [packetGone_pending]
    | simp only [packetGone_pending, *]

@[simp] theorem ringFilled_pending (q : Nat) (last : Bool) (s : State) : (ringFilled q last s).pending = s.pending := by
  unfold ringFilled
  (repeat' split) <;> first
    | with_reducible rfl
    | simp only [emissionGone_pending, ite_pending, ite_self]
    | simp only [emissionGone_pending, ite_pending, ite_self, *]

@[simp] theorem accessStep_pending (a : HostAcc) (n : Nat) (s : State) : (accessStep a n s).pending = s.pending := by
  unfold accessStep
  (repeat' split) <;> first
    | with_reducible rfl
    | simp only [dmaMoved_pending, emissionRead_pending, State.modQuay_queue, ite_pending, ite_self]
    | simp only [dmaMoved_pending, emissionRead_pending, State.modQuay_queue, ite_pending, ite_self, *]

@[simp] theorem dmaSent_pending (e : Nat) (a : HostAcc) (s : State) : (dmaSent e a s).pending = s.pending := by
  unfold dmaSent
  (repeat' split) <;> first
    | with_reducible rfl
    | simp only [dmaSettle_pending, dmaMoved_pending, releaseArbiters_pending, State.emit_queue, State.modDma_queue,
        foldl_pending, implies_true]
    | simp only [dmaSettle_pending, dmaMoved_pending, releaseArbiters_pending, State.emit_queue, State.modDma_queue,
        foldl_pending, implies_true, *]

@[simp] theorem accessDone_pending (a : HostAcc) (s : State) : (accessDone a s).pending = s.pending := by
  unfold accessDone
  (repeat' split) <;> first
    | with_reducible rfl
    | simp only [bar2WriteDone_pending, ckpWrite_pending, dmaSettle_pending, pieceWritten_pending, ringFilled_pending,
        ckpReadDone_pending, completions_pending, ringHeaderRead_pending, ringPayload_pending, ringZeroed_pending,
        dmaSent_pending, ite_pending, ite_self]
    | simp only [bar2WriteDone_pending, ckpWrite_pending, dmaSettle_pending, pieceWritten_pending, ringFilled_pending,
        ckpReadDone_pending, completions_pending, ringHeaderRead_pending, ringPayload_pending, ringZeroed_pending,
        dmaSent_pending, ite_pending, ite_self, *]

@[simp] theorem accessRefused_pending (i : Nat) (a : HostAcc) (s : State) : (accessRefused i a s).pending = s.pending := by
  unfold accessRefused
  (repeat' split) <;> first
    | with_reducible rfl
    | simp only [bar2WriteDone_pending, bar2Refuse_pending, ckpWrite_pending, emissionLate_pending, ckpReadDone_pending,
        fetchFailed_pending, dmaEnd_pending, quayHalt_pending, noteNoKey_pending, ringZeroed_pending, quayDrop_pending,
        State.modQuay_queue, ite_pending, ite_self]
    | simp only [bar2WriteDone_pending, bar2Refuse_pending, ckpWrite_pending, emissionLate_pending, ckpReadDone_pending,
        fetchFailed_pending, dmaEnd_pending, quayHalt_pending, noteNoKey_pending, ringZeroed_pending, quayDrop_pending,
        State.modQuay_queue, ite_pending, ite_self, *]

@[simp] theorem writePieceParts_pending (i : Nat) (restore : Bool) (a : HostAcc) (ps : List (Nat × Nat)) (s : State) :
    (writePieceParts i restore a ps s).pending = s.pending := by
  simp only [writePieceParts, storeWord_pending, storeBare_pending, foldl_pending, implies_true, ite_pending, ite_self]

@[simp] theorem serveParts_pending (i : Nat) (a : HostAcc) (ps : List (Nat × Nat)) (s : State) :
    (serveParts i a ps s).2.pending = s.pending := by
  have hr := readParts_pending readPart i ps s (fun _ _ => readPart_pending _ _ _)
  have ht := readParts_pending readStored i ps s (fun _ _ => readStored_pending _ _ _)
  unfold serveParts
  simp only []
  split
  · exact writePieceParts_pending _ _ _ _ _
  · exact ht
  · (repeat' split) <;> first
      | exact writeParts_pending _ _ _ _ _
      | rfl
  · exact hr

@[simp] theorem putAccess_pending (i k : Nat) (a : HostAcc) (s : State) : (putAccess i k a s).pending = s.pending := by
  simp only [putAccess, State.set_queue, State.modSlice_queue]

@[simp] theorem takeAccess_pending (i k : Nat) (s : State) : (takeAccess i k s).pending = s.pending := by
  simp only [takeAccess, State.modSlice_queue, ite_pending, ite_self]

@[simp] theorem serveAccess_pending (i k cycle : Nat) (a : HostAcc) (room : Option Nat) (s : State) :
    (serveAccess i k cycle a room s).pending = s.pending := by
  simp only [serveAccess, accessDone_pending, serveParts_pending, noteService_pending, accessStep_pending,
      takeAccess_pending, putAccess_pending, ite_pending, ite_self]

@[simp] theorem setBoot_pending (v : Nat) (s : State) : (setBoot v s).pending = s.pending := by
  simp only [setBoot, State.set_queue]

@[simp] theorem stopBringUp_pending (cause stack detail : Nat) (s : State) :
    (stopBringUp cause stack detail s).pending = s.pending := by
  simp only [stopBringUp, raise_pending, setBoot_pending, State.set_queue]

@[simp] theorem tapBlocked_pending (s : State) : (tapBlocked s).pending = s.pending := by
  simp only [tapBlocked, raise_pending, State.set_queue, ite_pending, ite_self]

@[simp] theorem setDomState_pending (d : Nat) (st : DomState) (step : SeqStep) (s : State) :
    (setDomState d st step s).pending = s.pending := by
  simp only [setDomState, tapBlocked_pending, State.set_queue, State.modDom_queue, ite_pending, ite_self]

@[simp] theorem setTarget_pending (d : Nat) (b : Bool) (s : State) : (setTarget d b s).pending = s.pending := by
  simp only [setTarget, State.set_queue, State.modDom_queue]

@[simp] theorem setHealth_pending (b : Nat) (v : Bool) (s : State) : (setHealth b v s).pending = s.pending := by
  simp only [setHealth, State.set_queue, State.setFlag_queue, ite_pending, ite_self]

@[simp] theorem dieOut_pending (b : Nat) (fault : Bool) (s : State) : (dieOut b fault s).pending = s.pending := by
  simp only [dieOut, setHealth_pending, raise_pending, ite_pending, ite_self]

@[simp] theorem diesOut_pending (d : Nat) (fault : Bool) (s : State) : (diesOut d fault s).pending = s.pending := by
  simp only [diesOut, dieOut_pending, foldl_pending, implies_true]

@[simp] theorem testDies_pending (d : Nat) (ok : Bool) (s : State) : (testDies d ok s).pending = s.pending := by
  simp only [testDies, setHealth_pending, raise_pending, foldl_pending, implies_true, ite_pending, ite_self]

@[simp] theorem portsOff_pending (h : Nat) (s : State) : (portsOff h s).pending = s.pending := by
  simp only [portsOff, portLeave_pending, State.modPort_queue, foldl_pending, implies_true, ite_pending, ite_self]

@[simp] theorem refuseQueue_pending (i : Nat) (x0 : Nat) (s : State) : (refuseQueue i x0 s).pending = s.pending := by
  induction x0 generalizing s with
  | zero => simp only [refuseQueue]
  | succ n ih => unfold refuseQueue; (repeat' split) <;> simp_all only [accessRefused_pending, State.modSlice_queue, ih]

@[simp] theorem stackLost_pending (k : Nat) (s : State) : (stackLost k s).pending = s.pending := by
  simp only [stackLost, refuseQueue_pending, State.setSlice_queue, foldl_pending, implies_true]

@[simp] theorem isolate_pending (d v cause : Nat) (s : State) : (isolate d v cause s).pending = s.pending := by
  simp only [isolate, portsOff_pending, setLocks_pending, stackLost_pending, stackIslesOff_pending, resetDomain_pending,
      ite_pending, ite_self]

@[simp] theorem beginDown_pending (d v cause : Nat) (s : State) : (beginDown d v cause s).pending = s.pending := by
  simp only [beginDown, isolate_pending, setDomState_pending]

@[simp] theorem targetOff_pending (d v cause : Nat) (s : State) : (targetOff d v cause s).pending = s.pending := by
  simp only [targetOff, beginDown_pending, setTarget_pending, State.modDom_queue, ite_pending, ite_self]

@[simp] theorem powerRefused_pending (d : Nat) (s : State) : (powerRefused d s).pending = s.pending := by
  simp only [powerRefused, raise_pending, State.bump_queue]

@[simp] theorem domainOff_pending (d v cause : Nat) (s : State) : (domainOff d v cause s).pending = s.pending := by
  simp only [domainOff, targetOff_pending, diesOut_pending, powerRefused_pending, foldl_pending, implies_true, ite_pending,
      ite_self]

@[simp] theorem tryUp_pending (d : Nat) (s : State) : (tryUp d s).pending = s.pending := by
  simp only [tryUp, setDomState_pending, State.modDom_queue, ite_pending, ite_self]

@[simp] theorem turnOn_pending (d : Nat) (s : State) : (turnOn d s).pending = s.pending := by
  simp only [turnOn, tryUp_pending, powerRefused_pending, setTarget_pending, State.modDom_queue, ite_pending, ite_self]

@[simp] theorem requestOn_pending (d : Nat) (s : State) : (requestOn d s).pending = s.pending := by
  unfold requestOn; (repeat' split) <;> simp_all

@[simp] theorem requestOff_pending (d v : Nat) (s : State) : (requestOff d v s).pending = s.pending := by
  unfold requestOff; (repeat' split) <;> simp_all

@[simp] theorem applyOnRequests_pending (s : State) : (applyOnRequests s).pending = s.pending := by
  simp only [applyOnRequests, turnOn_pending, State.modDom_queue, foldl_pending, implies_true, ite_pending, ite_self]

@[simp] theorem stackIslesUp_pending (k : Nat) (s : State) : (stackIslesUp k s).pending = s.pending := by
  simp only [stackIslesUp, setIsleState_pending, State.modIsle_queue, foldl_pending, implies_true, ite_pending, ite_self]

@[simp] theorem facMirror_pending (s : State) : (facMirror s).pending = s.pending := by
  simp only [facMirror, State.setFlag_queue]

@[simp] theorem facOn_pending (s : State) : (facOn s).pending = s.pending := by
  simp only [facOn]
  (repeat' split) <;> first
    | with_reducible rfl
    | simp only [facMirror_pending, State.set_queue]
    | simp only [facMirror_pending, State.set_queue, *]

@[simp] theorem wearCount_pending (k n : Nat) (s : State) : (wearCount k n s).pending = s.pending := by
  simp only [wearCount]

@[simp] theorem stackMemoryUp_pending (k : Nat) (s : State) : (stackMemoryUp k s).pending = s.pending := by
  simp only [stackMemoryUp, State.set_queue, State.modSlice_queue, foldl_pending, implies_true]

@[simp] theorem reachOn_pending (d : Nat) (ok : Bool) (s : State) : (reachOn d ok s).pending = s.pending := by
  simp only [reachOn]
  (repeat' split) <;> first
    | with_reducible rfl
    | simp only [testDies_pending, stackMemoryUp_pending, resetDomain_pending, stackIslesUp_pending, raise_pending,
        tryUp_pending, facOn_pending, setDomState_pending, wearCount_pending, State.set_queue, foldl_pending, implies_true,
        ite_pending, ite_self]
    | simp only [testDies_pending, stackMemoryUp_pending, resetDomain_pending, stackIslesUp_pending, raise_pending,
        tryUp_pending, facOn_pending, setDomState_pending, wearCount_pending, State.set_queue, foldl_pending, implies_true,
        ite_pending, ite_self, *]

@[simp] theorem reachOff_pending (d : Nat) (s : State) : (reachOff d s).pending = s.pending := by
  simp only [reachOff, raise_pending, tryUp_pending, setDomState_pending, State.modDom_queue, ite_pending, ite_self]

@[simp] theorem reverse_pending (d : Nat) (st : DomState) (step : SeqStep) (s : State) :
    (reverse d st step s).pending = s.pending := by
  simp only [reverse, setDomState_pending, State.bump_queue]

@[simp] theorem powerUpNext_pending (s : State) : (powerUpNext s).pending = s.pending := by
  unfold powerUpNext
  (repeat' split) <;> first
    | with_reducible rfl
    | simp only [tryUp_pending, setTarget_pending, foldl_pending, implies_true, ite_pending, ite_self]
    | simp only [tryUp_pending, setTarget_pending, foldl_pending, implies_true, ite_pending, ite_self, *]

@[simp] theorem noteFault_pending (d cause : Nat) (s : State) : (noteFault d cause s).pending = s.pending := by
  simp only [noteFault, State.set_queue, State.bump_queue]

@[simp] theorem domainFault_pending (d v : Nat) (s : State) : (domainFault d v s).pending = s.pending := by
  simp only [domainFault]
  (repeat' split) <;> first
    | with_reducible rfl
    | simp only [targetOff_pending, diesOut_pending, beginDown_pending, reverse_pending, State.modDom_queue, foldl_pending,
        implies_true, ite_pending, ite_self]
    | simp only [targetOff_pending, diesOut_pending, beginDown_pending, reverse_pending, State.modDom_queue, foldl_pending,
        implies_true, ite_pending, ite_self, *]

@[simp] theorem powerFault_pending (d cause v : Nat) (s : State) : (powerFault d cause v s).pending = s.pending := by
  simp only [powerFault, domainFault_pending, raise_pending, noteFault_pending, voidAll_pending]

@[simp] theorem writeVset_pending (k mv : Nat) (s : State) : (writeVset k mv s).pending = s.pending := by
  simp only [writeVset, State.set_queue, State.setFlag_queue, State.setAvs_queue]

@[simp] theorem nominalRails_pending (s : State) : (nominalRails s).pending = s.pending := by
  simp only [nominalRails, writeVset_pending, foldl_pending, implies_true]

@[simp] theorem setHostCap_pending (w : Nat) (s : State) : (setHostCap w s).pending = s.pending := by
  simp only [setHostCap, State.set_queue, ite_pending, ite_self]

@[simp] theorem sampleRail_pending (r : Nat) (x : Nat × Nat) (s : State) : (sampleRail r x s).pending = s.pending := by
  simp only [sampleRail, State.set_queue]

@[simp] theorem meterFrame_pending (worked : Bool) (s : State) : (meterFrame worked s).pending = s.pending := by
  simp only [meterFrame, State.set_queue, ite_pending, ite_self]

@[simp] theorem clearMeter_pending (s : State) : (clearMeter s).pending = s.pending := by
  simp only [clearMeter]

@[simp] theorem computeDPwr_pending (f dMax : Nat) (s : State) : (computeDPwr f dMax s).2.pending = s.pending := by
  simp only [computeDPwr]
  (repeat' split) <;> first
    | with_reducible rfl
    | simp only [raiseOnce_pending, raise_pending, State.set_queue, State.setFlag_queue, ite_pending, ite_self]
    | simp only [raiseOnce_pending, raise_pending, State.set_queue, State.setFlag_queue, ite_pending, ite_self, *]

@[simp] theorem noteThermal_pending (s : State) : (noteThermal s).pending = s.pending := by
  simp only [noteThermal, raise_pending, State.set_queue, ite_pending, ite_self]

@[simp] theorem noteWarning_pending (n now : Nat) (s : State) : (noteWarning n now s).pending = s.pending := by
  simp only [noteWarning, ckpTrigger_pending, raise_pending, ite_pending, ite_self]

@[simp] theorem noteEnvelope_pending (k : Nat) (s : State) : (noteEnvelope k s).pending = s.pending := by
  unfold noteEnvelope
  (repeat' split) <;> first
    | with_reducible rfl
    | simp only [raise_pending, State.set_queue, ite_pending, ite_self]
    | simp only [raise_pending, State.set_queue, ite_pending, ite_self, *]

@[simp] theorem dramLimit_pending (n : Nat) (t : Int) (v : Nat) (s : State) : (dramLimit n t v s).pending = s.pending := by
  unfold dramLimit
  (repeat' split) <;> first
    | with_reducible rfl
    | simp only [raise_pending, domainOff_pending, State.set_queue, ite_pending, ite_self]
    | simp only [raise_pending, domainOff_pending, State.set_queue, ite_pending, ite_self, *]

@[simp] theorem converted_pending (n : Nat) (x : Sensor) (t : Int) (now v : Nat) (s : State) :
    (converted n x t now v s).pending = s.pending := by
  unfold converted
  (repeat' split) <;> first
    | with_reducible rfl
    | simp only [noteEnvelope_pending, dramLimit_pending, noteWarning_pending, State.setSensor_queue, ite_pending, ite_self]
    | simp only [noteEnvelope_pending, dramLimit_pending, noteWarning_pending, State.setSensor_queue, ite_pending,
        ite_self, *]

@[simp] theorem judgeMode_pending (k : Nat) (s : State) : (judgeMode k s).pending = s.pending := by
  unfold judgeMode
  (repeat' split) <;> first
    | with_reducible rfl
    | simp only [raise_pending, ite_pending, ite_self]
    | simp only [raise_pending, ite_pending, ite_self, *]

@[simp] theorem updateDTh_pending (now : Nat) (s : State) : (updateDTh now s).pending = s.pending := by
  simp only [updateDTh, State.set_queue, ite_pending, ite_self]

@[simp] theorem sensorShadow_pending (n : Nat) (s : State) : (sensorShadow n s).pending = s.pending := by
  simp only [sensorShadow, State.set_queue, State.setFlag_queue]

@[simp] theorem stackShadow_pending (k : Nat) (s : State) : (stackShadow k s).pending = s.pending := by
  simp only [stackShadow]
  (repeat' split) <;> first
    | with_reducible rfl
    | simp only [State.set_queue]
    | simp only [State.set_queue, *]

@[simp] theorem thermalShadows_pending (s : State) : (thermalShadows s).pending = s.pending := by
  simp only [thermalShadows, sensorShadow_pending, stackShadow_pending, foldl_pending, implies_true]

@[simp] theorem judgeTrend_pending (s : State) : (judgeTrend s).pending = s.pending := by
  simp only [judgeTrend]
  (repeat' split) <;> first
    | with_reducible rfl
    | simp only [raise_pending, State.set_queue, foldl_pending, implies_true, ite_pending, ite_self]
    | simp only [raise_pending, State.set_queue, foldl_pending, implies_true, ite_pending, ite_self, *]

@[simp] theorem pumpFault_pending (s : State) : (pumpFault s).pending = s.pending := by
  simp only [pumpFault, noteThermal_pending, raise_pending, State.set_queue, ite_pending, ite_self]

@[simp] theorem valveSuspect_pending (b : Bool) (s : State) : (valveSuspect b s).pending = s.pending := by
  simp only [valveSuspect, raise_pending, State.setFlag_queue, ite_pending, ite_self]

@[simp] theorem refreshOnce_pending (i : Nat) (s : State) : (refreshOnce i s).pending = s.pending := by
  simp only [refreshOnce, State.modSlice_queue]

@[simp] theorem scrubWord_pending (i o : Nat) (s : State) : (scrubWord i o s).pending = s.pending := by
  simp only [scrubWord]
  (repeat' split) <;> first
    | with_reducible rfl
    | simp only [storeWord_pending, raiseOnce_pending, readRaw_pending]
    | simp only [storeWord_pending, raiseOnce_pending, readRaw_pending, *]

@[simp] theorem upsetLagoon_pending (i : Nat) (ups : List (Nat × Nat)) (s : State) :
    (upsetLagoon i ups s).pending = s.pending := by
  simp only [upsetLagoon, setLagoonErr_pending, foldl_pending, implies_true]

@[simp] theorem scrubLagoonWord_pending (i : Nat) (s : State) (a : Nat) : (scrubLagoonWord i s a).pending = s.pending := by
  unfold scrubLagoonWord
  (repeat' split) <;> first
    | with_reducible rfl
    | simp only [noteMarks_pending, settleWord_pending, raiseOnce_pending]
    | simp only [noteMarks_pending, settleWord_pending, raiseOnce_pending, *]

@[simp] theorem sliceFilled_pending (i : Nat) (s : State) : (sliceFilled i s).pending = s.pending := by
  simp only [sliceFilled, sliceFill_pending, State.set_queue, State.modSlice_queue]

@[simp] theorem clearKeyData_pending (i : Nat) (s : State) : (clearKeyData i s).pending = s.pending := by
  simp only [clearKeyData, State.set_queue, foldl_pending, implies_true]

@[simp] theorem setKey_pending (i k : Nat) (key : List Nat) (s : State) : (setKey i k key s).pending = s.pending := by
  simp only [setKey, State.set_queue, State.modSlice_queue]

@[simp] theorem applyKey_pending (i : Nat) (s : State) : (applyKey i s).pending = s.pending := by
  unfold applyKey
  (repeat' split) <;> first
    | with_reducible rfl
    | simp only [clearKeyData_pending, raise_pending, setKey_pending, State.set_queue, State.modSlice_queue, ite_pending,
        ite_self]
    | simp only [clearKeyData_pending, raise_pending, setKey_pending, State.set_queue, State.modSlice_queue, ite_pending,
        ite_self, *]

@[simp] theorem applyKeys_pending (s : State) : (applyKeys s).pending = s.pending := by
  simp only [applyKeys, applyKey_pending, foldl_pending, implies_true]

@[simp] theorem keyCommand_pending (i w op : Nat) (s : State) : (keyCommand i w op s).pending = s.pending := by
  simp only [keyCommand, applyKey_pending, writeRest_pending, State.set_queue, State.modSlice_queue, ite_pending, ite_self]

@[simp] theorem stopDomains_pending (v : Nat) (s : State) : (stopDomains v s).pending = s.pending := by
  simp only [stopDomains, domainOff_pending, voidAll_pending, foldl_pending, implies_true]

@[simp] theorem stopDemand_pending (v : Nat) (s : State) : (stopDemand v s).pending = s.pending := by
  simp only [stopDemand, raise_pending, wearCount_pending, setBoot_pending, stopDomains_pending, State.set_queue,
      State.bump_queue, ite_pending, ite_self]

@[simp] theorem noteDiscrepancy_pending (s : State) : (noteDiscrepancy s).pending = s.pending := by
  simp only [noteDiscrepancy, raise_pending, State.bump_queue, ite_pending, ite_self]

@[simp] theorem facStopWrite_pending (w : Nat) (s : State) : (facStopWrite w s).pending = s.pending := by
  simp only [facStopWrite, raise_pending, writeRest_pending, State.set_queue, ite_pending, ite_self]

@[simp] theorem pumpNotice_pending (n : Nat) (failed : Bool) (s : State) : (pumpNotice n failed s).pending = s.pending := by
  simp only [pumpNotice, pumpFault_pending, ite_pending, ite_self]

@[simp] theorem swoCommand_pending (n : Nat) (on : Bool) (s : State) : (swoCommand n on s).pending = s.pending := by
  simp only [swoCommand, pumpNotice_pending, State.set_queue, State.setFlag_queue, ite_pending, ite_self]

@[simp] theorem setSnap_pending (slot : Nat) (v : KeelSnap) (s : State) : (setSnap slot v s).pending = s.pending := by
  simp only [setSnap, State.setKeel_queue, ite_pending, ite_self]

@[simp] theorem setBlock_pending (b : Nat) (v : KeelBlock) (s : State) : (setBlock b v s).pending = s.pending := by
  simp only [setBlock, State.setKeel_queue]

@[simp] theorem noteKeel_pending (s : State) : (noteKeel s).pending = s.pending := by
  simp only [noteKeel, raise_pending, State.set_queue, ite_pending, ite_self]

@[simp] theorem startCompaction_pending (s : State) : (startCompaction s).pending = s.pending := by
  simp only [startCompaction, noteKeel_pending, raise_pending, State.setKeel_queue, ite_pending, ite_self]

@[simp] theorem judgeOccupancy_pending (s : State) : (judgeOccupancy s).pending = s.pending := by
  simp only [judgeOccupancy, startCompaction_pending, ite_pending, ite_self]

@[simp] theorem setReadBuffer_pending (bs : List Nat) (s : State) : (setReadBuffer bs s).pending = s.pending := by
  simp only [setReadBuffer, State.set_queue, foldl_pending, implies_true]

@[simp] theorem retireBlock_pending (b : Nat) (s : State) : (retireBlock b s).pending = s.pending := by
  simp only [retireBlock, noteKeel_pending, raise_pending, keelAppend_pending, State.setKeel_queue]

@[simp] theorem enterBlock_pending (s : State) : (enterBlock s).pending = s.pending := by
  simp only [enterBlock, State.setKeel_queue]

@[simp] theorem recordDurable_pending (r : KeelRecord) (s : State) : (recordDurable r s).pending = s.pending := by
  simp only [recordDurable, setBlock_pending, noteKeel_pending, judgeOccupancy_pending, State.set_queue,
      State.setKeel_queue, ite_pending, ite_self]

@[simp] theorem programRing_pending (ok : Bool) (s : State) : (programRing ok s).pending = s.pending := by
  unfold programRing
  (repeat' split) <;> first
    | with_reducible rfl
    | simp only [enterBlock_pending, retireBlock_pending, recordDurable_pending, setBlock_pending, State.setKeel_queue,
        ite_pending, ite_self]
    | simp only [enterBlock_pending, retireBlock_pending, recordDurable_pending, setBlock_pending, State.setKeel_queue,
        ite_pending, ite_self, *]

@[simp] theorem programSnap_pending (ok : Bool) (s : State) : (programSnap ok s).pending = s.pending := by
  unfold programSnap
  (repeat' split) <;> first
    | with_reducible rfl
    | simp only [State.setKeel_queue, ite_pending, ite_self]
    | simp only [State.setKeel_queue, ite_pending, ite_self, *]

@[simp] theorem eraseRing_pending (ok : Bool) (s : State) : (eraseRing ok s).pending = s.pending := by
  simp only [eraseRing, enterBlock_pending, retireBlock_pending, setBlock_pending, noteKeel_pending, wearCount_pending,
      State.setKeel_queue, ite_pending, ite_self]

@[simp] theorem eraseSnap_pending (ok : Bool) (s : State) : (eraseSnap ok s).pending = s.pending := by
  unfold eraseSnap
  (repeat' split) <;> first
    | with_reducible rfl
    | simp only [setSnap_pending, State.setKeel_queue, ite_pending, ite_self]
    | simp only [setSnap_pending, State.setKeel_queue, ite_pending, ite_self, *]

@[simp] theorem programFirmware_pending (ok : Bool) (s : State) : (programFirmware ok s).pending = s.pending := by
  unfold programFirmware
  (repeat' split) <;> first
    | with_reducible rfl
    | simp only [State.setKeel_queue, ite_pending, ite_self]
    | simp only [State.setKeel_queue, ite_pending, ite_self, *]

@[simp] theorem eraseFirmware_pending (ok : Bool) (s : State) : (eraseFirmware ok s).pending = s.pending := by
  unfold eraseFirmware
  (repeat' split) <;> first
    | with_reducible rfl
    | simp only [State.setKeel_queue, ite_pending, ite_self]
    | simp only [State.setKeel_queue, ite_pending, ite_self, *]

@[simp] theorem readTransfer_pending (n : Nat) (s : State) : (readTransfer n s).pending = s.pending := by
  unfold readTransfer
  (repeat' split) <;> first
    | with_reducible rfl
    | simp only [setReadBuffer_pending, State.set_queue, State.setKeel_queue, ite_pending, ite_self]
    | simp only [setReadBuffer_pending, State.set_queue, State.setKeel_queue, ite_pending, ite_self, *]

@[simp] theorem keelTransfer_pending (t : KeelTransfer) (ok : Bool) (s : State) :
    (keelTransfer t ok s).pending = s.pending := by
  unfold keelTransfer; (repeat' split) <;> simp_all

@[simp] theorem keelCommand_pending (w : Nat) (act : State → State) (s : State) (h_act : ∀ t,
    (act t).pending = t.pending) : (keelCommand w act s).pending = s.pending := by
  simp only [keelCommand, writeRest_pending, State.set_queue, ite_pending, ite_self, h_act]

@[simp] theorem keelPowerLoss_pending (s : State) : (keelPowerLoss s).pending = s.pending := by
  simp only [keelPowerLoss, setBlock_pending, ite_pending, ite_self]

@[simp] theorem cutAll_pending (v : Nat) (s : State) : (cutAll v s).pending = s.pending := by
  simp only [cutAll, land_pending, cutFlights_pending, foldl_pending, implies_true]

@[simp] theorem stopFrames_pending (v : Nat) (s : State) : (stopFrames v s).pending = s.pending := by
  simp only [stopFrames, cutAll_pending, State.modArch_queue, foldl_pending, implies_true]

@[simp] theorem openCause_pending (s : State) : (openCause s).2.pending = s.pending := by
  simp only [openCause, State.draw_queue]

@[simp] theorem haltFrames_pending (v : Nat) (s : State) : (haltFrames v s).pending = s.pending := by
  simp only [haltFrames, openCause_pending, voidAll_pending, stopFrames_pending, ite_pending, ite_self]

@[simp] theorem setBytes_pending (f : Nat → Field) (bs : List Nat) (s : State) : (setBytes f bs s).pending = s.pending := by
  simp only [setBytes, State.set_queue, foldl_pending, implies_true]

@[simp] theorem loadRegions_pending (im : Image) (s : State) : (loadRegions im s).pending = s.pending := by
  simp only [loadRegions, State.set_queue, foldl_pending, implies_true, ite_pending, ite_self]

@[simp] theorem loadQuays_pending (im : Image) (s : State) : (loadQuays im s).pending = s.pending := by
  unfold loadQuays
  simp only []
  rw [foldl_pending]
  · exact quaysOff_pending _ _
  · intro t q
    split <;> rfl

@[simp] theorem loadRoles_pending (im : Image) (s : State) : (loadRoles im s).pending = s.pending := by
  simp only [loadRoles, portTrain_pending, portLeave_pending, State.set_queue, foldl_pending, implies_true, ite_pending,
      ite_self]

@[simp] theorem loadFrame_pending (im : Image) (first atTick : Bool) (fn : Nat) (s : State) :
    (loadFrame im first atTick fn s).pending = s.pending := by
  simp only [loadFrame, setOrigin_pending, State.set_queue, State.setFlag_queue, ite_pending, ite_self]

@[simp] theorem loadClock_pending (im : Image) (s : State) : (loadClock im s).pending = s.pending := by
  simp only [loadClock, setLocks_pending, nominalRails_pending, State.set_queue, State.setFlag_queue, foldl_pending,
      implies_true, ite_pending, ite_self]

@[simp] theorem loadFacility_pending (old : Option Image) (im : Image) (s : State) :
    (loadFacility old im s).pending = s.pending := by
  simp only [loadFacility, swoCommand_pending, State.set_queue, State.setFlag_queue, ite_pending, ite_self]

@[simp] theorem loadRole_pending (im : Image) (s : State) : (loadRole im s).pending = s.pending := by
  simp only [loadRole, promote_pending, startLt_pending, takeRole_pending, State.modLh_queue, ite_pending, ite_self]

@[simp] theorem touchArchs_pending (im : Image) (s : State) : (touchArchs im s).pending = s.pending := by
  simp only [touchArchs]
  (repeat' split) <;> first
    | with_reducible rfl
    | simp only [uninstall_pending, idle_pending, moveIsles_pending, setBytes_pending, idleIsles_pending, foldl_pending,
        implies_true, ite_pending, ite_self]
    | simp only [uninstall_pending, idle_pending, moveIsles_pending, setBytes_pending, idleIsles_pending, foldl_pending,
        implies_true, ite_pending, ite_self, *]

@[simp] theorem activate_pending (fn : Nat) (atTick late : Bool) (s : State) :
    (activate fn atTick late s).pending = s.pending := by
  unfold activate; (repeat' split) <;> simp_all

@[simp] theorem activateAtBoundary_pending (fn : Nat) (s : State) : (activateAtBoundary fn s).pending = s.pending := by
  unfold activateAtBoundary
  (repeat' split) <;> first
    | with_reducible rfl
    | simp only [activate_pending, ite_pending, ite_self]
    | simp only [activate_pending, ite_pending, ite_self, *]

@[simp] theorem activateAtTick_pending (fn : Nat) (s : State) : (activateAtTick fn s).pending = s.pending := by
  unfold activateAtTick
  (repeat' split) <;> first
    | with_reducible rfl
    | simp only [activate_pending, ite_pending, ite_self]
    | simp only [activate_pending, ite_pending, ite_self, *]

@[simp] theorem activateNow_pending (s : State) : (activateNow s).pending = s.pending := by
  simp only [activateNow, activate_pending, ite_pending, ite_self]

@[simp] theorem cancelImage_pending (s : State) : (cancelImage s).pending = s.pending := by
  simp only [cancelImage, raise_pending, State.set_queue, ite_pending, ite_self]

@[simp] theorem startImage_pending (s : State) : (startImage s).pending = s.pending := by
  simp only [startImage, State.set_queue, State.emit_queue, ite_pending, ite_self]

@[simp] theorem fetchImage_pending (fetched : Option (List Nat)) (s : State) :
    (fetchImage fetched s).pending = s.pending := by
  unfold fetchImage
  (repeat' split) <;> first
    | with_reducible rfl
    | simp only [State.emit_queue, ite_pending, ite_self]
    | simp only [State.emit_queue, ite_pending, ite_self, *]

@[simp] theorem imageCommand_pending (w : Nat) (s : State) : (imageCommand w s).pending = s.pending := by
  simp only [imageCommand, cancelImage_pending, startImage_pending, ite_pending, ite_self]

@[simp] theorem revokeSlot_pending (k : Nat) (s : State) : (revokeSlot k s).pending = s.pending := by
  simp only [revokeSlot, raise_pending, State.set_queue, ite_pending, ite_self]

@[simp] theorem setSchedDetail_pending (x : SchedBreach) (s : State) : (setSchedDetail x s).pending = s.pending := by
  simp only [setSchedDetail, State.set_queue]

@[simp] theorem refuseLoad_pending (a : Nat) (x : SchedBreach) (s : State) : (refuseLoad a x s).pending = s.pending := by
  simp only [refuseLoad, setSchedDetail_pending, raise_pending, State.set_queue]

@[simp] theorem takeOver_pending (s : State) : (takeOver s).pending = s.pending := by
  unfold takeOver
  (repeat' split) <;> first
    | with_reducible rfl
    | simp only [uninstall_pending, idle_pending, moveIsles_pending, refuseLoad_pending, ite_pending, ite_self]
    | simp only [uninstall_pending, idle_pending, moveIsles_pending, refuseLoad_pending, ite_pending, ite_self, *]

@[simp] theorem keepBytes_pending (i lo hi : Nat) (s t : State) : (keepBytes i lo hi s t).pending = t.pending := by
  unfold keepBytes
  split
  · rfl
  · exact foldl_pending (fun (t : State) (k : Nat) => { t with lagoon := KMap.insert (lagoonKey i (lo + k)) (lagoonHeld s i (lo + k)) (KMap.erase t.lagoon (lagoonKey i (lo + k))) }) (fun _ _ => rfl) _ _

@[simp] theorem installIsle_pending (p : PkgIsle) (s : State) : (installIsle p s).pending = s.pending := by
  unfold installIsle
  split
  · rfl
  · simp

@[simp] theorem sensorStep_pending (s : State) (id : Nat) : (sensorStep s id).pending = s.pending := by
  unfold sensorStep
  (repeat' split) <;> first
    | with_reducible rfl
    | simp only [pldmPut_pending, ite_pending, ite_self]
    | simp only [pldmPut_pending, ite_pending, ite_self, *]

@[simp] theorem pldmShadows_pending (s : State) : (pldmShadows s).pending = s.pending := by
  simp only [pldmShadows, sensorStep_pending, foldl_pending, implies_true, ite_pending, ite_self]

@[simp] theorem frameEnd_pending (s : State) : (frameEnd s).pending = s.pending := by
  unfold frameEnd
  split
  · rfl
  · simp only []
    rw [foldl_pending (fun t a => t.modArch a _) (fun _ _ => rfl),
      foldl_pending (fun t a => emissionsEnd a (t.modArch a _)) (fun _ _ => by rw [emissionsEnd_pending,
          State.modArch_queue]),
      closeCycle_pending, foldl_pending (fun t i => land i _ t) (fun _ _ => land_pending _ _ _)]
    intro t
    exact foldl_pending_snd _ (fun _ _ => applyOp_pending _ _) _ _

@[simp] theorem isleShadow_pending (i : Nat) (s : State) : (isleShadow i s).pending = s.pending := by
  simp only [isleShadow, State.set_queue, State.setFlag_queue, State.bump_queue, State.modIsle_queue, ite_pending, ite_self]

@[simp] theorem sliceShadow_pending (i : Nat) (s : State) : (sliceShadow i s).pending = s.pending := by
  simp only [sliceShadow, State.set_queue, State.setFlag_queue, State.modSlice_queue, ite_pending, ite_self]

@[simp] theorem archOver_pending (a : Nat) (s : State) : (archOver a s).pending = s.pending := by
  simp only [archOver, replay_pending, recordOutcome_pending, State.set_queue, State.modArch_queue, ite_pending, ite_self]

@[simp] theorem finishSlots_pending (i : Nat) (s : State) : (finishSlots i s).pending = s.pending := by
  simp only [finishSlots, State.modSlice_queue, ite_pending, ite_self]

@[simp] theorem stepShadows_pending (s : State) : (stepShadows s).pending = s.pending := by
  simp only [stepShadows, archOver_pending, replay_pending, isleShadow_pending, copyIsles_pending, judgeMode_pending,
      meterFrame_pending, thermalShadows_pending, pldmShadows_pending, sliceShadow_pending, State.set_queue,
      State.setFlag_queue, foldl_pending, implies_true, ite_pending, ite_self]

@[simp] theorem stepRequests_pending (fn : Nat) (s : State) : (stepRequests fn s).pending = s.pending := by
  simp only [stepRequests, applyKeys_pending, ckpCut_pending, activateAtBoundary_pending, applyOnRequests_pending,
      takeOver_pending, applyPending_pending]

@[simp] theorem noteOverride_pending (d hi hot ref fused : Nat) (s : State) :
    (noteOverride d hi hot ref fused s).pending = s.pending := by
  simp only [noteOverride, raise_pending, State.set_queue, State.bump_queue, ite_pending, ite_self]

@[simp] theorem stepD_pending (now fn : Nat) (s : State) : (stepD now fn s).pending = s.pending := by
  simp only [stepD, updateDTh_pending, computeDPwr_pending, raise_pending, noteOverride_pending, State.set_queue,
      ite_pending, ite_self]

@[simp] theorem consumeList_pending (l : List (Nat × Bool × Nat)) (s : State) : (consumeList l s).pending = s.pending := by
  simp only [consumeList, bolAdd_pending, foldl_pending, implies_true, ite_pending, ite_self]

@[simp] theorem judgeAdmission_pending (fn a : Nat) (s : State) : (judgeAdmission fn a s).pending = s.pending := by
  simp only [judgeAdmission, consumeList_pending, replay_pending, State.modArch_queue, ite_pending, ite_self]

@[simp] theorem stepAdmission_pending (fn : Nat) (s : State) : (stepAdmission fn s).pending = s.pending := by
  unfold stepAdmission
  exact closeCycle_pending _ _ _ (fun t => foldl_pending _ (fun _ _ => judgeAdmission_pending _ _ _) _ _)

@[simp] theorem boundary_pending (now : Nat) (s : State) : (boundary now s).pending = s.pending := by
  simp only [boundary, inOneCycle_pending, stepAdmission_pending, stepShadows_pending, stepRequests_pending, stepD_pending,
      frameEnd_pending, finishSlots_pending, foldl_pending, implies_true, ite_pending, ite_self]

@[simp] theorem logFrameEnd_pending (s : State) : (logFrameEnd s).pending = s.pending := by
  simp only [logFrameEnd, raise_pending, ite_pending, ite_self]

@[simp] theorem isleFrame_pending (draw i : Nat) (s : State) : (isleFrame draw i s).pending = s.pending := by
  simp only [isleFrame, State.modIsle_queue]

@[simp] theorem sliceFrame_pending (i : Nat) (s : State) : (sliceFrame i s).pending = s.pending := by
  simp only [sliceFrame, State.modSlice_queue]

@[simp] theorem archFrame_pending (draw a : Nat) (s : State) : (archFrame draw a s).pending = s.pending := by
  simp only [archFrame, isleFrame_pending, raise_pending, moveIsles_pending, State.modArch_queue, foldl_pending,
      implies_true, ite_pending, ite_self]

@[simp] theorem beginFrame_pending (stretched : Bool) (s : State) : (beginFrame stretched s).pending = s.pending := by
  simp only [beginFrame, archFrame_pending, replay_pending, sliceFrame_pending, State.set_queue, State.setFlag_queue,
      State.draw_queue, foldl_pending, implies_true, ite_pending, ite_self]

@[simp] theorem endFrames_pending (s : State) : (endFrames s).pending = s.pending := by
  simp only [endFrames, stopFrames_pending, State.modArch_queue, foldl_pending, implies_true, ite_pending, ite_self]

@[simp] theorem rendezvous_pending (fn : Nat) (s : State) : (rendezvous fn s).pending = s.pending := by
  simp only [rendezvous, ckpPassed_pending, raise_pending, ckpDiscard_pending, ckpRendezvous_pending, State.set_queue,
      State.bump_queue, State.modArch_queue, State.modPort_queue, foldl_pending, implies_true, ite_pending, ite_self]

@[simp] theorem idleTick_pending (fn : Nat) (s : State) : (idleTick fn s).pending = s.pending := by
  unfold idleTick; (repeat' split) <;> simp_all

@[simp] theorem turnFrame_pending (s : State) : (turnFrame s).pending = s.pending := by
  unfold turnFrame; (repeat' split) <;> simp_all

@[simp] theorem idleFrames_pending (now fn : Nat) (s : State) : (idleFrames now fn s).pending = s.pending := by
  unfold idleFrames; (repeat' split) <;> simp_all

@[simp] theorem rackTick_pending (now fn : Nat) (s : State) : (rackTick now fn s).pending = s.pending := by
  unfold rackTick
  simp only []
  rw [inOneCycle_pending _ _ (fun t => rendezvous_pending fn t)]
  (repeat' split) <;> simp only [inOneCycle_pending, logFrameEnd_pending, activateAtTick_pending, frameEnd_pending,
    turnFrame_pending, idleFrames_pending, State.set_queue, foldl_pending, State.modPort_queue, lighthouseTick_pending,
    boundary_pending, implies_true, ite_pending, ite_self]

@[simp] theorem loadFuses_pending (s : State) : (loadFuses s).pending = s.pending := by
  simp only [loadFuses, State.set_queue]

@[simp] theorem judgeFuses_pending (s : State) : (judgeFuses s).pending = s.pending := by
  simp only [judgeFuses, stopBringUp_pending, ite_pending, ite_self]

@[simp] theorem loadPilotFuses_pending (s : State) : (loadPilotFuses s).pending = s.pending := by
  simp only [loadPilotFuses, setHostCap_pending, State.set_queue, State.setFlag_queue]

@[simp] theorem bootFirmware_pending (okA okB : Bool) (s : State) : (bootFirmware okA okB s).pending = s.pending := by
  simp only [bootFirmware]
  (repeat' split) <;> first
    | with_reducible rfl
    | simp only [stopBringUp_pending, State.set_queue, ite_pending, ite_self]
    | simp only [stopBringUp_pending, State.set_queue, ite_pending, ite_self, *]

@[simp] theorem readJesd_pending (jesd : Nat) (s : State) : (readJesd jesd s).pending = s.pending := by
  simp only [readJesd, stopBringUp_pending, State.setKeel_queue, ite_pending, ite_self]

@[simp] theorem resumeSeq_pending (s : State) : (resumeSeq s).pending = s.pending := by
  unfold resumeSeq
  (repeat' split) <;> first
    | with_reducible rfl
    | simp only [State.set_queue]
    | simp only [State.set_queue, *]

@[simp] theorem countBoot_pending (s : State) : (countBoot s).pending = s.pending := by
  simp only [countBoot, resumeSeq_pending, wearCount_pending, ite_pending, ite_self]

@[simp] theorem bindCandidate_pending (source : Nat) (acc : List Nat × List KeelRecord × State) (r : KeelRecord) :
    (bindCandidate source acc r).2.2.pending = acc.2.2.pending := by
  unfold bindCandidate
  simp only []
  rw [apply_ite (fun x : List Nat × List KeelRecord × State => x.2.2.pending),
      apply_ite (fun x : List Nat × List KeelRecord × State => x.2.2.pending)]
  simp only [keelAppend_pending, ite_self]

@[simp] theorem appendIsles_pending (source : Nat) (old : KMap Nat) (new : List Nat) (maps : List DieMap) (s : State) :
    (appendIsles source old new maps s).pending = s.pending := by
  unfold appendIsles
  rw [foldl_pending]
  intro t p
  simp only []
  split
  · split
    · rw [raise_pending, keelAppend_pending]
    · rfl
  · rfl

theorem candidates_pending (source : Nat) (l : List KeelRecord) (acc : List Nat × List KeelRecord × State) :
    (l.foldl (bindCandidate source) acc).2.2.pending = acc.2.2.pending := by
  induction l generalizing acc with
  | nil => rfl
  | cons x l ih => rw [List.foldl_cons, ih, bindCandidate_pending]

@[simp] theorem applyRepairs_pending (source : Nat) (s : State) : (applyRepairs source s).2.pending = s.pending := by
  unfold applyRepairs
  simp only [State.set_queue]
  rw [appendIsles_pending, candidates_pending]

@[simp] theorem loadSpares_pending (s : State) : (loadSpares s).pending = s.pending := by
  simp only [loadSpares, State.set_queue, foldl_pending, implies_true, ite_pending, ite_self]

@[simp] theorem stopSpares_pending (unplaced : List Nat) (s : State) : (stopSpares unplaced s).pending = s.pending := by
  simp only [stopSpares, stopBringUp_pending]

@[simp] theorem moduleRegisters_pending (s : State) : (moduleRegisters s).pending = s.pending := by
  simp only [moduleRegisters, resetDomain_pending, State.set_queue, foldl_pending, implies_true, ite_pending, ite_self]

@[simp] theorem moduleReset_pending (s : State) : (moduleReset s).pending = s.pending := by
  simp only [moduleReset, moduleRegisters_pending, stackLost_pending, quaysOff_pending, keelPowerLoss_pending,
      foldl_pending, implies_true, ite_pending, ite_self]

@[simp] theorem supplyLoss_pending (s : State) : (supplyLoss s).pending = s.pending := by
  simp only [supplyLoss, resetDomain_pending, moduleReset_pending, pfReset_pending, linkDown_pending, State.count_queue]

@[simp] theorem requestCreset_pending (s : State) : (requestCreset s).pending = s.pending := by
  simp only [requestCreset, State.set_queue, State.setFlag_queue, ite_pending, ite_self]

@[simp] theorem stopNbu_pending (s : State) : (stopNbu s).pending = s.pending := by
  simp only [stopNbu, State.modSlice_queue, foldl_pending, implies_true, ite_pending, ite_self]

@[simp] theorem cresetLighthouse_pending (s : State) : (cresetLighthouse s).pending = s.pending := by
  simp only [cresetLighthouse, setLh_pending, State.setFlag_queue, State.modLh_queue, ite_pending, ite_self]

@[simp] theorem copyWord_pending (i : Nat) (s : State) (o : Nat) : (copyWord i s o).pending = s.pending := by
  simp only [copyWord]
  (repeat' split) <;> first
    | with_reducible rfl
    | simp only [storeWord_pending, readRaw_pending]
    | simp only [storeWord_pending, readRaw_pending, *]

@[simp] theorem copyWords_pending (i lo hi : Nat) (s : State) : (copyWords i lo hi s).pending = s.pending := by
  simp only [copyWords, copyWord_pending, foldl_pending, implies_true, ite_pending, ite_self]

@[simp] theorem copyRepair_pending (placed : KMap Nat) (s : State) (r : KeelRecord) :
    (copyRepair placed s r).pending = s.pending := by
  unfold copyRepair
  (repeat' split) <;> first
    | with_reducible rfl
    | simp only [copyWords_pending, ite_pending, ite_self]
    | simp only [copyWords_pending, ite_pending, ite_self, *]

@[simp] theorem moveIsle_pending (s : State) (i : Nat) : (moveIsle s i).pending = s.pending := by
  simp only [moveIsle]
  (repeat' split) <;> first
    | with_reducible rfl
    | simp only [uninstall_pending, lagoonFill_pending, sliceFilled_pending, State.set_queue, State.modSlice_queue,
        ite_pending, ite_self]
    | simp only [uninstall_pending, lagoonFill_pending, sliceFilled_pending, State.set_queue, State.modSlice_queue,
        ite_pending, ite_self, *]

@[simp] theorem clearWorking_pending (draw : Nat) (s : State) (i : Nat) : (clearWorking draw s i).pending = s.pending := by
  simp only [clearWorking]
  (repeat' split) <;> first
    | with_reducible rfl
    | simp only [uninstall_pending, scrubLagoonWord_pending, State.modIsle_queue, foldl_pending, implies_true, ite_pending,
        ite_self]
    | simp only [uninstall_pending, scrubLagoonWord_pending, State.modIsle_queue, foldl_pending, implies_true, ite_pending,
        ite_self, *]

@[simp] theorem resetIsleRegisters_pending (s : State) : (resetIsleRegisters s).pending = s.pending := by
  simp only [resetIsleRegisters, State.modIsle_queue, foldl_pending, implies_true]

@[simp] theorem restartArch_pending (s : State) (a : Nat) : (restartArch s a).pending = s.pending := by
  simp only [restartArch, idle_pending, moveIsles_pending, State.set_queue, State.modArch_queue, ite_pending, ite_self]

@[simp] theorem vecLaunch_pending (l : Launch) (res : Nat → Nat → VRes) (s : State) :
    (vecLaunch l res s).pending = s.pending := by
  simp only [vecLaunch, noteTensors_pending, writeLater_pending]

@[simp] theorem sieveLaunch_pending (l : Launch) (bytes : List Nat) (counts : List (Nat × Ctr × Nat)) (s : State) :
    (sieveLaunch l bytes counts s).pending = s.pending := by
  simp only [sieveLaunch, noteReads_pending, writeLater_pending]

@[simp] theorem sargmaxEffect_pending (l : Launch) (s : State) : (sargmaxEffect l s).pending = s.pending := by
  simp only [sargmaxEffect, sieveLaunch_pending, ite_pending, ite_self]

@[simp] theorem sboxdecEffect_pending (l : Launch) (s : State) : (sboxdecEffect l s).pending = s.pending := by
  simp only [sboxdecEffect, sieveLaunch_pending]

@[simp] theorem snmsEffect_pending (l : Launch) (s : State) : (snmsEffect l s).pending = s.pending := by
  simp only [snmsEffect, sieveLaunch_pending, ite_pending, ite_self]

@[simp] theorem notePort_pending (i t n : Nat) (s : State) : (notePort i t n s).pending = s.pending := by
  simp only [notePort, State.modIsle_queue, State.modSlice_queue]

@[simp] theorem liftEffect_pending (l : Launch) (s : State) : (liftEffect l s).pending = s.pending := by
  simp only [liftEffect, detectIf_pending, enqueue_pending, writeLater_pending, notePort_pending, foldl_pending,
      implies_true, ite_pending, ite_self]

@[simp] theorem lowerEffect_pending (l : Launch) (s : State) : (lowerEffect l s).pending = s.pending := by
  unfold lowerEffect
  simp only [notePort_pending]
  split <;> simp only [foldl_pending, mergePut_pending, enqueue_pending, noteReads_pending, implies_true]

@[simp] theorem csendEffect_pending (l : Launch) (s : State) : (csendEffect l s).pending = s.pending := by
  simp only [csendEffect, noteTensors_pending, State.modArch_queue]

@[simp] theorem crecvEffect_pending (l : Launch) (s : State) : (crecvEffect l s).pending = s.pending := by
  unfold crecvEffect
  (repeat' split) <;> first
    | with_reducible rfl
    | simp only [writeLater_pending, State.modArch_queue]
    | simp only [writeLater_pending, State.modArch_queue, *]

@[simp] theorem hsendEffect_pending (l : Launch) (s : State) : (hsendEffect l s).pending = s.pending := by
  simp only [hsendEffect, noteTensors_pending, enqueue_pending, State.modPort_queue, ite_pending, ite_self]

@[simp] theorem hrecvEffect_pending (l : Launch) (s : State) : (hrecvEffect l s).pending = s.pending := by
  simp only [hrecvEffect]
  (repeat' split) <;> first
    | with_reducible rfl
    | simp only [judgeSlot_pending, enqueue_pending, writeLater_pending]
    | simp only [judgeSlot_pending, enqueue_pending, writeLater_pending, *]

@[simp] theorem bendEffect_pending (l : Launch) (s : State) : (bendEffect l s).pending = s.pending := by
  simp only [bendEffect, State.modArch_queue]

@[simp] theorem fetchRest_pending (j : SchedJob) (fetched : Option (List Nat)) (s : State) :
    (fetchRest j fetched s).pending = s.pending := by
  unfold fetchRest
  (repeat' split) <;> first
    | with_reducible rfl
    | simp only [State.emit_queue, ite_pending, ite_self]
    | simp only [State.emit_queue, ite_pending, ite_self, *]

@[simp] theorem setLine_pending (n : Nat) (v : CacheLine) (s : State) : (setLine n v s).pending = s.pending := by
  simp only [setLine, State.setPil_queue]

@[simp] theorem mailboxStart_pending (op : Nat) (s : State) : (mailboxStart op s).pending = s.pending := by
  simp only [mailboxStart, State.set_queue, State.emit_queue, State.setPil_queue, ite_pending, ite_self]

@[simp] theorem setResponse_pending (bs : List Nat) (s : State) : (setResponse bs s).pending = s.pending := by
  simp only [setResponse, State.set_queue, foldl_pending, implies_true]

@[simp] theorem setInactive_pending (v : Option Nat) (s : State) : (setInactive v s).pending = s.pending := by
  simp only [setInactive, State.set_queue, State.setPil_queue, ite_pending, ite_self]

@[simp] theorem beginFirmware_pending (c : MbxCmd) (v : Nat) (s : State) : (beginFirmware c v s).pending = s.pending := by
  simp only [beginFirmware, setInactive_pending, State.setPil_queue]

@[simp] theorem firmwareUpdate_pending (back : Bool) (s : State) : (firmwareUpdate back s).2.pending = s.pending := by
  unfold firmwareUpdate
  (repeat' split) <;> first
    | with_reducible rfl
    | simp only [setInactive_pending, raise_pending, State.setPil_queue, ite_pending, ite_self]
    | simp only [setInactive_pending, raise_pending, State.setPil_queue, ite_pending, ite_self, *]

@[simp] theorem commitFloor_pending (s : State) : (commitFloor s).2.pending = s.pending := by
  simp only [commitFloor]
  (repeat' split) <;> first
    | with_reducible rfl
    | simp only [setResponse_pending, State.set_queue, State.draw_queue, ite_pending, ite_self]
    | simp only [setResponse_pending, State.set_queue, State.draw_queue, ite_pending, ite_self, *]

@[simp] theorem enrollKey_pending (c : MbxCmd) (s : State) : (enrollKey c s).2.pending = s.pending := by
  simp only [enrollKey]
  (repeat' split) <;> first
    | with_reducible rfl
    | simp only [raise_pending, State.set_queue, ite_pending, ite_self]
    | simp only [raise_pending, State.set_queue, ite_pending, ite_self, *]

@[simp] theorem mailboxEffect_pending (c : MbxCmd) (image : Option Nat) (s : State) :
    (mailboxEffect c image s).2.pending = s.pending := by
  unfold mailboxEffect
  (repeat' split) <;> first
    | with_reducible rfl
    | simp only [setResponse_pending, commitFloor_pending, enrollKey_pending, firmwareUpdate_pending, ite_pending, ite_self]
    | simp only [setResponse_pending, commitFloor_pending, enrollKey_pending, firmwareUpdate_pending, ite_pending,
        ite_self, *]

@[simp] theorem mailboxEnd_pending (c : MbxCmd) (image : Option Nat) (s : State) :
    (mailboxEnd c image s).pending = s.pending := by
  simp only [mailboxEnd, notify_pending, raise_pending, mailboxEffect_pending, State.set_queue, State.setPil_queue,
      ite_pending, ite_self]

@[simp] theorem answer_pending (vdm : Bool) (name : String) (code : Nat) (values : List Int) (s : State) :
    (answer vdm name code values s).pending = s.pending := by
  simp only [answer, State.emit_queue]

@[simp] theorem archEffecter_pending (a r : Nat) (s : State) : (archEffecter a r s).pending = s.pending := by
  simp only [archEffecter, applyRequests_pending, isleRequest_pending, State.set_queue, foldl_pending, implies_true,
      ite_pending, ite_self]

@[simp] theorem setEffecter_pending (id state v : Nat) (s : State) : (setEffecter id state v s).pending = s.pending := by
  simp only [setEffecter, requestOff_pending, archEffecter_pending, requestCreset_pending, requestOn_pending, ite_pending,
      ite_self]

@[simp] theorem managementRefused_pending (vdm : Bool) (name : String) (s : State) :
    (managementRefused vdm name s).pending = s.pending := by
  simp only [managementRefused, answer_pending, raise_pending]

@[simp] theorem sendEvent_pending (answered : Bool) (s : State) : (sendEvent answered s).pending = s.pending := by
  unfold sendEvent
  (repeat' split) <;> first
    | with_reducible rfl
    | simp only [answer_pending, setPldm_pending, ite_pending, ite_self]
    | simp only [answer_pending, setPldm_pending, ite_pending, ite_self, *]

@[simp] theorem pilotFlag_pending (f : Field) (b : Bool) (s : State) : (pilotFlag f b s).pending = s.pending := by
  simp only [pilotFlag, State.setFlag_queue, ite_pending, ite_self]

@[simp] theorem tapLoad_pending (instr : Nat) (active : Bool) (s : State) : (tapLoad instr active s).pending = s.pending := by
  simp only [tapLoad, pilotFlag_pending, State.setPil_queue]

@[simp] theorem tapDrive_pending (instr : Nat) (s : State) : (tapDrive instr s).pending = s.pending := by
  simp only [tapDrive, tapLoad_pending, pilotFlag_pending, raise_pending, ite_pending, ite_self]

end Sys2Proof.Machine
end

