-- ==== Sys2Proof/Tests/Slice0.lean ====
section
/-!
SUPPORT. Tests. Each theorem gives, for one rule or group of rules, a concrete state that meets a statement's hypotheses, clause by
clause, and what one step leaves there; the expected values are worked out from the spec's rules.
-/
namespace Sys2Proof.Machine.Tests
open Sys2Proof Sys2Proof.Machine
set_option Elab.async false

/-- A state with domains ON and some register fields set. -/
def mk (ds : List Nat) (fs : List (Field × Nat)) : State :=
  { fs.foldl (fun t p => t.set p.1 p.2) ({} : State) with doms := ds.map (fun d => (d, { state := .on })) }

/-- What holds of the next state. -/
def after (o : Result) (p : State → Bool) : Bool :=
  match o with
  | .next t => p t
  | _ => false

/-- A step that answers a state equal to one given. -/
def gives (o : Result) (t : State) : Bool := after o (fun u => u == t)

/-- An image of one archipelago, isle 0. -/
def image0 : Image :=
  { digest := [], signer := 0, secVersion := 0, activateFn := 0, partialArch := none, baseDigest := [], moduleId := 0
    periodUs := 10, dBase := 1, master := 1, backup := 2, wImg := 0, rdvPeriod := 1, transitNs := 0, isleMhz := 1000
    avsEn := false, pcapW := 1000, parts := [⟨0, [0], [], []⟩], routes := [], regions := [], quays := [], roles := []
    slots := [], envDramMax := 85, stopDiscMs := 10, swo1 := 0, swo2 := 0, loopUa := 0 }

def withImage (im : Image) (s : State) : State := { s with image := some im }
def kept (s t : State) : Bool := t.lagoon == s.lagoon && t.stored == s.stored && t.isles == s.isles

/-! The queue and time. -/

theorem test_step_takes_the_front_command : [
    gives (step { mk [0, 1] [] with pending := [.lhtLock, .holdover] })
      { (mk [0, 1] []).set R.LHT_CTRL_LOCK 1 with pending := [.holdover] },
    gives (step (mk [] [])) (mk [] []),
    (let s := { mk [] [(R.LHT_LT_LT, 5)] with lh := { running := true } }; gives (step s) (s.set R.LHT_LT_LT 6)),
    (let s := { mk [] [(R.LHT_LT_LT, 9999), (R.LHT_FRAME_CFG_PERIOD_US, 10)] with lh := { running := true, hasOrigin := true } }
     tickLt s 1 == 10000 && gives (step s) s)] = List.replicate 4 true := by decide +kernel

theorem test_reset_state_is_well_formed : [Memory.wf State.reset, State.reset.get R.LHT_HOLD_CFG_MASTER_LOSS_FRAMES == 3,
    (lagoonGet State.reset 255 0xFFFFF).toNat == 0, storedWord State.reset 0 0 == List.replicate 36 0,
    storedWord State.reset 3 32 == encodeWord (List.replicate 32 0) 32] = List.replicate 5 true := by decide +kernel

theorem test_memory_form_after_writes : [
    Memory.wf (storeBare .host 3 64 (List.replicate 32 7) false State.reset),
    (storeBare .host 3 64 (List.replicate 32 0) false (storeBare .host 3 64 (List.replicate 32 7) false State.reset)).stored == [],
    Memory.wf (lagoonWrite 2 0xFFFFE [1, 2, 3] State.reset),
    (lagoonWrite 2 0xFFFFE [0, 0, 0] (lagoonWrite 2 0xFFFFE [1, 2, 3] State.reset)).lagoon == []] =
    List.replicate 4 true := by decide +kernel

theorem test_only_their_commands : [mayChangeFuses .lhtLock, mayChangeImage .lhtLock, mayChangeLoad .lhtLock, mayChangeKeel .lhtLock,
    mayChangeBoot .lhtLock, mayChangeMeters .lhtLock, !mayChangeFuses (.keyRevoke 2)] =
    [false, false, false, false, false, false, false] := by decide +kernel

/-! The code of stored words. -/

/-- Thirty-two data bytes. -/
def data32 : List Nat := (List.range 32).map (fun k => 7 * k + 3)

theorem test_code_words : [
    syndromes (encodeWord data32 0x1FFFFFE0 ++ foldedAddress 0x1FFFFFE0) == [0, 0, 0, 0],
    decodeWord (encodeWord data32 96) 96 == (.clean, data32),
    decodeWord (poisonWord data32 96) 96 == (.poisoned, data32),
    decodeWord (setNth (encodeWord data32 96) 0 200) 96 == (.corrected 0, data32),
    decodeWord (setNth (encodeWord data32 96) 35 200) 96 == (.corrected 35, data32) && nth (encodeWord data32 96) 35 0 != 200,
    decodeWord (encodeWord data32 (96 ^^^ 32)) 96 == (.address, data32),
    decodeWord (encodeWord data32 (96 ^^^ (32 * (2 ^ 19 - 1)))) 96 == (.address, data32)] = List.replicate 7 true := by
  decide +kernel

/-! Registers and the event log. -/

theorem test_fields_by_access_code :
    (let s := mk [0, 1] [(R.GLB_RACK_FOREIGN, 1), (R.LHT_CTRL_LOCK, 0)]
     let ok := fun f => reachable s f && writable s 0 f
     [ok R.GLB_RACK_FOREIGN && writeField s 0 R.GLB_RACK_FOREIGN 1 == s.set R.GLB_RACK_FOREIGN 0,
      ok R.LHT_LT_PRESET_PRESET && writeField s 0 R.LHT_LT_PRESET_PRESET 9 == s.set R.LHT_LT_PRESET_PRESET 9,
      (let u := s.set R.LHT_CTRL_LOCK 1
       blockLocked u R.LHT_LT_PRESET_PRESET.addr && writeField u 0 R.LHT_LT_PRESET_PRESET 9 == u),
      ok (R.BOL_WAIT_THRESH_THRESHOLD.at [3]) &&
        writeField s 0 (R.BOL_WAIT_THRESH_THRESHOLD.at [3]) 9 == s.set (R.BOL_WAIT_THRESH_THRESHOLD.at [3]) 9,
      ok R.LHT_LT_LT && writeField s 0 R.LHT_LT_LT 9 == s,
      ok R.LHT_CTRL_LOCK && (R.LHT_CTRL_LOCK.acc != .w1s || writeField s 0 R.LHT_CTRL_LOCK 1 == s.set R.LHT_CTRL_LOCK 1)]) =
    List.replicate 6 true := by decide +kernel

theorem test_counters : [
    ((mk [] [(R.GLB_HIF_ERR_BAR0_BAD, 65534)]).bump R.GLB_HIF_ERR_BAR0_BAD 5).get R.GLB_HIF_ERR_BAR0_BAD ==
      2 ^ R.GLB_HIF_ERR_BAR0_BAD.width - 1,
    ((mk [] [(R.EVT_SEQ_NEXT_SEQ, 2 ^ 32 - 1)]).count R.EVT_SEQ_NEXT_SEQ).get R.EVT_SEQ_NEXT_SEQ == 0,
    severity 0x0501 != 3] = List.replicate 3 true := by decide +kernel

theorem test_event_log :
    (let s := mk [0, 1] [(R.EVT_STATUS_FROZEN, 1), (R.EVT_STATUS_FATAL_VALID, 1), (R.EVT_SEQ_NEXT_SEQ, 2 ^ 32 - 1)]
     let e : Entry := ⟨0x0501, 2, 0, 1, 0, 0, 0⟩
     let k := { (mk [0, 1] [(R.KEL_STATUS_STATE, 1)]) with log := { persist := [e] } }
     [s.flag R.EVT_STATUS_FROZEN && (enterEvent 0x0501 0 0 s).get R.EVT_LOSS_LOST == 1,
      (raise 0x0501 0 0 (mk [0, 1] [(R.EVT_SEQ_NEXT_SEQ, 2 ^ 32 - 1)])).get R.EVT_SEQ_NEXT_SEQ == 0,
      gives (exec .fatalValidClear s) (s.set R.EVT_STATUS_FATAL_VALID 0),
      after (exec (.eventUnfreeze 2) s) (fun t => t.get R.EVT_STATUS_FROZEN == 0 && t.get R.EVT_SEQ_NEXT_SEQ == 2 ^ 32 - 1),
      (let u := { mk [0, 1] [] with log := { freezeLeft := some 3 } }
       after (exec (.eventUnfreeze 2) u) (fun t => t.log.freezeLeft == none && !t.flag R.EVT_STATUS_FROZEN)),
      after (exec .eventPersist k) (fun t => t.log.persist == [] && t.log.spacing && t.keelQueue.length == 1)]) =
    List.replicate 6 true := by decide +kernel

/-! Bollards and waiter slots. -/

/-- A bollard's value set. -/
def withBollard (b v : Nat) (s : State) : State := setBollard b v s

theorem test_bollard_add :
    (let s := withBollard 4095 7 (mk [0, 1] [])
     [bollard (bolAdd 4095 (-7) s) 4095 == 0, (bolAdd 4095 (-8) s).get R.BOL_STATUS_SAT_COUNT == 1 && bollard (bolAdd 4095 (-8) s) 4095 == 0,
      (bolAdd 4095 (-8) s).get R.BOL_STATUS_SAT_LAST == 4095, bollard (bolAdd 4095 4294967288 s) 4095 == 4294967295,
      (bolAdd 4095 4294967289 s).get R.BOL_STATUS_SAT_COUNT == 1, bollardReached s 0 4095, bollardReached s 17 0,
      after (exec (.bollardAdd ⟨17, false⟩ 4095 0xFFFFFFFF) s) (fun t => bollard t 4095 == 6),
      after (exec (.bollardTas ⟨17, false⟩ 24 4) s) (fun t => bollard t 3 == 1 && t.out == s.out ++ [.value 0]),
      gives (exec (.bollardAdd ⟨17, true⟩ 4095 0xFFFFFFFF) s) { s with cycleOps := [⟨issuerRank 17, 4095, some (-1)⟩] },
      gives (exec (.bollardTas ⟨17, true⟩ 24 4) s) { s with cycleOps := [⟨issuerRank 17, 3, none⟩] },
      (let u := { s with slices := [(0, { hostq := [⟨.bar2 5 [], 0, 32, true, [], 0, []⟩] })] }
       pendingBar2Writes u == [5] && after (exec (.bollardAdd ⟨0, false⟩ 4095 1) u) (fun t =>
           t.hif.held == [⟨.bollardAdd ⟨0, false⟩ 4095 1, [5]⟩])
         && after (exec (.bollardTas ⟨0, true⟩ 32760 4) u) (fun t => t.hif.held == [⟨.bollardTas ⟨0, true⟩ 32760 4, [5]⟩]))]) =
    List.replicate 12 true := by
  decide +kernel

theorem test_waiter_arm :
    (let s := withBollard 9 5 (mk [0, 1] [(R.BOL_WAIT_THRESH_THRESHOLD.at [255], 5), (R.LHT_FN_FN, 0x12345)])
     let f := R.BOL_WAIT_CTRL_FIRED.at [255]
     [slotReached s 17 255, slotReached s 17 192, slotOwner 191 == 16, mayWatch s 255 9,
      after (exec (.waiterArm 17 255 9) s) (fun t => t.get f == 1 && t.get (R.BOL_WAIT_RESULT_VALUE.at [255]) == 5 &&
        t.get (R.BOL_WAIT_RESULT_FN.at [255]) == 0x2345 && t.get (R.BOL_WAIT_CTRL_ARM.at [255]) == 0 && t.out == [.pilotNotice 255]),
      (let u := withBollard 9 4 s
       after (exec (.waiterArm 17 255 9) u) (fun t => t.get (R.BOL_WAIT_CTRL_ARM.at [255]) == 1 && t.out == [])),
      (let u := s.set (R.BOL_WAIT_THRESH_THRESHOLD.at [255]) 0
       after (exec (.waiterArm 17 255 9) u) (fun t => t.get (R.BOL_WAIT_CTRL_ARM_ERR.at [255]) == 1 &&
         t.get (R.BOL_WAIT_CTRL_ARM.at [255]) == 0)),
      (let v := { s with hif := { s.hif with vfs := 1 } }; !mayWatch v 128 9 && slotReached v 1 128),
      !slotReached s 1 128]) = List.replicate 9 true := by decide +kernel

theorem test_waiter_disarm_and_timeout :
    (let s := mk [0, 1] [(R.BOL_WAIT_CTRL_ARM.at [255], 1)]
     [gives (exec (.waiterDisarm 17 255 0) s) (s.set (R.BOL_WAIT_CTRL_ARM.at [255]) 0),
      (let u := s.set (R.BOL_WAIT_TIMEOUT_TIMEOUT_US.at [255]) 1
       after (exec (.waiterTimeout 255) u) (fun t => t.get (R.BOL_WAIT_CTRL_TIMED_OUT.at [255]) == 1 &&
         t.get (R.BOL_WAIT_CTRL_ARM.at [255]) == 0 && t.get R.EVT_SEQ_NEXT_SEQ == 1)),
      gives (exec (.waiterTimeout 255) s) s]) = List.replicate 3 true := by decide +kernel

/-! The lighthouse. -/

theorem test_dpolicy :
    (let s := mk [0, 1] [(R.LHT_FRAME_CFG_D_BASE, 4)]
     [decodes s 0, gives (exec (.dpolicyWrite 0x0304) s) s,
      gives (exec (.dpolicyWrite 0x1F03) s) ((s.set R.LHT_DPOLICY_D_MIN 4).set R.LHT_DPOLICY_D_MAX 31),
      gives (exec (.dpolicyWrite 0x0505) s) ((s.set R.LHT_DPOLICY_D_MIN 5).set R.LHT_DPOLICY_D_MAX 5)]) =
    List.replicate 4 true := by decide +kernel

theorem test_lighthouse_states :
    (let s := mk [0, 1] [(R.GLB_RACK_MOD_STRAP, 7), (R.LHT_LT_LT, 55)]
     let im := withImage image0 s
     let m := withImage { image0 with master := 7 } s
     [gives (exec .lhtLock s) (s.set R.LHT_CTRL_LOCK 1),
      gives (exec (.lhtEnable true) s) (s.set R.LHT_CTRL_ENABLE 1),
      after (exec (.lhtEnable true) im) (fun t => lhState t == 1 && t.lh.running && !t.lh.listening && t.get R.LHT_LT_LT == 55),
      after (exec (.lhtEnable true) m) (fun t => lhState t == 1 && !t.lh.running && t.lh.listening),
      after (exec (.lhtEnable false) (im.set R.LHT_STATUS_STATE 2)) (fun t => lhState t == 0 && t.get R.LHT_LT_LT == 55),
      (let a := { (m.set R.LHT_STATUS_STATE 1).set R.LHT_LT_PRESET_PRESET 1000 with lh := { listening := true } }
       after (exec .acquireListenExpiry a) (fun t => lhState t == 5 && t.get R.LHT_LT_LT == 1000 && t.lh.running &&
         t.get R.LHT_TICK_ORIGIN_ORIGIN == 1000)),
      (let a := { s.set R.LHT_STATUS_STATE 2 with lh := { noPort := 3 } }
       masterLoss a == 3 && !backupPromotes a && gives (exec .holdover a) (raise 0x0102 noUnit 0 (a.set R.LHT_STATUS_STATE 3))),
      (let a := s.set R.LHT_STATUS_STATE 3
       gives (exec .holdoverLimitExpiry a) (raise 0x0103 noUnit 0 (a.set R.LHT_STATUS_STATE 4))),
      (let a := { s.set R.LHT_STATUS_STATE 3 with lh := { good := 16 } }
       after (exec .locked a) (fun t => lhState t == 2 && t.get R.LHT_STATUS_EVER_LOCKED == 1)),
      (let a := { m.set R.LHT_STATUS_STATE 5 with lh := { demote := some 3 } }
       after (exec .masterDemotion a) (fun t => lhState t == 1 && t.lh.demote == none && t.get R.LHT_LT_LT == 55))]) =
    List.replicate 10 true := by decide +kernel

theorem test_backup_promotion :
    (let s := { withImage { image0 with backup := 7 } (mk [0, 1] [(R.GLB_RACK_MOD_STRAP, 7), (R.LHT_STATUS_STATE, 3),
        (R.LHT_STATUS_MASTER_EPOCH, 255), (R.LHT_FN_FN, 9)]) with lh := { noMaster := 3 } }
     [after (exec .backupPromotion s) (fun t => lhState t == 5 && t.get R.LHT_STATUS_MASTER_EPOCH == 0 &&
        t.get R.LHT_STATUS_MASTER_ID == 7 && t.get R.LHT_FN_FN == 9),
      (let u := s.set R.LHT_STATUS_STATE 4; gives (exec .backupPromotion u) u),
      after (exec .backupPromotion (s.set R.LHT_STATUS_STATE 2)) (fun t => lhState t == 5)]) = List.replicate 3 true := by
  decide +kernel

theorem test_lt_step :
    (let s := { mk [] [(R.LHT_STATUS_STATE, 1), (R.HAR_STATUS_STATE.at [0], 3)] with lh := { estimates := [(0, 4000000)] } }
     let q := { s with lh := { estimates := [(0, 2000000)] } }
     [medianOf s == some 8000000, gives (exec .ltStep s) { s with lh := { s.lh with step := some (-2000000) } },
      medianOf q == some 4000000 && gives (exec .ltStep q) q,
      (let u := s.set R.LHT_STATUS_EVER_LOCKED 1; gives (exec .ltStep u) u)]) = List.replicate 4 true := by decide +kernel

/-! Flits. -/

/-- A flit as its 256 bytes. -/
def flit (kind cause src dst : Nat) (bcast : Bool) (lsn slot idx fn : Nat) (payload : List Nat) : List Nat :=
  let b := [kind + cause * 16, src, dst + b2n bcast * 64] ++ le 3 lsn ++ le 2 slot ++ le 2 idx ++ le 2 fn ++ padPayload payload
  b ++ le 4 (crc32c b)

/-- Module 7 with port 7 UP, expecting LSN 5, in rack frame 9. -/
def port7 : State :=
  mk [0, 1, 14, 15] [(R.GLB_RACK_MOD_STRAP, 7), (R.HAR_STATUS_STATE.at [7], 3), (R.HAR_LSN_RX_EXPECT.at [7], 5),
    (R.LHT_FN_FN, 9), (R.LHT_RDV_CFG_RDV_PERIOD, 3), (R.LHT_STATUS_STATE, 5)]

def masterFlit (src epoch : Nat) : List Nat :=
  flit 2 0 src 0 true 5 0 0 9 (le 8 1 ++ le 8 9 ++ le 8 0 ++ le 2 10 ++ [epoch, 0])

/-- The hypotheses of `flitInOrder` as a test. -/
def inOrder (p : Nat) (b : List Nat) (s : State) : Bool :=
  portState s p == portUp && !quarantined s p && flitCrcOk b && (flitOf b).reservedOk && !(flitOf b).bcast &&
    (flitOf b).dst == moduleNumber s && (flitOf b).lsn == s.get (R.HAR_LSN_RX_EXPECT.at [p])

set_option maxRecDepth 100000 in
theorem test_time_transfer :
    (let s := port7
     let a := { withImage { image0 with master := 3 } (s.set R.LHT_STATUS_STATE 1) with lh := { toAnswer := [7] } }
     let reply := flit 2 0 3 7 false 5 0 0 9 (le 8 4 ++ [1, 2] ++ List.replicate 17 0 ++ [1, 17, 0, 0, 0])
     let f := flitOf (masterFlit 3 200)
     let sent := s.modPort 7 (fun v => { v with posted := [3] })
     [!loopback s 7 && after (exec (.timeFlitSend 7 3 (flitTime s 3)) s) (fun t => t.get (R.HAR_LSN_TX_NEXT.at [7]) == 1 && t.out.length == 1 &&
        (t.port 7).posted == [3]),
      gives (exec (.timeFlitSend 7 3 (flitTime sent 3)) sent) sent,
      !loopback a 7 && after (exec (.timeReplySend 7 (flitTime a (16 + moduleNumber a))) a) (fun t => t.lh.toAnswer == [] && t.get (R.HAR_LSN_TX_NEXT.at [7]) == 1),
      inOrder 7 reply s && typeOf reply == 2 && isReply reply && timeFormOk (flitOf reply) 95 &&
        (resolveFn 9 (flitOf reply).fn).isSome,
      gives (exec (.timeReplyReceive 7 reply false 95 (2 ^ 32 + 6)) s)
        { lsnTaken 7 reply s with lh := { s.lh with echoes := [(7 * 64 + 3, 6 + 17 * 2 ^ 32 + 1)] } },
      !namedMaster s 3 && takeMaster 7 1 0 f s == raiseOnce 0x0108 3 0 (s.set R.GLB_RACK_FOREIGN 1),
      namedMaster a 3 && (takeMaster 7 1 0 f a).lh.following && (takeMaster 7 1 0 f a).get R.LHT_STATUS_MASTER_EPOCH == 200 &&
        (takeMaster 7 1 0 f a).get R.LHT_STATUS_MASTER_ID == 3 && (takeMaster 7 1 0 f a).lh.running,
      (let m := withImage { image0 with master := 7 } s; namedMaster m 7 && takeMaster 7 1 0 (flitOf (masterFlit 7 0)) m == m),
      gives (exec (.timeFlitReceive 7 (masterFlit 3 200) false 95 5 0) a) (takeMaster 7 1 0 f (lsnTaken 7 (masterFlit 3 200) a))]) =
    List.replicate 9 true := by decide +kernel

/-! Harbour ports. -/

theorem test_port_states :
    (let s := mk [0, 1, 14, 15] [(R.HAR_STATUS_ROLE.at [7], 1)]
     let up := (port7.set (R.HAR_CTRL_ENABLE.at [7]) 1).set (R.HAR_STATUS_QUARANTINED.at [7]) 1
     [gives (exec (.portEnable 7) s) ((s.set (R.HAR_CTRL_ENABLE.at [7]) 1).set (R.HAR_STATUS_STATE.at [7]) 1),
      (let u := s.set (R.HAR_STATUS_ROLE.at [7]) 0; gives (exec (.portEnable 7) u) (u.set (R.HAR_CTRL_ENABLE.at [7]) 1)),
      after (exec (.portDisable 7) up) (fun t => portState t 7 == 0 && !quarantined t 7 && (t.port 7).tx == [] && kept up t),
      gives (exec (.quarantineClear 7 44) up) (raise 0x0406 7 0
        ((up.modPort 7 (fun v => { v with backAt := some 44 })).set (R.HAR_STATUS_QUARANTINED.at [7]) 0)),
      after (exec (.lockingTimeout 7) (s.set (R.HAR_STATUS_STATE.at [7]) 2)) (fun t => portState t 7 == 1),
      after (exec (.pmdTrainingComplete 7 5) ((s.set (R.HAR_STATUS_STATE.at [7]) 1).set (R.HAR_LSN_TX_NEXT.at [7]) 4))
        (fun t => portState t 7 == 3 && t.get (R.HAR_LSN_TX_NEXT.at [7]) == 0),
      after (exec (.quarantineWindowEnd 7) (s.set (R.HAR_QUAR_STAT_WINDOW_COUNT.at [7]) 9))
        (fun t => t.get (R.HAR_QUAR_STAT_WINDOW_COUNT.at [7]) == 0),
      (let u := port7.modPort 7 (fun v => { v with retrainAt := some 9 })
       after (exec (.retrainTick 7) u) (fun t => portState t 7 == 1 && (t.port 7).retrainAt == none)),
      (let u := port7.modPort 7 (fun v => { v with retrainAt := some 10 }); gives (exec (.retrainTick 7) u) u)]) =
    List.replicate 9 true := by decide +kernel

theorem test_codeword_lock :
    (let s := (mk [0, 1, 14, 15] [(R.HAR_STATUS_STATE.at [7], 2), (R.HAR_LSN_TX_NEXT.at [7], 9), (R.HAR_LSN_RX_EXPECT.at [7], 9)]).modPort 7
       (fun v => { v with valid := 3, header := some (1, 1023) })
     let h := 0x169 * 2048 + 2047
     let up := port7.modPort 7 (fun v => { v with invalid := 2, header := some (1, 1023), tx := [(1, [1])] })
     [headerValid (some (1, 1023)) h && headerAfter h == (0, 1023),
      after (exec (.codewordReceive 7 h false false 3) s) (fun t => portState t 7 == 3 && t.get (R.HAR_LSN_TX_NEXT.at [7]) == 0 &&
        t.get (R.HAR_LSN_RX_EXPECT.at [7]) == 0),
      after (exec (.codewordReceive 7 (h - 1) false false 3) up) (fun t => portState t 7 == 2 && (t.port 7).tx == []),
      after (exec (.codewordReceive 7 h true false 3) up) (fun t => portState t 7 == 3 && (t.port 7).invalid == 0 &&
        t.get (R.HAR_FEC_CORR_CODEWORDS.at [7]) == 1),
      (let u := s.set (R.HAR_STATUS_STATE.at [7]) 1; gives (exec (.codewordReceive 7 h true true 0) u) u)]) =
    List.replicate 5 true := by decide +kernel

def slotImage : Image :=
  { image0 with slots := [⟨7, 4095, 2 + 3 * 2 ^ 8 + 8 * 2 ^ 64 + 1000 * 2 ^ 96⟩, ⟨7, 1, 1 + 3 * 2 ^ 8 + 4 * 2 ^ 64 + 1000 * 2 ^ 96⟩] }

def accepted (v : Verdict) (t : State) : Bool :=
  match v with
  | .accept u => u == t
  | _ => false
def violates (v : Verdict) (r : Nat) (t : State) : Bool :=
  match v with
  | .violates k u => k == r && u == t
  | _ => false

set_option maxRecDepth 100000 in
theorem test_flit_checks :
    (let s := port7
     let data := fun lsn src idx slot => flit 1 0 src 7 false lsn slot idx 9 [42]
     let idle := flit 0 0 3 7 false 5 0 0 9 []
     let bad := flit 3 0 3 7 false 5 0 0 9 [4]
     [inOrder 7 (data 5 3 0 1) s && accepted (judgeFlit 7 (flitOf (data 5 3 0 1)) s) (lsnTaken 7 (data 5 3 0 1) s),
      accepted (judgeFlit 7 (flitOf (data (5 + 2 ^ 23 - 1) 3 0 1)) s)
        (lsnTaken 7 (data (5 + 2 ^ 23 - 1) 3 0 1) (s.bump (R.HAR_FLIT_ERR_LOST.at [7]) (2 ^ 23 - 1))),
      violates (judgeFlit 7 (flitOf (data 4 3 0 1)) s) 3 s,
      gives (exec (.flitReceive 7 idle true) s) (s.bump (R.HAR_FLIT_ERR_DAMAGED.at [7])),
      inOrder 7 idle s && gives (exec (.flitReceive 7 idle false) s) (s.set (R.HAR_LSN_RX_EXPECT.at [7]) 5),
      inOrder 7 bad s && gives (exec (.flitReceive 7 bad false) s) (violation 7 8 (flitOf bad)
        ((lsnTaken 7 bad s).modPort 7 (fun v => { v with controls := 1 })))]) = List.replicate 6 true := by decide +kernel

set_option maxRecDepth 100000 in
theorem test_data_flits :
    (let s := withImage slotImage port7
     let data := fun src idx => flit 1 0 src 7 false 5 4095 idx 9 [42]
     let e := slotEntryOf (2 + 3 * 2 ^ 8 + 8 * 2 ^ 64 + 1000 * 2 ^ 96)
     [slotOf s 7 4095 == some e && e.len == 3 && e.cycle == 1000 && e.kind == 2 && e.peer == 3, inOrder 7 (data 3 2) s,
      resolveFn 9 9 == some 9 && lastRendezvous s == some 9,
      gives (exec (.dataFlitReceive 7 (data 3 2) false 999) s) ((lsnTaken 7 (data 3 2) s).modPort 7 (fun v =>
        { v with rx := [(rxKey 4095 2, ⟨0, 42 :: List.replicate 239 0⟩)] })),
      gives (exec (.dataFlitReceive 7 (data 3 2) false 1000) s) (violation 7 5 (flitOf (data 3 2)) (lsnTaken 7 (data 3 2) s)),
      gives (exec (.dataFlitReceive 7 (data 2 2) false 0) s) (violation 7 5 (flitOf (data 2 2)) (lsnTaken 7 (data 2 2) s)),
      after (exec (.receiveBufferDiscard 7 4095) (s.modPort 7 (fun v => { v with rx := [(rxKey 4095 2, ⟨0, []⟩)] })))
        (fun t => rxOf t 7 4095 == [])]) = List.replicate 7 true := by decide +kernel

set_option maxRecDepth 100000 in
theorem test_control_flits :
    (let s := port7
     let ctl := fun pl => flit 3 0 3 7 false 5 0 0 9 pl
     let beat := ctl ([1, 3, 4] ++ List.replicate 5 0 ++ le 8 9 ++ le 3 77 ++ [0, 6, 0])
     let prot := ctl ([2, 5] ++ le 3 0xFFFFFF ++ [0] ++ le 2 4095 ++ le 4 9)
     let re := fun n => ctl ([3] ++ List.replicate 7 0 ++ le 8 n)
     [inOrder 7 beat s && controlFormOk (flitOf beat) && after (exec (.heartbeatReceive 7 beat false) s) (fun t =>
        (t.port 7).partner == some (3, 4, 9, 77, 6)),
      inOrder 7 prot s && controlFormOk (flitOf prot) && after (exec (.protestReceive 7 prot false) s) (fun t =>
        t.get (R.HAR_PROTEST_RX_LSN.at [7]) == 0xFFFFFF && t.get (R.HAR_PROTEST_RX_SLOT.at [7]) == 4095 &&
        t.get (R.HAR_LSN_RX_EXPECT.at [7]) == 6),
      controlFormOk (flitOf (re 65544)) && after (exec (.retrainReceive 7 (re 65544) false) s) (fun t =>
        (t.port 7).retrainAt == some 65544 && t.get (R.HAR_STATUS_RETRAIN_PENDING.at [7]) == 1),
      gives (exec (.retrainReceive 7 (re 9) false) s) (violation 7 8 (flitOf (re 9))
        ((lsnTaken 7 (re 9) s).modPort 7 (fun v => { v with controls := 1 })))]) = List.replicate 4 true := by decide +kernel

set_option maxRecDepth 100000 in
theorem test_port_transmissions :
    (let s := withImage slotImage port7
     let p := s.modPort 7 (fun v => { v with protests := [⟨5, 2 ^ 24 - 1, 1, 9⟩] })
     let beat := s.modPort 7 (fun v => { v with posted := [88] })
     let once := s.modPort 7 (fun v => { v with sentFn := some 9, sent := [rxKey 1 1] })
     [after (exec (.heartbeatSend 7) s) (fun t => match t.out with
        | [.flit 7 f] => nth f 14 0 == 3 && t.get (R.HAR_LSN_TX_NEXT.at [7]) == 1 && (t.port 7).posted == [88]
        | _ => false),
      gives (exec (.heartbeatSend 7) beat) beat, gives (exec (.dataSlotTransmit 7 1 1) once) once,
      after (exec (.protestSend 7) p) (fun t => (t.port 7).protests == [] && t.get (R.HAR_PROTEST_TX_LSN.at [7]) == 2 ^ 24 - 1),
      (slotOf s 7 1).isSome && after (exec (.dataSlotTransmit 7 1 1) s) (fun t => t.out.length == 1 &&
        (t.port 7).sent == [rxKey 1 1] && (t.port 7).sentFn == some 9),
      after (exec (.retrainRequest 7) s) (fun t => (t.port 7).retrainAt.any (fun k => 11 ≤ k) && (t.port 7).retrainOwn)]) =
    List.replicate 6 true := by decide +kernel

/-! Quays. -/

def quayIn : QuayBind := ⟨63, false, 0, 0, 0, 0, 0xFF, 8, 4, 0, 0, 0⟩
def quayOut : QuayBind := ⟨62, true, 0, 0, 0, 0, 0, 0, 0, 0x40, 3, 100⟩
def quayImage : Image := { image0 with quays := [quayOut, quayIn] }

/-- Quay 63 enabled on a ring of 256 words in host memory, two words ahead. -/
def quayState (q : Nat) : State :=
  withImage quayImage (mk [0, 1, 6] [(R.QUA_CTRL_ENABLE.at [q], 1), (R.QUA_PROD_PI.at [q], 1), (R.QUA_CONS_CI.at [q], 2 ^ 32 - 1),
    (R.QUA_SEQ_SEQ.at [q], 2 ^ 32 - 1)])

/-- A header: SEQ, words of payload, payload bytes, bollard addition. -/
def header (seq words bytes bol add : Nat) : List Nat :=
  le 8 (seq + words * 2 ^ 48 + 2 ^ 63) ++ le 8 0 ++ le 4 bytes ++ le 2 bol ++ le 2 add ++ List.replicate 40 0

theorem test_quay_indices :
    (let s := quayState 63
     let h := withImage quayImage (quayState 62)
     [quayReached s 0 63 false && occupancy s 63 == 2 && s.hif.held == [],
      gives (exec (.quayDoorbell 0 63 255) s) (s.set (R.QUA_PROD_PI.at [63]) 255),
      gives (exec (.quayDoorbell 0 63 256) s) (errorNotice 63 (raise 0x0205 63 0 (s.bump (R.QUA_ERR_DB_REFUSED.at [63])))),
      gives (exec (.quayDoorbell 0 63 0) s) (errorNotice 63 (raise 0x0205 63 0 (s.bump (R.QUA_ERR_DB_REFUSED.at [63])))),
      quayReached h 0 62 true && gives (exec (.quayConsumerWrite 0 62 1) h) ((h.set (R.QUA_CONS_CI.at [62]) 1).modQuay 62 (fun u => u)),
      gives (exec (.quayConsumerWrite 0 62 (2 ^ 32 - 1)) h) h,
      gives (exec (.quayConsumerWrite 0 62 2) h) (errorNotice 62 (raise 0x0205 62 0 (h.bump (R.QUA_ERR_DB_REFUSED.at [62]))))]) =
    List.replicate 7 true := by decide +kernel

theorem test_quay_headers :
    (let s := quayState 63
     let a := 255 * 64
     let u := s.emit (.hostRead 0 a 64)
     let hd := header (2 ^ 32 - 1) 1 64 (2 ^ 15 + 11) 7
     let dev := s.set (R.QUA_CTRL_LOC.at [63]) 1
     [ringByte s 63 (quayCi s 63) 0 == a && gives (exec (.quayHeaderRead 63 [] true) s) (quayHalt 63 4 u),
      gives (exec (.quayHeaderRead 63 (List.replicate 64 0) false) s) (quayHalt 63 1 u),
      gives (exec (.quayHeaderRead 63 (header 0 1 64 0 0) false) s) (quayHalt 63 2 u),
      gives (exec (.quayHeaderRead 63 (header (2 ^ 32 - 1) 2 128 0 0) false) s) (quayHalt 63 3 u),
      packetReason s quayIn (header (2 ^ 32 - 1) 0 64 0 0) == 1 &&
        gives (exec (.quayHeaderRead 63 (header (2 ^ 32 - 1) 0 64 0 0) false) s) (packetBad 63 1 (packetOf s (header 0 0 64 0 0)) u),
      packetReason s quayIn hd == 0 && after (exec (.quayHeaderRead 63 hd false) s) (fun t =>
        (t.quay 63).packet == some (packetOf s hd) && t.get (R.QUA_STATUS_BUSY.at [63]) == 1 && (packetOf s hd).addition == some (11, 7)),
      inDevice dev 63 && gives (exec (.quayHeaderRead 63 [] false) dev) ((dev.modQuay 63 (fun v => { v with heading := true })).modSlice 0
        (fun v => { v with hostq := [⟨.ringHead 63, a, 64, false, [], 0, []⟩] })),
      (quayHalt 63 7 s).get (R.QUA_STATUS_HALT_CAUSE.at [63]) == 7 && kept s (quayHalt 63 7 s),
      (let t := packetBad 63 3 (packetOf s hd) s
       t.get (R.QUA_CONS_CI.at [63]) == 1 && t.get (R.QUA_SEQ_SEQ.at [63]) == 0 && t.get (R.QUA_ERR_REASON.at [63]) == 3 &&
         t.get (R.QUA_COUNT_DROPPED.at [63]) == 1 && (t.quay 63).packet == none && kept s t)]) = List.replicate 9 true := by decide +kernel

theorem test_quay_deliveries :
    (let p : Packet := ⟨2, 64, 0, none, false, none, true, 64, 64, 64, none⟩
     let s := (quayState 63).modQuay 63 (fun v => { v with packet := some p })
     let w := (quayState 63).modQuay 63 (fun v => { v with packet := some { p with started := false, notBefore := some 1 } })
     let a := (quayState 63).modQuay 63 (fun v => { v with packet := some { p with addition := some (11, 7) } })
     let e := ({ quayState 62 with frame := { running := true } }).modArch 0 (fun r => { r with frame := .wet })
     [gives (exec (.quayDeliveryStart 63) w) w,
      after (exec (.quayDeliveryStart 63) (w.set R.LHT_FN_FN 1)) (fun t => (t.quay 63).packet.any (fun x => x.started)),
      after (exec (.quayDeliveryComplete ⟨63, false⟩) s) (fun t => (t.quay 63).packet == none && t.get (R.QUA_CONS_CI.at [63]) == 1 &&
        t.get (R.QUA_SEQ_SEQ.at [63]) == 0 && t.out == [.hostWrite 0 (255 * 64) (List.replicate 8 0) false]),
      after (exec (.quayDeliveryComplete ⟨63, false⟩) a) (fun t => bollard t 11 == 7 && t.get (R.QUA_COUNT_PACKETS.at [63]) == 1),
      gives (exec (.quayDeliveryComplete ⟨63, true⟩) a) (consumePacket 63 0 { p with addition := some (11, 7) } 0
        (cycleOp ⟨quayRank 63, 11, some 7⟩ true a)) && hostLinkReady e && bindOf e 62 == some quayOut,
      after (exec (.quayEmitOffset 62) e) (fun t => (t.quay 62).emission == some ⟨1, [], 0, false, []⟩ &&
        (t.slice 0).hostq == [⟨.emission 62, 0x40, 192, false, [], 0, []⟩] && t.get (R.QUA_STATUS_BUSY.at [62]) == 1),
      (let f := e.set (R.QUA_PROD_PI.at [62]) 252
       gives (exec (.quayEmitOffset 62) f) (raise 0x0203 62 0 (f.bump (R.QUA_COUNT_DROPPED_FULL.at [62]))))]) =
    List.replicate 7 true := by decide +kernel

theorem test_quay_enable_and_peek :
    (let s := quayState 63
     let h := quayState 62
     let off := s.set (R.QUA_CTRL_ENABLE.at [63]) 0
     let c := R.QUA_CTRL_ENABLE.at [63]
     let begun := fun t => t.get c == 1 && t.get (R.QUA_PROD_PI.at [63]) == 0 && t.get (R.QUA_CONS_CI.at [63]) == 0 &&
       t.get (R.QUA_SEQ_SEQ.at [63]) == 0
     [after (exec (.quayEnable 0 63 (1 + 8 * 4)) off) begun, after (exec (.quayEnable 0 63 (1 + 8 * 4)) s) begun,
      after (exec (.quayEnable 0 63 (1 + 21 * 4)) off) (fun t => t.get c == 0 && t.get (R.QUA_CTRL_ENABLE_ERR.at [63]) == 1),
      after (exec (.quayDisable 0 63 0) s) (fun t => t.get c == 0 && (t.quay 63).packet == none),
      gives (exec (.quayPeekRead 0 63 5) s) (s.emit (.value 5)),
      gives (exec (.quayPeekRead 0 63 5) (s.set (R.QUA_CONS_CI.at [63]) 1)) ((s.set (R.QUA_CONS_CI.at [63]) 1).emit (.value 0)),
      gives (exec (.quayPeekRead 0 62 (2 ^ 63 + 5)) h) ((h.modQuay 62 (fun v => { v with idleDone := false })).emit (.value (2 ^ 63 + 5))),
      gives (exec (.quayPeekRead 0 62 5) h) ((h.modQuay 62 (fun v => { v with idleDone := false })).emit (.value 0)),
      (let u := s.set (R.QUA_NOTICE_IDLE_US.at [63]) 1
       after (exec (.quayIdleTimeout 63) u) (fun t => (t.quay 63).idleDone && t.flag (R.QUA_STATUS_IDLE.at [63]) &&
         gives (exec (.quayIdleTimeout 63) t) t))]) = List.replicate 9 true := by decide +kernel

/-! The host interface. -/

theorem test_register_widths :
    (let s := mk [0, 1] [(R.DMA_STATUS_DB_REFUSED.at [0], 3)]
     let a8 := R.LHT_LT_PRESET_PRESET.addr
     let a4 := (R.DMA_STATUS_DB_REFUSED.at [0]).addr
     let scratch := R.GLB_DMA_ARB_QUAY_PRIO.addr
     let bad := fun t => t.get R.GLB_HIF_ERR_BAR0_BAD == 1
     [(regAt a8).any (fun r => r.bytes == 8) && (regAt a4).any (fun r => r.bytes == 4) && listed s 0 a8 && listed s 0 a4,
      gives (exec (.registerWrite 0 a8 8 (2 ^ 64 - 1)) s) (s.set R.LHT_LT_PRESET_PRESET (2 ^ 64 - 1)),
      gives (exec (.registerWrite 0 a8 2 5) s) (raiseOnceFrame 0x0011 0 0 (s.bump R.GLB_HIF_ERR_BAR0_BAD)),
      after (exec (.registerWrite 0 (scratch + 2) 4 5) s) bad,
      scratch % 4 == 0 && after (exec (.registerWrite 0 scratch 4 1) s) (fun t => t.get R.GLB_DMA_ARB_QUAY_PRIO == 1),
      after (exec (.registerWrite 0 scratch 8 (2 ^ 32 + 1)) s) (fun t => t.get R.GLB_DMA_ARB_QUAY_PRIO == 1),
      (R.DMA_STATUS_DB_REFUSED.acc == .rc) && after (exec (.readClear 0 a4 4) s) (fun t =>
        t.get (R.DMA_STATUS_DB_REFUSED.at [0]) == 0 && t.out != []),
      after (exec (.readClear 0 a4 2) s) (fun t => t.get (R.DMA_STATUS_DB_REFUSED.at [0]) == 3 && t.out.length == 1),
      after (exec (.readClear 0 (a4 + 2) 4) s) (fun t => bad t && t.out == [.readRefused 0])]) =
    List.replicate 9 true := by decide +kernel

theorem test_host_requests :
    (let s := mk [0, 1, 6] []
     let held := { s with hif := { s.hif with held := [⟨.hostviewWrite 1, [4]⟩] } }
     let logged := aerReport 0 "Malformed TLP" [1] s
     [after (exec (.bar0BadRequest 16 5 true) s) (fun t => t.out == [.completion 5 1 [] false] && t.get R.GLB_HIF_ERR_BAR0_BAD == 1),
      gives (exec (.malformedTlp 0 ⟨7, []⟩ .zeroLengthRead) s) (s.emit (.completion 7 0 [0, 0, 0, 0] false)),
      gives (exec (.malformedTlp 0 ⟨7, [1]⟩ .malformed) s) logged && KMap.get [] logged.hif.headerLog 0 == [1] &&
        (aerReport 0 "Malformed TLP" [2] logged).hif == logged.hif && logged.out == [.aer 0 "Malformed TLP" [1]],
      after (exec (.linkTrained 4 16 true true) s) (fun t => t.get R.GLB_HIF_LINK_RATE == 4 && t.flag R.GLB_HIF_LINK_IDE_SECURE &&
        t.get R.EVT_SEQ_NEXT_SEQ == 1),
      gives (exec .ideIntegrityFailure s) (raise 0x0016 0 0 (aerReport 0 "IDE Check Failed" [] (s.set R.GLB_HIF_LINK_IDE_SECURE 0))),
      gives (exec (.dmaResume 3) held) { held with hif := { held.hif with held := [⟨.hostviewWrite 1, [4]⟩, ⟨.dmaResume 3, []⟩] } },
      gives (exec (.hostviewWrite 1) s) (s.set R.GLB_HOSTVIEW_VIEW 1),
      after (exec (.bar2WindowWrite 3 7) s) (fun t => t.hif.bar2Size == 7)]) = List.replicate 8 true := by decide +kernel

theorem test_bar2_requests :
    (let s := mk [0, 1, 6] []
     let u := s.set R.GLB_HOSTVIEW_VIEW 1
     let rd := fun (n : Nat) => List.replicate n (⟨.bar2 9 [], 0, 32, false, [], 0, []⟩ : HostAcc)
     let wr : HostAcc := ⟨.bar2 9 [], 0, 2 ^ 21 - 31, true, [], 0, []⟩
     let full := fun q => u.modSlice 1 (fun v => { v with hostq := q })
     [after (exec (.bar2Request ⟨9, []⟩ (2 ^ 30 - 32) 32 false [] false) u) (fun t =>
        (t.slice 1).hostq == [⟨.bar2 9 [], 2 ^ 29 - 32, 32, false, [], 0, []⟩]),
      after (exec (.bar2Request ⟨9, []⟩ (2 ^ 30 - 32) 0 true (List.replicate 32 7) false) u) (fun t =>
        (t.slice 1).hostq == [⟨.bar2 9 [], 2 ^ 29 - 32, 32, true, List.replicate 32 7, 0, []⟩]),
      gives (exec (.bar2Request ⟨8, []⟩ 0 32 false [] false) (full (rd 512))) ((full (rd 512)).emit (.withheld 8)),
      gives (exec (.bar2Request ⟨8, []⟩ 0 0 true (List.replicate 32 7) false) (full [wr])) ((full [wr]).emit (.withheld 8)),
      gives (exec (.bar2Request ⟨8, [3]⟩ 0 0 true [1] true) s) (aerReport 0 "Poisoned TLP Received" [3] s),
      after (exec (.bar2RequestExpiry 9) (full (rd 1)))
         (fun t => t.out == [.completion 9 4 [] false] && (t.slice 1).hostq == [] && t.get R.GLB_HIF_ERR_EXPIRED == 1),
      after (exec (.bar2Request ⟨9, []⟩ 0 32 false [] false) (mk [0, 1] [])) (fun t => t.out == [.completion 9 4 [] false])]) =
    List.replicate 7 true := by decide +kernel

def desc0 : DmaDesc := ⟨0x1000, 0x20, 64, false, true, false⟩
def engine7 : State :=
  mk [0, 1, 6] [(R.DMA_CTRL_ENABLE.at [7], 1), (R.DMA_PROD_PI.at [7], 0), (R.DMA_CONS_CI.at [7], 2 ^ 32 - 1)]
def raw0 : List Nat := le 8 0x1000 ++ le 8 0x20 ++ le 4 63 ++ le 2 2 ++ le 10 0

theorem test_dma :
    (let s := engine7
     let off := s.set (R.DMA_CTRL_ENABLE.at [7]) 0
     let done := s.setDma 7 { desc := some desc0, moved := 64, asked := 64 }
     let bad := s.setDma 7 { desc := some desc0, moved := 64, asked := 64, poisoned := true }
     let ends := fun code (t : State) => t.get (R.DMA_STATUS_LAST_CODE.at [7]) == code && t.get (R.DMA_STATUS_HALTED.at [7]) == 1 &&
       t.get (R.DMA_CONS_CI.at [7]) == 0
     [dmaDescOf raw0 == some desc0 && dmaDescOf (setNth raw0 31 1) == some desc0 && dmaDescOf (setNth raw0 13 1) == none,
      gives (exec (.dmaDoorbell 7 15) s) (s.set (R.DMA_PROD_PI.at [7]) 15),
      gives (exec (.dmaDoorbell 7 16) s) (s.bump (R.DMA_STATUS_DB_REFUSED.at [7])),
      gives (exec (.dmaResume 7) s) (s.set (R.DMA_STATUS_HALTED.at [7]) 0),
      after (exec (.dmaEnable 7 33) off) (fun t => t.get (R.DMA_CTRL_ENABLE.at [7]) == 1 && t.get (R.DMA_CONS_CI.at [7]) == 0),
      gives (exec (.dmaEnable 7 33) done) (writeRest 0 (R.DMA_CTRL_ENABLE.at [7]).addr 33 done),
      after (exec (.dmaDisable 7 0) s) (fun t => t.get (R.DMA_CTRL_ENABLE.at [7]) == 0),
      hostLinkReady s && after (exec (.dmaDescriptorStart 7 raw0 0) s) (fun t => (t.dma 7).desc == some desc0 &&
        t.get (R.DMA_STATUS_BUSY.at [7]) == 1 && t.out == [.hostRead 0 (dmaDescAddr s 7) 32] && dmaDescAddr s 7 == 15 * 32),
      after (exec (.dmaDescriptorStart 7 (setNth raw0 13 1) 0) s) (ends 1),
      after (exec (.dmaDescriptorStart 7 raw0 1) s) (ends 2), after (exec (.dmaDescriptorStart 7 raw0 2) s) (ends 3),
      after (exec (.dmaTransferComplete 7) done) (fun t => t.get (R.DMA_STATUS_LAST_CODE.at [7]) == 0 && (t.dma 7).desc == none &&
        t.out == [.hostWrite 0 (dmaDescAddr done 7 + 24) [0, 0, 0, 0, 0, 0, 0, 128] false] &&
        t.get (R.DMA_STATUS_HALTED.at [7]) == 0),
      after (exec (.dmaTransferComplete 7) bad) (fun t => t.get (R.DMA_STATUS_LAST_CODE.at [7]) == 5 &&
        t.get (R.DMA_STATUS_HALTED.at [7]) == 0)]) = List.replicate 13 true := by decide +kernel

theorem test_dma_rounds :
    (let s := engine7.setDma 7 { desc := some desc0 }
     let h := engine7.setDma 7 { desc := some { desc0 with toHost := true } }
     let r := (engine7.setDma 7 { desc := some desc0, burst := 64, asked := 64 }).setReads [(7, 64)]
     let data := List.replicate 80 5
     let wins := fun (s : State) b => arbitrate ((List.range 72).map (waitsFor s b)) (fun r => effPriority (requesterPrio s r)
        (s.get R.GLB_DMA_ARB_AGE_ROUNDS) (KMap.get 0 s.hif.toDevice.lost r)) s.hif.toDevice.last == some 7
     [wins s false && wins h true && hostLinkReady s,
      after (exec (.dmaArbitrationRound false) s) (fun t => t.hif.toDevice.busy == some 7 && (t.dma 7).burst == 64 &&
        t.out == [.hostRead 0 0x1000 64] && KMap.get 0 t.hif.reads 7 == 64),
      after (exec (.dmaArbitrationRound true) h) (fun t => t.hif.toHost.busy == some 7 &&
        (t.slice 0).hostq == [⟨.dma 7, 0x20, 64, false, [], 0, []⟩]),
      gives (exec (.hostReadCompletion ⟨7, [1]⟩ 0 data) s) (aerReport 0 "Unexpected Completion" [1] s),
      gives (exec (.completionTimeout 7) s) s,
      after (exec (.hostReadCompletion ⟨7, []⟩ 0 data) r) (fun t => KMap.get 0 t.hif.reads 7 == 0 && (t.dma 7).burst == 0 &&
        (t.slice 0).hostq == [⟨.dma 7, 0x20, 64, true, List.replicate 64 5, 0, []⟩]),
      after (exec (.completionTimeout 7) r) (fun t => t.get (R.DMA_STATUS_LAST_CODE.at [7]) == 2 &&
        t.get (R.DMA_STATUS_HALTED.at [7]) == 1)]) = List.replicate 7 true := by decide +kernel

theorem test_host_slice_service :
    (let w : HostAcc := ⟨.bar2 4 [], 2 ^ 29 - 64, 32, true, List.replicate 32 9, 0, []⟩
     let r : HostAcc := ⟨.bar2 4 [], 2 ^ 29 - 32, 32, false, [], 0, []⟩
     let st := fun a => (mk [0, 1, 6] []).modSlice 63 (fun v => { v with hostq := [a] })
     let dead := ((st r).set (R.SLC_REGION_VALID.at [63, 0]) 1).set (R.SLC_REGION_LAYER_MASK.at [63, 0]) 255
     let dead := (dead.set (R.SLC_REGION_BANK_MASK.at [63, 0]) 255).set (R.SLC_REGION_LAST_64K.at [63, 0]) 127
     let dead := dead.set (R.SLC_REGION_HOST_RD.at [63, 0]) 0
     let wet := { ((st w).set R.LHT_FRAME_CFG_D_BASE 1) with frame := { running := true }, refresh := { selfTimed := [] }, image := some { image0 with parts := [⟨0, [63], [], []⟩] } }
     let wet := ((wet.set (R.FRV_ARCH_STATE_INSTALLED.at [0]) 1).modArch 0 (fun r => { r with frame := .wet })).set R.LHT_FRAME_CFG_PERIOD_US 10
     let wet := wet.set R.PWR_CLK_FREQ_ISLE_MHZ 1000
     let open_ := wet.modIsle 63 (fun v => { v with hostInts := [(100, 200)] })
     [nextAccess (st w) 63 0 == some 0 && serviceLimit (st w) 63 0 == some none && !hostRefused (st w) 63 w.off w.len true &&
        after (exec (.hostSliceAccess 63 0) (st w)) (fun t => (t.slice 63).hostq == [] &&
          (storedWord t 63 (2 ^ 29 - 64)).take 32 == List.replicate 32 9 &&
          t.stored == (writeWord .host 63 w.off w.data false (st w)).stored),
      !hostRefused (st r) 63 r.off 32 false && after (exec (.hostSliceAccess 63 0) (st r)) (fun t =>
        t.out == [.completion 4 0 (List.replicate 32 0) false] && (t.slice 63).hostq == []),
      hostRefused dead 63 r.off 32 false && after (exec (.hostSliceAccess 63 0) dead) (fun t =>
        t.out == [.completion 4 4 [] false] && (t.slice 63).hostq == []),
      serviceLimit open_ 63 100 == some (some 200) && after (exec (.hostSliceAccess 63 100) open_) (fun t => (t.slice 63).hostq == [] &&
        (t.slice 63).portFree == 101),
      serviceLimit open_ 63 200 == none && gives (exec (.hostSliceAccess 63 200) open_) open_,
      serviceLimit wet 63 100 == none && gives (exec (.hostSliceAccess 63 100) wet) wet]) = List.replicate 6 true := by decide +kernel

theorem test_function_resets :
    (let s := mk [0, 1] [(R.BOL_WAIT_CTRL_ARM.at [191], 1), (R.BOL_WAIT_CTRL_ARM.at [255], 1), (R.BOL_WAIT_CTRL_ARM.at [0], 1),
       (R.GLB_HOSTVIEW_VIEW, 1), (R.DMA_CTRL_ENABLE.at [7], 1)]
     let s := { s with hif := { s.hif with vfs := 16 } }
     let arm := fun (t : State) w => t.get (R.BOL_WAIT_CTRL_ARM.at [w])
     let m := { s with hif := { s.hif with msix := [(16 * 4096 + 4092, 7), (16 * 4096 + 4095, 0)] } }
     [after (exec (.vfFlr 16) m) (fun t => arm t 191 == 0 && arm t 255 == 1 && msixWord t 16 1023 0 == 0 && msixWord t 16 1023 3 == 1),
      after (exec (.vfFlr 17) s) (fun t => arm t 255 == 0), after (exec (.vfFlr 0) s) (fun t => arm t 0 == 0),
      after (exec .vfDisable s) (fun t => arm t 191 == 0 && arm t 0 == 1 && t.hif.vfs == 0),
      gives (exec (.registerWrite 0 vfControl 4 5) (mk [0, 1] [])) { (mk [0, 1] []) with hif := { vfs := 5 } }]) = List.replicate 5 true := by decide +kernel

theorem test_link_loss :
    (let s := mk [0, 1] [(R.BOL_WAIT_CTRL_ARM.at [191], 1), (R.BOL_WAIT_CTRL_ARM.at [255], 1), (R.BOL_WAIT_CTRL_ARM.at [0], 1),
       (R.GLB_HOSTVIEW_VIEW, 1), (R.DMA_CTRL_ENABLE.at [7], 1)]
     let s := { s with hif := { s.hif with vfs := 16 } }
     let h := { (setBollard 9 5 s) with hif := { s.hif with held := [⟨.bollardAdd ⟨0, false⟩ 9 1, [4]⟩] } }
     let h := h.modSlice 1 (fun v => { v with hostq := [⟨.bar2 4 [], 0, 1, true, [3], 0, []⟩] })
     [after (exec .pfFlr s) (fun t => t.get R.GLB_HOSTVIEW_VIEW == 0 && t.get (R.DMA_CTRL_ENABLE.at [7]) == 0 && t.hif.vfs == 0),
      after (exec (.d3hotEntry 3) s) (fun t => t.hif.d3hot == [3]),
      gives (exec (.d3hotExit 3) { s with hif := { s.hif with d3hot := [3, 5] } }) { s with hif := { s.hif with d3hot := [5] } },
      after (exec .dataLinkDown h) (fun t => t.get (R.DMA_CTRL_ENABLE.at [7]) == 0 && t.hif.held == [] && (t.slice 1).hostq == [] &&
        bollard t 9 == 5)]) = List.replicate 4 true := by decide +kernel

/-! Schedule instructions: isle 0 in RUN in a wet frame, at one word, with descriptors and lagoon bytes. -/

/-- A descriptor: KIND, ESIZE, rows, columns, base. -/
def desc (kind esize rows cols base : Nat) : Nat :=
  kind + esize * 8 + (rows - 1) * 2 ^ 16 + base * 2 ^ 32 + base * 2 ^ 64 + (cols - 1) * 2 ^ 96

def running (word : Nat) (descs : List Nat) (bytes : List (Nat × List Nat)) : State :=
  let s := withImage slotImage (mk [0, 1, 6, 10, 15] [(R.LHT_RDV_CFG_RDV_PERIOD, 1), (R.LHT_STATUS_STATE, 5)])
  let s := bytes.foldl (fun t b => lagoonWrite 0 b.1 b.2 t) s
  let s := s.modIsle 0 (fun v => { v with state := .run, program := [word], descs := descs })
  { s.modArch 0 (fun r => { r with frame := .wet }) with frame := { running := true, rdv := true } }

/-- A word of an opcode, with descriptors 0, 1, 2, 3 in its four fields. -/
def word (op rest : Nat) : Nat := op * 2 ^ 92 + rest + 1 * 2 ^ 8 + 2 * 2 ^ 16 + 3 * 2 ^ 24

/-- Whether a word launches and runs at isle 0. -/
def runsAt (op : Nat) (s : State) : Bool := (nextLaunch s 0 op).any (fun l => launchRuns s l)

def peek (s : State) (a n : Nat) : List Nat := lagoonRead s 0 a n

/-- What holds once isle 0 has done what it has due by cycle n. -/
def landed (o : Result) (n : Nat) (p : State → Bool) : Bool := after o (fun t => p (land 0 n t))

/-- Whether a launch changes no stored byte and no register, but moves the sequencer. -/
def launchOnly (o : Result) (s : State) : Bool :=
  after o (fun t => t.lagoon == s.lagoon && t.stored == s.stored && t.regs == s.regs && (t.isle 0).pc == 1)

theorem test_control_words :
    (let s := running 0 [] []
     let l := running (0x01 * 2 ^ 92 + 2 + 5 * 2 ^ 56 + 65535 * 2 ^ 40) [] []
     [(nextLaunch s 0 0).isSome && after (exec (.nop 0) s) (fun t => (t.isle 0).pc == 1 && t.regs == s.regs),
      (nextLaunch l 0 1).isSome && after (exec (.loop 0) l) (fun t => (t.isle 0).loops == [⟨1, 3, 5, 65536, 0⟩])]) =
    List.replicate 2 true := by decide +kernel

/-- A pass on one row of 32 and a block of 32 columns, all zero but A's and B's first element: A at 0x2000, B at 0x3000, C at the
lagoon's end; int8, COMMIT, INIT = ZERO. -/
def passState (op a b : Nat) : State :=
  running (word op (2 ^ 73 + 2 ^ 72 + 2 ^ 64 + 2 ^ 80)) [desc 0 1 1 32 0x2000, desc 0 1 32 32 0x3000, desc 0 1 1 32 0xFFFF0]
    [(0x2000, [a]), (0x3000, [b])]

theorem test_array_passes :
    (let m := passState 0x10 2 0xFF
     let keep := (running (word 0x10 (2 ^ 73 + 2 ^ 72 + 2 ^ 65 + 2 ^ 80)) [desc 0 1 1 32 0x2000, desc 0 1 32 32 0x3000, desc 0 1 1 32 0xFFFF0]
       [(0x2000, [2]), (0x3000, [0xFF])]).modIsle 0 (fun v => { v with outBuf := { v.outBuf with accs := 10 :: List.replicate 39 7 } })
     let strm := { m with lagoonErr := [(0x2000 / 8, 3)] }
     let stat := { m with lagoonErr := [(0x3000 / 8, 3)] }
     [runsAt 0x10 m && launchOnly (exec (.mac 0) m) m && after (exec (.mac 0) m) (fun t => (t.isle 0).counts.passes == 1),
      landed (exec (.mac 0) m) 48 (fun t => peek t 0xFFFF0 1 == [0]) &&
        landed (exec (.mac 0) m) 49 (fun t => peek t 0xFFFF0 3 == [0xFE, 0, 0] && (t.isle 0).outBuf.accs.length == 32),
      landed (exec (.l1 0) (passState 0x11 2 0xFF)) 49 (fun t => peek t 0xFFFF0 2 == [3, 2]),
      landed (exec (.l2sq 0) (passState 0x12 2 0xFF)) 49 (fun t => peek t 0xFFFF0 2 == [9, 4]),
      landed (exec (.max 0) (passState 0x13 2 0xFF)) 49 (fun t => peek t 0xFFFF0 2 == [1, 2]),
      landed (exec (.min 0) (passState 0x14 2 0xFF)) 49 (fun t => peek t 0xFFFF0 1 == [0]),
      landed (exec (.mac 0) keep) 49 (fun t => (t.isle 0).outBuf.accs == 8 :: List.replicate 39 7 && t.lagoon == keep.lagoon),
      runsAt 0x10 strm && landed (exec (.mac 0) strm) 49 (fun t =>
        (t.arch 0).voidDue == some (16, 0) && t.lagoon == strm.lagoon && (t.isle 0).pass.any (fun p => p.poisonAt == some 16)),
      runsAt 0x10 stat && landed (exec (.mac 0) stat) 49 (fun t =>
        (t.arch 0).voidDue == some (0, 0) && t.lagoon == stat.lagoon)]) = List.replicate 9 true := by decide +kernel

theorem test_integer_mac :
    (let p := passWord 0x10 (2 ^ 73 + 2 ^ 72)
     [intBlock p 2147483646 [(1, 1)] == (2147483647, false), intBlock p 2147483647 [(1, 1)] == (2147483647, true),
      intBlock p (-2147483648) [(1, 255)] == (-2147483648, true), intBlock p (-2147483647) [(1, 255)] == (-2147483648, false)]) =
    List.replicate 4 true := by decide +kernel

/-- A vector instruction on one int8 element: S1 = 5 at 0x2000, S2 = 0x7F at 0x2001, S3 = 1 at 0x2002, D at 0xFFFFF. -/
def vecState (op rest : Nat) : State :=
  running (word op (rest + 2 ^ 78)) [desc 0 1 1 1 0xFFFFF, desc 0 1 1 1 0x2000, desc 0 1 1 1 0x2001, desc 0 1 1 1 0x2002]
    [(0x2000, [5, 0x7F, 1])]

def vecGives (c : Instr) (op rest v : Nat) : Bool :=
  let s := vecState op rest
  runsAt op s && launchOnly (exec c s) s && after (exec c s) (fun t => (t.isle 0).counts.launched == 1) &&
    landed (exec c s) (vecDepth op (vecWord (rest + 2 ^ 78)).func 1 + 1) (fun t => peek t 0xFFFFF 1 == [v] && peek t 0x2000 3 == [5, 0x7F, 1])

theorem test_vector : [vecGives (.vadd 0) 0x20 0 127, vecGives (.vsub 0) 0x21 0 0x86, vecGives (.vmul 0) 0x22 0 127,
    vecGives (.vfma 0) 0x23 0 127, vecGives (.vmax 0) 0x24 0 127, vecGives (.vmin 0) 0x25 0 5, vecGives (.vcvt 0) 0x26 0 5,
    vecGives (.vfn 0) 0x27 (7 * 2 ^ 81) 0xFB, vecGives (.vrsum 0) 0x28 0 5, vecGives (.vrmax 0) 0x29 0 5,
    vecGives (.vsel 0) 0x2A 0 0x7F, vecGives (.vmov 0) 0x2B 0 5] = List.replicate 12 true := by decide +kernel

theorem test_sieve_runs : [
    runsAt 0x30 (vecState 0x30 0) && launchOnly (exec (.sargmax 0) (vecState 0x30 0)) (vecState 0x30 0),
    runsAt 0x31 (vecState 0x31 0) && launchOnly (exec (.sboxdec 0) (vecState 0x31 0)) (vecState 0x31 0),
    runsAt 0x32 (vecState 0x32 0) && launchOnly (exec (.snms 0) (vecState 0x32 0)) (vecState 0x32 0)] =
    List.replicate 3 true := by decide +kernel

/-- LIFT and LOWER of one row between the slice offset 0x1FFFFFE0 and the lagoon. -/
def moveState (op rest n : Nat) : State :=
  let slice := desc 1 1 1 n 0x1FFFFFE0
  let lagoon := desc 0 1 1 n 0xFFF00
  storeBare .host 0 0x1FFFFFE0 data32 false
    (running (op * 2 ^ 92 + rest + 1 * 2 ^ 8) (if op = 0x40 then [slice, lagoon] else [lagoon, slice]) [(0xFFF00, [9, 8, 7])])

theorem test_lift_lower_merge :
    (let late : MergeEntry := ⟨0, 1, data32, 44, none, false⟩
     let e : MergeEntry := ⟨0x1FFFFFE0, fullMask, data32, 90, some 91, false⟩
     let m := ((running 0 [] []).set R.LHT_FRAME_CFG_D_BASE 1).modSlice 0 (fun v => { v with merge := [late, e] })
     let busy := m.modSlice 0 (fun v => { v with portFree := 200 })
     [runsAt 0x40 (moveState 0x40 0 32) && launchOnly (exec (.lift 0) (moveState 0x40 0 32)) (moveState 0x40 0 32) &&
        landed (exec (.lift 0) (moveState 0x40 0 32)) 1 (fun t => peek t 0xFFF00 32 == data32),
      runsAt 0x41 (moveState 0x41 0 3) && launchOnly (exec (.lower 0) (moveState 0x41 0 3)) (moveState 0x41 0 3) &&
        landed (exec (.lower 0) (moveState 0x41 0 3)) 19 (fun t => (storedWord t 0 0x1FFFFFE0).take 4 == [9, 8, 7, nth data32 3 0]),
      landed (exec (.lower 0) (moveState 0x41 (2 ^ 16) 3)) 1000 (fun t => t.stored == (moveState 0x41 0 3).stored &&
        (t.slice 0).merge.map (fun e => (e.word, e.mask, e.first)) == [(0x1FFFFFE0, 7, 0)]),
      mergeRuns m 0 && after (exec (.mergeEntryTimeout ⟨0, 299⟩) m) (fun t => (t.slice 0).merge.map (fun e => e.trig) == [none, some 91]) &&
        after (exec (.mergeEntryTimeout ⟨0, 300⟩) m) (fun t => (t.slice 0).merge.map (fun e => e.trig) == [some 300, some 91]),
      nextMerge 0 91 m == some e && commitFits m 0 91 1 && after (exec (.mergeCommit ⟨0, 91⟩) m) (fun t =>
        (t.slice 0).merge == [late] && (t.slice 0).lastCommit == 92 && (storedWord t 0 0x1FFFFFE0).take 32 == data32),
      nextMerge 0 90 m == none && gives (exec (.mergeCommit ⟨0, 90⟩) m) m && !commitFits busy 0 91 1 &&
        gives (exec (.mergeCommit ⟨0, 91⟩) busy) busy]) = List.replicate 6 true := by decide +kernel

set_option maxRecDepth 100000 in
theorem test_link_unit :
    (let d := desc 0 1 1 4 0xFFFFC
     let b := [(0xFFFFC, [1, 2, 3, 4])]
     let send := running (0x50 * 2 ^ 92 + 4095 * 2 ^ 20) [d] b
     let recv := (running (0x60 * 2 ^ 92 + 4095 * 2 ^ 20) [d] b).modArch 0 (fun r => { r with transfers := [(4095, [9, 8, 7, 6])] })
     let down := running (0x51 * 2 ^ 92 + 1 * 2 ^ 36 + 7 * 2 ^ 33) [d] b
     let hs := down.set (R.HAR_STATUS_STATE.at [7]) 3
     let hr := ((running (0x61 * 2 ^ 92 + 4095 * 2 ^ 36 + 7 * 2 ^ 33) [d] b).set (R.HAR_STATUS_STATE.at [7]) 3).modPort 7 (fun v =>
       { v with rx := [(rxKey 4095 0, ⟨0, 77 :: List.replicate 239 0⟩)] })
     let be := running (0x80 * 2 ^ 92 + 4095 * 2 ^ 16 + 65535) [] []
     [runsAt 0x50 send && after (exec (.csend 0) send) (fun t => (t.arch 0).transfers == [(4095, [1, 2, 3, 4])]),
      runsAt 0x60 recv && after (exec (.crecv 0) recv) (fun t => (t.arch 0).transfers == [] && t.lagoon == recv.lagoon) &&
        landed (exec (.crecv 0) recv) 1 (fun t => peek t 0xFFFFC 4 == [9, 8, 7, 6]),
      runsAt 0x51 hs && after (exec (.hsend 0) hs) (fun t => KMap.get [] (t.port 7).tx 1 == [1, 2, 3, 4]),
      runsAt 0x51 down && after (exec (.hsend 0) down) (fun t => t.ports == down.ports && (t.isle 0).pc == 1),
      runsAt 0x61 hr && (slotOf hr 7 4095).isSome && after (exec (.hrecv 0) hr) (fun t => rxOf t 7 4095 != [] && (t.isle 0).pc == 1) &&
        landed (exec (.hrecv 0) hr) 97 (fun t => rxOf t 7 4095 == [] && peek t 0xFFFFC 1 == [77]),
      runsAt 0x80 be && after (exec (.bend 0) be) (fun t => (t.arch 0).bends == [(4095, 65535)] && bollard t 4095 == 0)]) =
    List.replicate 6 true := by decide +kernel

/-! Near-bank units. -/

def cmd (op : Nat) (host : Bool) : NbuCmd :=
  { op := op, layers := 128, banks := 128, imm := 0, baseWord := 0, words := 1, arg := List.replicate 32 1, resEn := false, host := host }
/-- One region over the whole slice of isle 0, open. -/
def opened (s : State) : State :=
  let s := ((s.set (R.SLC_REGION_VALID.at [0, 0]) 1).set (R.SLC_REGION_KIND.at [0, 0]) 1).set (R.SLC_REGION_LAST_64K.at [0, 0]) 127
  (s.set (R.SLC_REGION_LAYER_MASK.at [0, 0]) 255).set (R.SLC_REGION_BANK_MASK.at [0, 0]) 255

def nbuRun (c : NbuCmd) (worked : Bool) : NbuRun :=
  { cmd := c, dropped := false, absent := false, records := [], sent := 0, badRead := false, worked := worked, bankEnd := 0,
    resultEnd := 0, result := none }
def nbuState (c : NbuCmd) (worked : Bool) : State :=
  (opened (mk [0, 1, 6, 10] [])).modSlice 0 (fun v => { v with nbu := [nbuRun c worked] })
def worksOn (c : Instr) (op : Nat) : Bool :=
  after (exec c (nbuState (cmd op false) false)) (fun t => (t.slice 0).nbu.any (fun r => r.worked && r.done == none))

set_option maxRecDepth 100000 in
theorem test_nbu_operations : [
    after (exec (.nbuFill 0 9) (nbuState (cmd 1 false) false)) (fun t => (t.slice 0).nbu.any (fun r => r.worked) &&
      (storedWord t 0 (7 * 2 ^ 26 + 7 * 2 ^ 23)).take 32 == List.replicate 32 1),
    worksOn (.nbuCopy 0 9) 2, worksOn (.nbuAcc 0 9) 3, worksOn (.nbuAxpby 0 9) 4, worksOn (.nbuAdamw 0 9) 5,
    worksOn (.nbuSumsq 0 9) 6] = List.replicate 6 true := by decide +kernel

set_option maxRecDepth 100000 in
theorem test_ferry_and_host_commands :
    (let f := running (0x70 * 2 ^ 92 + 2 * 2 ^ 72 + 2 ^ 64 + 2 ^ 56 + 2 ^ 81) [desc 1 1 1 32 0] []
     let skip := f.modArch 0 (fun r => { r with skip := [(0, 0, [])] })
     let q := (mk [0, 1, 6, 10] []).modIsle 0 (fun v => { v with state := .idle })
     let wait := fun c => q.modSlice 0 (fun v => { v with hostCmd := some c })
     let res := (nbuState (cmd 2 false) true).modSlice 0 (fun v => { v with
       nbu := [{ nbuRun (cmd 2 false) true with records := [1], resultEnd := 40, result := some ([64], 8) }] })
     let res := withImage slotImage res
     [runsAt 0x70 f && after (exec (.ferry 0 3) f) (fun t => (t.slice 0).nbu.any (fun r => r.dropped && !r.worked && !r.absent) &&
        t.get (R.NBU_ERR_BEAT_ERR.at [0, 0]) == 3),
      runsAt 0x70 skip && after (exec (.ferry 0 0) skip) (fun t => (t.slice 0).nbu == [] && (t.isle 0).pc == 1),
      after (exec (.nbuOperationEnd 0 []) res) (fun t => (t.slice 0).nbu == [] &&
        (t.isle 0).flight == [{ due := 40, act := .rows [(64, [1, 0, 0, 0, 0, 0, 0, 0])] }]),
      after (exec (.nbuOperationEnd 0 []) (nbuState (cmd 2 true) true)) (fun t =>
        t.get (R.NBU_HSTATUS_RESULT.at [0, 0]) == 1 && (t.slice 0).nbu == []),
      after (exec (.hostNbuCommand 0 6 1 1 0) q) (fun t => t.get (R.NBU_HSTATUS_BUSY.at [0, 0]) == 1 &&
        (t.slice 0).hostCmd.any (fun c => c.op == 6 && c.host)),
      after (exec (.hostNbuCommand 0 6 1 1 0) (q.set (R.NBU_HSTATUS_BUSY.at [0, 0]) 1)) (fun t =>
        t.get (R.NBU_HSTATUS_OVERRUN.at [0, 0]) == 1),
      !nbuFormatOk (cmd 0 true) && after (exec (.hostNbuCommandStart 0 0 0) (wait (cmd 0 true))) (fun t =>
        t.get (R.NBU_HSTATUS_RESULT.at [0, 0]) == 2 && (t.slice 0).hostCmd == none)]) = List.replicate 7 true := by decide +kernel

set_option maxRecDepth 100000 in
theorem test_ferry_bus :
    (let q := (mk [0, 1, 6, 10] []).modIsle 0 (fun v => { v with state := .idle })
     let wait := fun c => q.modSlice 0 (fun v => { v with hostCmd := some c })
     let ready := opened (wait (cmd 6 true))
     let won := ready.modSlice 0 (fun v => { v with hostGrant := some 5 })
     let long := withImage image0 ready
     let taken := ready.modSlice 0 (fun v => { v with busFree := 6 })
     let wet := withImage slotImage (((ready.modIsle 0 (fun v => { v with state := .idle })).modArch 0 (fun r => { r with frame := .wet })).modSlice 0
       (fun v => { v with reserved := [(20, 30)] }))
     let sealed := wait (cmd 6 true)
     [nbuFormatOk (cmd 6 true) && !nbuAllOpen sealed 0 (cmd 6 true) && after (exec (.hostNbuCommandStart 0 5 0) sealed) (fun t =>
        t.get (R.NBU_HSTATUS_RESULT.at [0, 0]) == 3 && (t.slice 0).hostCmd == none),
      nbuAllOpen long 0 (cmd 6 true) && decide (frameCycles long < (cmd 6 true).hostSpan) &&
        after (exec (.hostNbuCommandStart 0 5 0) long) (fun t => t.get (R.NBU_HSTATUS_RESULT.at [0, 0]) == 4),
      hostCmdFits won 0 5 && after (exec (.hostNbuCommandStart 0 5 0) won) (fun t =>
        (t.slice 0).nbu.any (fun r => r.cmd == .ofBeats (cmd 6 true).beats) && (t.slice 0).hostCmd == none),
      gives (exec (.hostNbuCommandStart 0 6 0) won) won,
      hostBeats ready 0 5 == 10 && burstFits ready 0 5 10 && after (exec (.ferryArbitrationRound 0 5 0 0) ready) (fun t =>
        (t.slice 0).hostGrant == some 5 && (t.slice 0).busFree == 5 + burstCycles 10 && (t.slice 0).ferryLast == 0),
      hostBeats taken 0 5 == 10 && !burstFits taken 0 5 10 && gives (exec (.ferryArbitrationRound 0 5 0 0) taken) taken,
      hostBeats wet 0 5 == 10 && !burstFits wet 0 5 10 && gives (exec (.ferryArbitrationRound 0 5 0 0) wet) wet]) =
    List.replicate 7 true := by decide +kernel

/-! Void frames and isle states. -/

theorem test_void_frames :
    (let s := running 0 [] [(0x9000, [5])]
     let due := s.modArch 0 (fun r => { r with voidDue := some (53, 0), transfers := [(1, [])], bends := [(1, 1)] })
     let merge := due.modSlice 0 (fun v => { v with merge := [⟨0, 1, data32, 0, none, false⟩] })
     let past := due.modArch 0 (fun r => { r with voidAt := some 5 })
     let pass := s.modIsle 0 (fun v => { v with pass := some ⟨0, 10, true, none⟩ })
     let r := (mk [] []).modIsle 255 (fun v => { v with ramping := some (100, 9) })
     [archOf s 0 == some 0 && inFrame s 0 && gives (exec (.uncorrectableReadDetect ⟨0, 7, false⟩) s) (s.modArch 0 (fun r => { r with voidDue := some (7, 0) })),
      after (exec (.uncorrectableReadDetect ⟨0, 7, true⟩) pass) (fun t => (t.arch 0).voidDue == some (7, 0) &&
        (t.isle 0).pass == some ⟨0, 10, true, some 7⟩),
      after (exec (.uncorrectableReadDetect ⟨0, 54, false⟩) due) (fun t => (t.arch 0).voidDue == some (53, 0)) &&
        after (exec (.uncorrectableReadDetect ⟨0, 52, false⟩) due) (fun t => (t.arch 0).voidDue == some (52, 0)),
      after (exec (.voidPoint 0 77) merge) (fun t => (t.arch 0).voidAt == some 77 && (t.arch 0).transfers == [] &&
        (t.arch 0).bends == [] && (t.slice 0).merge == [] && (t.isle 0).outcome == 2 && (t.isle 0).counts.voids == 1 &&
        (t.isle 0).undefined.isSome && t.lagoon == []),
      !inFrame past 0 && gives (exec (.voidPoint 0 77) past) past,
      rampEnd (100, 9) == 106 && gives (exec (.arrayRampDownEnd ⟨255, 105⟩) r) r &&
        after (exec (.arrayRampDownEnd ⟨255, 106⟩) r) (fun t => (t.isle 255).ramping == none),
      (let u := (lagoonWrite 1 0x2000 [5] (mk [] [])).modIsle 1 (fun v => { v with residentBytes := 1 })
       (lagoonGet (voidIsle 9 1 0 1 u) 1 0x2000).toNat == 5 && ((voidIsle 9 1 0 1 u).isle 1).voidCause == 2),
      (let v := voidIsle 43 1 0 0 pass
       (v.isle 0).abortCycle == 43 && (v.isle 0).abortPhase == 2 && (v.isle 0).ramping == some (43, 28) && (v.isle 0).pass == none)]) =
    List.replicate 8 true := by decide +kernel

theorem test_open_working_area :
    (let s := (lagoonForget 1 (lagoonWrite 1 0x2000 [5, 6] (mk [] []))).modIsle 1 (fun v => v)
     let w := lagoonWrite 1 0xFFFFF [0, 0] s
     [Memory.wf s && s.lagoon == [], Memory.wf w && w.lagoon.length == 1 && (lagoonGet w 1 0xFFFFF).toNat == 0,
      (lagoonFill 1 w).lagoon == [] && (lagoonGet (lagoonFill 1 w) 1 0xFFFFF).toNat == 0]) = List.replicate 3 true := by decide +kernel

theorem test_isle_requests :
    (let s := mk [0, 1, 5, 9] []
     let live := { s with frame := { running := true } }
     let at_ := fun (st : IsleState) (u : State) => u.modIsle 255 (fun v => { v with state := st })
     let pair := withImage { image0 with parts := [⟨31, [254, 255], [], []⟩] } s
     let both := fun (st : IsleState) => (at_ st pair).modIsle 254 (fun v => { v with state := st })
     [after (exec (.quiesce 255) (at_ .run live)) (fun t => t.requests == [255] && isleState t 255 == .run &&
        t.get (R.ISL_STATE_REQ_REQ.at [255]) == 1),
      after (exec (.on 255) live) (fun t => t.get (R.ISL_STATE_REQ_REQ.at [255]) == 4),
      after (exec (.quiesce 255) (at_ .run s)) (fun t => isleState t 255 == .quiesced),
      after (exec (.resume 255) (at_ .quiesced s)) (fun t => isleState t 255 == .run),
      after (exec (.quiesce 255) (both .run)) (fun t => isleState t 255 == .quiesced && isleState t 254 == .quiesced),
      after (exec (.resume 254) (both .quiesced)) (fun t => isleState t 255 == .run && isleState t 254 == .run),
      after (exec (.on 255) s) (fun t => isleState t 255 == .held && (t.isle 255).filling),
      after (exec (.off 255 3) (at_ .idle s)) (fun t => isleState t 255 == .off),
      after (exec (.off 255 3) s) (fun t => t.get (R.ISL_STATE_REQ_REQ_REFUSED.at [255]) == 1),
      (let h := (lagoonWrite 255 0xFFFFF [9] (at_ .held s)).modIsle 255 (fun v => { v with filling := true })
       h.lagoon.rising && after (exec (.lagoonFillEnd 255) h) (fun t => isleState t 255 == .idle && t.lagoon == [] &&
         t.get (R.ISL_EPOCH_LIVE_EPOCH.at [255]) == 1))]) = List.replicate 10 true := by decide +kernel

theorem test_isle_state_read :
    (let s := mk [0, 1] [(R.ISL_STATE_STATE.at [255], 4), (R.ISL_STATE_ARCH.at [255], 31)]
     let stale := s.set (R.ISL_EPOCH_LIVE_EPOCH.at [255]) 1
     let held := { stale with hif := { stale.hif with held := [⟨.hostviewWrite 1, [4]⟩] } }
     [!bit (isleStateWord s 255) 3 && gives (exec (.islStateRead 2040 4) s) (s.emit (.value (4 + 31 * 32))),
      bit (isleStateWord stale 255) 3 && gives (exec (.islStateRead 2040 4) stale)
        ((raiseOnce 0x0D03 255 0 stale).emit (.value (12 + 31 * 32))),
      gives (exec (.islStateRead 2040 1) stale) (stale.emit (.value (12 + 224))),
      gives (exec (.islStateRead 2041 1) stale) (stale.emit (.value 3)),
      gives (exec (.islStateRead 2040 4) held) { held with hif := { held.hif with held := held.hif.held ++ [⟨.islStateRead 2040 4, []⟩] } }]) =
    List.replicate 5 true := by decide +kernel

/-! Background work in the slices. -/

theorem test_refresh_and_windows :
    (let s := { mk [0, 1, 9] [(R.LHT_FRAME_CFG_D_BASE, 1), (R.LHT_FRAME_CFG_PERIOD_US, 5), (R.PWR_CLK_FREQ_ISLE_MHZ, 1000)] with
       frame := { running := true, window := true, lengthNs := 10000 }, refresh := { selfTimed := [] } }
     let last := s.modSlice 255 (fun v => { v with refreshPtr := 16383, slotsFrame := 5 })
     let idle := (mk [9] []).modSlice 255 (fun v => { v with refreshPtr := 16383 })
     [slotsFor s 3 10000 == 6 && slotSpacing s 3 10000 == 790 && slotAt last 255 5 == some (8950, true) && slotAt last 255 6 == none,
      after (exec (.refreshSlot ⟨255, 8950⟩) last) (fun t => (t.slice 255).refreshPtr == 0 && t.regs == last.regs) &&
        gives (exec (.refreshSlot ⟨255, 8949⟩) last) last,
      (let d := s.modSlice 255 (fun v => { v with slotsFrame := 6 }); gives (exec (.refreshSlot ⟨255, 9740⟩) d) d),
      selfTimed idle 3 && after (exec (.selfTimedRefreshSlot 255) idle) (fun t => (t.slice 255).refreshPtr == 0),
      (let w := idle.set (R.SLC_CE_RATE_RATE_WIN_LOG2.at [255]) 3
       let u := w.modSlice 255 (fun v => { v with winCount := 4, winFrames := 7 })
       let v := w.modSlice 255 (fun v => { v with winCount := 4, winFrames := 8 })
       gives (exec (.ceWindowEnd 255 1) u) u &&
         gives (exec (.ceWindowEnd 255 1) v) (w.modSlice 255 (fun v => { v with winCount := 0, winFrames := 0 })))]) =
    List.replicate 5 true := by decide +kernel

theorem test_error_windows :
    (let idle := mk [9] []
     [(let c := (idle.set (R.SLC_CE_RATE_CE_THRESH.at [255]) 4).modSlice 255 (fun v => { v with winCount := 4, winFrames := 2 ^ 31 })
       after (exec (.ceWindowEnd 255 1) c) (fun t => t.get (R.SLC_CE_RATE_CROSSED.at [255]) == 1 && (t.slice 255).winCount == 0)),
      (let c := (idle.set (R.HAR_FEC_RATE_FEC_THRESH.at [7]) 4).modPort 7 (fun v => { v with fecWindow := 4, fecFrames := 2 ^ 31 })
       let few := c.modPort 7 (fun v => { v with fecFrames := 0 })
       after (exec (.fecWindowEnd 7 1) c) (fun t => t.get (R.HAR_FEC_RATE_CROSSED.at [7]) == 1 && (t.port 7).fecWindow == 0) &&
         gives (exec (.fecWindowEnd 7 1) few) few)]) = List.replicate 2 true := by decide +kernel

theorem test_scrubs_and_fills :
    (let s := (mk [0, 1, 9] [(R.SLC_SCRUB_PTR_H.at [255], 2 ^ 19 - 1)]).modSlice 255 (fun v => { v with scrubHigh := true })
     let w := scrubRow (2 ^ 19 - 1) true
     let one := putStored 255 w 0 (setNth (encodeWord data32 w) 4 0) s
     let win := { (mk [0, 1, 9] [(R.LHT_FRAME_CFG_D_BASE, 1), (R.LHT_FRAME_CFG_PERIOD_US, 5), (R.PWR_CLK_FREQ_ISLE_MHZ, 1000)]) with
       frame := { running := true, window := true, lengthNs := 10000 }, refresh := { selfTimed := [] } }
     let up := win.modSlice 255 (fun v => { v with scrubHigh := true })
     let l := ({ mk [0] [] with frame := { running := true, window := true } }).modIsle 255 (fun v =>
       { v with state := .run, residentBytes := 8 })
     let f := (storeBare .host 192 0 data32 false (s.set R.GLB_BOOT_STATE 7)).modSlice 192 (fun v => { v with filling := true })
     [w + 512 == 2 ^ 29 && after (exec (.scrubStep 255 0) one) (fun t => t.get (R.SLC_SCRUB_PTR_H.at [255]) == 0 &&
        t.get (R.SLC_SCRUB_PTR_L.at [255]) == 0 && storedWord t 255 w == encodeWord data32 w && t.get (R.SLC_CE_COUNT_COUNT.at [255]) == 1),
      slotAt win 255 0 == some (5000, false) && scrubHalf win 255 5000 && scrubFits win 255 5000 &&
        after (exec (.scrubStep 255 5000) win) (fun t => t.get (R.SLC_SCRUB_PTR_H.at [255]) == 1 && (t.slice 255).scrubFree == 5048),
      !scrubFits up 255 5760 && gives (exec (.scrubStep 255 5760) up) up,
      gives (exec (.lagoonScrub 255 []) l) l,
      after (exec (.lagoonScrub 255 [(1024, 2 ^ 71)]) l) (fun t => t.lagoonErr == [] && (t.isle 255).counts.lagCe == 1),
      after (exec (.lagoonScrub 255 [(1024, 3)]) l) (fun t => t.lagoonErr == [(255 * 2 ^ 17 + 1024, 3)] && (t.isle 255).counts.lagUe == 1),
      after (exec (.lagoonScrub 255 [(1025, 3)]) l) (fun t => (t.isle 255).counts.lagUe == 0),
      after (exec (.stackFillEnd 3) f) (fun t => !(t.slice 192).filling && t.stored == [])]) = List.replicate 8 true := by decide +kernel

theorem test_keys_and_flip :
    (let d := (List.range 64).map (fun k => k + 1)
     let s := (List.range 16).foldl (fun t w => t.set (R.SLC_KEY_DATA_BYTES.at [255, w]) (leAt d (4 * w) 4)) (mk [0, 1, 9] [])
     let live := ({ s with frame := { running := true } }).modIsle 255 (fun v => { v with state := .run })
     let off := { s with frame := { running := true } }
     [keyData s 255 == d && after (exec (.keyLoad 255 63) s) (fun t => keyOf t 255 63 == some d && keyData t 255 == List.replicate 64 0 &&
        bit (t.get (R.SLC_KEY_STATE_LOADED.at [255])) 63),
      !runsFrames off 255 && after (exec (.keyLoad 255 63) off) (fun t => keyOf t 255 63 == some d),
      runsFrames live 255 && after (exec (.keyLoad 255 63) live) (fun t => (t.slice 255).keyCmd == some (1, 63) && t.get (R.SLC_KEY_CMD_PENDING.at [255]) == 1),
      after (exec (.keyZeroize 255 63) live) (fun t => (t.slice 255).keyCmd == some (2, 63)),
      after (exec (.keyLoad 255 63) (s.modSlice 255 (fun v => { v with keys := [(63, d)] }))) (fun t =>
        t.get (R.SLC_KEY_CMD_REFUSED.at [255]) == 1 && keyOf t 255 63 == some d),
      after (exec (.keyLoad 255 63) (mk [0, 1, 9] [])) (fun t => t.get (R.SLC_KEY_CMD_REFUSED.at [255]) == 1),
      after (exec (.keyZeroize 255 63) (s.modSlice 255 (fun v => { v with keys := [(0, d), (63, d)] }))) (fun t =>
        keyOf t 255 63 == none && keyOf t 255 0 == some d),
      after (exec (.flipArm 255 1) s) (fun t => t.get (R.SLC_FLIP_CTRL_ARM.at [255]) == 1)]) = List.replicate 8 true := by decide +kernel

/-! The image loader and schedules. -/

/-- The bytes of a number, most significant first. -/
def be32 (n : Nat) : List Nat := (le 32 n).reverse
/-- A directory entry (R546). -/
def entry (type off len count : Nat) : List Nat := [type, 0, 0, 0] ++ le 4 off ++ le 4 len ++ le 4 count
/-- A full image for module 7 with one archipelago, of isle 0, laid out by R545 to R568; its key is that of private key 3 and its
signature takes the nonce 5. -/
def imageBody : List Nat :=
  le 4 0x56524546 ++ [1, 0, 0, 0] ++ le 4 800 ++ [9, 7] ++ List.replicate 114 0 ++
  entry 1 272 64 1 ++ entry 2 336 16 1 ++ entry 3 352 144 1 ++ entry 4 496 0 0 ++ entry 5 496 0 0 ++ entry 6 496 0 0 ++
  entry 7 496 128 0 ++ entry 8 624 16 1 ++ entry 9 640 32 1 ++
  le 4 20 ++ [1, 1, 2, 0] ++ le 4 3000 ++ [1, 0, 100, 0] ++ List.replicate 48 0 ++ le 2 500 ++ List.replicate 14 0 ++
  [0, 0, 0, 0, 1] ++ List.replicate 139 0 ++ List.replicate 128 0 ++ 85 :: List.replicate 15 0 ++ 10 :: List.replicate 31 0
def imageKey : List Nat :=
  be32 0x5ecbe4d1a6330a44c8f7ef951d4bf165e6c6b721efada985fb41661bc6e7fd6c ++
  be32 0x8734640c4998ff7e374b06ce1a64a2ecd82ab036384fb83d9a79b127a27d5032
def imageSig : List Nat :=
  be32 0x51590b7a515140d2d784c85608668fdfef8c82fd1f5be52421554a0dc3d033ed ++
  be32 0x4220e3e7378f075533d5f022b6c5a506b3102aeb003119dfd309fede41573de5
def imageBytes : List Nat := imageBody ++ imageKey ++ imageSig
/-- A loader that is checking, on the module whose number is 7 and whose first key slot holds the key's digest. -/
def loading : State :=
  let s := mk [0, 1] [(R.GLB_RACK_MOD_STRAP, 7), (R.FRV_IMG_STATUS_STATE, 1), (R.GLB_FUSE_FMAX_MHZ, 1500)]
  { s with fuses := { s.fuses with keys := be32 0x4977227b955a0c90988fdc01b5623170ab8e313fe064162240d6cf4bdac7e65e :: s.fuses.keys.drop 1 } }
def loads (s : State) : Bool :=
  match checkImage s (some imageBytes) with
  | .ok im => im.wImg == 3000 && im.signer == 0
  | .error _ => false

set_option maxRecDepth 100000 in
theorem test_image_loaded : (loads loading && !loading.frame.running && !meetsRendezvous loading) = true := by decide +kernel

set_option maxRecDepth 100000 in
theorem test_image_staged :
    (let s := { loading with frame := { running := true } }
     [after (exec (.imageCheckEnd (some imageBytes)) s) (fun t => t.staged.isSome && t.image.isNone &&
        t.get R.FRV_IMG_STATUS_STATE == 2 && t.get R.FRV_IMG_STATUS_RESULT == 1)]) = [true] := by decide +kernel

theorem test_image_commands :
    (let s := mk [0, 1] []
     let st := fun n => s.set R.FRV_IMG_STATUS_STATE n
     let im := withImage image0 s
     let keyed := { s with fuses := { s.fuses with keys := [List.replicate 32 1, List.replicate 32 2, [], []] } }
     [after (exec (.imageLoadStart 0) (s.set R.FRV_IMG_ADDR_ADDR (2 ^ 40))) (fun t => t.get R.FRV_IMG_STATUS_STATE == 1 &&
        t.out == [.hostRead 0 (2 ^ 52) 128]),
      gives (exec (.imageLoadStart 0) (st 2)) ((st 2).set R.FRV_IMG_STATUS_OVERRUN 1),
      after (exec (.imageCancel 0) { st 2 with staged := some image0 }) (fun t => t.staged.isNone &&
        t.get R.FRV_IMG_STATUS_STATE == 0 && t.get R.FRV_IMG_STATUS_RESULT == 3),
      gives (exec (.imageCancel 0) (st 1)) (st 1),
      after (exec (.imageCheckEnd none) (st 1)) (fun t => t.get R.FRV_IMG_STATUS_RESULT == 2 && t.get R.FRV_IMG_STATUS_REFUSAL == 1),
      after (exec (.keyRevoke 1) keyed) (fun t => t.fuses.revoked == 1),
      gives (exec (.keyRevoke 1) im) im,
      gives (exec (.keyRevoke 2) { keyed with fuses := { keyed.fuses with revoked := 1 } })
        { keyed with fuses := { keyed.fuses with revoked := 1 } }]) = List.replicate 8 true := by decide +kernel

/-- A package for archipelago 0 of `image0`, by R98 and R99: what stands before its digest and after it. Isle 0, a program of one
NOP, descriptors of zeros, nothing resident. -/
def packageHead : List Nat :=
  le 4 0x48435357 ++ [1, 0, 0, 0] ++ le 2 1 ++ [0, 0] ++ le 4 10000 ++ le 4 0 ++ le 4 0 ++ le 8 8464 ++ (List.range 32).map (fun k => k + 1)
def packageTail : List Nat :=
  le 8 128 ++ List.replicate 24 0 ++
  le 2 0 ++ [0, 0] ++ le 4 1 ++ le 8 256 ++ le 8 272 ++ le 8 256 ++ le 4 0 ++ List.replicate 92 0 ++ List.replicate 8208 0
/-- Its digest: SHA-256 over it with the digest's own bytes zero. -/
def packageDigest : List Nat :=
  (digestBytes (sha256 ((packageHead ++ List.replicate 32 0 ++ packageTail).map (fun x => BitVec.ofNat 8 x)))).map (fun x => x.toNat)
def package0 : List Nat := packageHead ++ (packageDigest ++ packageTail)
def job0 : SchedJob := { arch := 0, addr := 0, image := some image0, digest := (List.range 32).map (fun k => k + 1) }
/-- A state whose loader is at its checks, in a rack whose frames run. -/
def checking : State := { withImage image0 (mk [0, 1] []) with sched := some job0, frame := { running := true } }

theorem packageHead_length : packageHead.length = 64 := by decide +kernel
theorem packageDigest_length : packageDigest.length = 32 := by decide +kernel
theorem package0_length : package0.length = 8464 ∧ leAt package0 0x18 8 = 8464 := by decide +kernel
theorem package0_format : checkFormat (some image0) 0 image0.fore package0 = none := by decide +kernel
theorem package0_matches : pkgMatches job0 package0 = true := by decide +kernel
theorem package0_tables : checkTables image0.fore (otherLaunches checking 0)
    ([false, true].map (fun g => (pkgIsles package0).map (fun p => tableOf image0 p g))) = none := by decide +kernel

theorem package0_digest : pkgDigestOk package0 = true := by
  have h : package0.take 8464 = package0 := List.take_of_length_le (by simp [package0_length])
  have h1 : package0.take 0x40 = packageHead := by
    simp [package0, packageHead_length]
  have h2 : package0.drop 0x40 = packageDigest ++ packageTail := by
    simp [package0, packageHead_length]
  have h3 : package0.drop 0x60 = packageTail := by
    rw [show 0x60 = 0x40 + 0x20 from rfl, ← List.drop_drop, h2]
    simp [packageDigest_length]
  have h4 : (package0.drop 0x40).take 32 = packageDigest := by
    simp [h2, packageDigest_length]
  unfold pkgDigestOk
  simp only [package0_length.2, h, h1, h3, h4]
  exact beq_self_eq_true packageDigest

theorem checkPackage_none {s : State} {j : SchedJob} {d : List Nat} {im : Image} (hi : j.image = some im)
    (h1 : checkFormat (some im) j.arch im.fore d = none) (h2 : pkgDigestOk d = true) (h3 : pkgMatches j d = true)
    (h4 : checkTables im.fore (otherLaunches s j.arch)
      ([false, true].map (fun g => (pkgIsles d).map (fun p => tableOf im p g))) = none) :
    checkPackage s j (some d) = none := by
  have hf : packageFore j d = im.fore := by unfold packageFore; rw [hi]
  show (checkFormat j.image j.arch (packageFore j d) d).orElse _ = none
  rw [hi, hf, h1]
  show checkContents s j d = none
  unfold checkContents
  rw [hi, hf, h2, h3]
  exact h4

/-- A package that passes every check (R100, R101). -/
theorem test_schedule_accepted : checkPackage checking job0 (some package0) = none := by
  apply checkPackage_none (im := image0)
  · exact Eq.refl _
  · exact package0_format
  · exact package0_digest
  · exact package0_matches
  · exact package0_tables

theorem test_schedule_commands :
    (let s := withImage image0 (mk [0, 1] [(R.FRV_ARCH_DIGEST_BYTES.at [31, 0], 9)])
     let busy := s.set R.FRV_SCHED_STATUS_BUSY 1
     let due := { busy with sched := some job0 }
     let p : PkgIsle := ⟨0, [0x1234, 0], [5], List.replicate 32 7, []⟩
     let ins := ({ busy with sched := some { job0 with accepted := some [p], installing := true } }).modIsle 0 (fun v =>
       { v with state := .install })
     [after (exec (.scheduleLoadStart 31) s) (fun t => t.get R.FRV_SCHED_STATUS_BUSY == 1 && t.get R.FRV_SCHED_STATUS_ARCH == 31 &&
        t.sched == some { arch := 31, addr := 0, image := some image0, digest := 9 :: List.replicate 31 0 } && t.out == [.hostRead 0 0 128]),
      after (exec (.scheduleLoadStart 31) busy) (fun t => t.get R.FRV_SCHED_STATUS_OVERRUN == 1 && t.sched.isNone),
      after (exec (.scheduleCheckEnd none) due) (fun t => t.get R.FRV_SCHED_STATUS_RESULT == 2 &&
        t.get R.FRV_SCHED_STATUS_REFUSAL == 1 && t.get R.FRV_SCHED_STATUS_BUSY == 0),
      after (exec (.scheduleCheckEnd none) { busy with sched := some { job0 with touched := true } }) (fun t =>
        t.get R.FRV_SCHED_STATUS_RESULT == 2 && t.get R.FRV_SCHED_STATUS_REFUSAL == 3),
      (ins.isle 0).state == .install && ins.sched.any (fun j => j.installing && j.accepted == some [p]) && islesOf ins 0 == [p.isle]]) =
    List.replicate 5 true := by decide +kernel

/-! Checkpoints. -/

/-- Module 7 with its refuge slots on port 7: slot 3072 to module 9 and slot 3073 from it, 17 lines each. -/
def refuge7 : State :=
  withImage { image0 with slots := [⟨7, 3072, 1 + 9 * 2 ^ 8 + 17 * 2 ^ 64⟩, ⟨7, 3073, 2 + 9 * 2 ^ 8 + 17 * 2 ^ 64⟩] }
    { port7 with doms := (9, { state := .on }) :: port7.doms }
/-- A unit received whole in slot 3073 of port 7. -/
def unitHere (u : CkpUnit) (s : State) : State :=
  s.modPort 7 (fun v => { v with rx := (enum (chunk 5 240 u.bytes)).map (fun x => (rxKey 3073 x.1, ⟨0, x.2⟩)) })
def unit9 (kind : Nat) : CkpUnit := ⟨kind, false, false, false, 6, 255, 63, 8191, 0, 0, 9, 5, 0, []⟩
def withUnit (u : CkpUnit) (s : State) : State := unitHere u s
/-- Module 7 in a checkpoint of generation 6 whose SEAL is sent. -/
def sealed7 : State := (refuge7.set R.CKP_STATUS_STATE 3).set R.CKP_GEN_CURRENT 6

set_option maxRecDepth 100000 in
theorem test_unit_received :
    (let u := { unit9 1 with restore := true, body := List.replicate 1024 0 }
     let s := withUnit u ((refuge7.set R.CKP_CTRL_RESTORE_ACCEPT 1))
     [unitAt s 7 3073 0 == some u && dramOn s 255 && (rxFor u s).isSome && after (exec (.pieceReceive 7 3073 0) s) (fun t =>
        (t.slice 255).hostq.map (fun a => (a.write, a.off, a.len, a.data.length)) == [(true, 2 ^ 29 - 1024, 1024, 1024)] &&
        t.stored == s.stored)]) = [true] := by decide +kernel

set_option maxRecDepth 100000 in
theorem test_unit_refused :
    (let u := { unit9 1 with body := List.replicate 1024 0 }
     let s := withUnit u refuge7
     [unitAt s 7 3073 0 == some u && (rxFor u s).any (fun r => !r.refused) && after (exec (.pieceReceive 7 3073 0) s) (fun t =>
        t.ckp.replies == [(9, CkpUnit.bytes { blankUnit s 5 6 false with count := 6 })])]) = [true] := by decide +kernel

set_option maxRecDepth 100000 in
theorem test_unit_seal :
    (let u := { unit9 2 with body := List.replicate 1024 0 }
     let s := withUnit u (((refuge7.set R.CKP_REFUGE_STAT_OWNED 1).set R.CKP_REFUGE_STAT_PARTNER 9).set R.CKP_REFUGE_STAT_COMMITTED_GEN 6)
     [unitAt s 7 3073 0 == some u && after (exec (.sealReceive 7 3073 0) s) (fun t =>
        t.ckp.replies == [(9, CkpUnit.bytes (blankUnit s 3 6 false))])]) = [true] := by decide +kernel

set_option maxRecDepth 100000 in
theorem test_unit_ack :
    (let u := { unit9 3 with body := List.replicate 1024 0 }
     let s := (withUnit u sealed7).setCkp { full := true, holds := [0] }
     [unitAt s 7 3073 0 == some u && answers s u && after (exec (.ackReceive 7 3073 0 4) (s.set R.CKP_CTRL_FULL_NEXT 1)) (fun t =>
        ckpState t == 0 && t.get R.CKP_GEN_ACKED == 6 && t.get R.CKP_STATUS_LAST == 1 && t.get R.CKP_COUNT_COMMITTED == 1 &&
        t.get R.CKP_CTRL_FULL_NEXT == 0 && t.ckp.holds == [])]) = [true] := by decide +kernel

set_option maxRecDepth 100000 in
theorem test_unit_miss :
    (let u := { unit9 4 with count := 1, body := List.replicate 1024 0 }
     let s := withUnit u sealed7
     [unitAt s 7 3073 0 == some u && answers s u && after (exec (.missReceive 7 3073 0) s) (fun t => ckpState t == 2 &&
        t.get R.CKP_COUNT_RESENT == 1)]) = [true] := by decide +kernel

set_option maxRecDepth 100000 in
theorem test_unit_nak :
    (let u := { unit9 5 with count := 4, body := List.replicate 1024 0 }
     let s := withUnit u sealed7
     [unitAt s 7 3073 0 == some u && answers s u && after (exec (.nakReceive 7 3073 0 4) s) (fun t => ckpState t == 0 &&
        t.get R.CKP_STATUS_LAST == 4 && t.get R.CKP_CTRL_FULL_NEXT == 1)]) = [true] := by decide +kernel

theorem test_checkpoint_control :
    (let s := mk [0, 1, 6, 9] [(R.CKP_CTRL_ENABLE, 1), (R.CKP_GEN_CURRENT, 2 ^ 32 - 1)]
     let run := (withImage image0 s).modIsle 0 (fun v => { v with state := .run })
     let st := fun n => s.set R.CKP_STATUS_STATE n
     let off := s.set R.CKP_CTRL_ENABLE 0
     let held := (st 3).setCkp { waited := 5, holds := [0] }
     [archState run 0 == .run && after (exec (.checkpointRequest 1 4) run) (fun t => ckpState t == 1 && t.get R.CKP_STATUS_CAUSE == 4 &&
        t.get R.CKP_GEN_CURRENT == 0 && t.ckp.holds == [0]),
      after (exec (.checkpointEnable 0 4) off) (fun t => t.get R.CKP_CTRL_ENABLE == 1 && t.get R.CKP_CTRL_FULL_NEXT == 1 &&
        ckpState t == 0),
      after (exec (.checkpointDisable 0 4) (st 1)) (fun t => t.get R.CKP_CTRL_ENABLE == 0 && ckpState t == 0 &&
        t.get R.CKP_STATUS_LAST == 7 && t.get R.CKP_COUNT_ABANDONED == 1),
      after (exec (.clearMaps 1 4) (setMapWord 65535 7 s)) (fun t => t.get (R.CKP_MAP_BITS.at [255, 255]) == 0),
      after (exec (.refugeReset 1 4) ((s.set R.CKP_REFUGE_STAT_OWNED 1).set R.CKP_REFUGE_STAT_COMMITTED_GEN 3)) (fun t =>
        t.get R.CKP_REFUGE_STAT_OWNED == 0 && t.get R.CKP_REFUGE_STAT_COMMITTED_GEN == 0),
      (let o := s.set R.CKP_REFUGE_STAT_OWNED 1; decodes o 0 && domainOn o 0 && ckpState o == 0 && o.flag R.CKP_REFUGE_STAT_OWNED),
      after (exec (.restoreStart 0) s) (fun t => ckpState t == 0), after (exec (.restoreStart 0) (st 4)) (fun t => ckpState t == 4),
      after (exec (.abandonExpiry 4) (held.set R.CKP_CFG_ABANDON_RDV 5)) (fun t => ckpState t == 0 && t.get R.CKP_STATUS_LAST == 2 &&
        t.get R.CKP_COUNT_ABANDONED == 1 && t.ckp.holds == []),
      gives (exec (.abandonExpiry 4) (held.set R.CKP_CFG_ABANDON_RDV 6)) (held.set R.CKP_CFG_ABANDON_RDV 6)]) =
    List.replicate 10 true := by decide +kernel

/-! The keel store. -/

/-- A mounted keel store. -/
def keel1 : State := mk [0, 1] [(R.KEL_STATUS_STATE, 1)]
def hostRec : KeelRecord := ⟨7, 0, 0, [5, 0, 0, 0, 9]⟩

theorem test_keel_records :
    (let top := keel1.set R.KEL_SEQ_NEXT_SEQ (2 ^ 32 - 1)
     let r : KeelRecord := ⟨8, 2 ^ 32 - 1, 0, [1, 2]⟩
     let busy := keel1.set R.KEL_CMD_BUSY 1
     let held := keel1.setKeel { keel1.keel with snapA := { valid := true, gen := 1, body := [r] } }
     [queueBytes (top.keelQueue ++ [r]) == 32 && after (exec (.keelAppend 8 [1, 2]) top) (fun t => t.keelQueue == [r] &&
        t.get R.KEL_SEQ_NEXT_SEQ == 0),
      after (exec .wearRecord keel1) (fun t => t.keel.wear == [0, 3600, 0, 0, 0, 0, 0, 0] && t.keelQueue ==
        [⟨5, 0, 0, List.replicate 8 0 ++ le 8 3600 ++ List.replicate 48 0⟩]),
      after (exec (.keelRead 0) busy) (fun t => t.get R.KEL_CMD_OVERRUN == 1),
      after (exec (.keelHostAppend 0) busy) (fun t => t.get R.KEL_CMD_OVERRUN == 1),
      after (exec (.keelCompact 0) busy) (fun t => t.get R.KEL_CMD_OVERRUN == 1),
      (keelRecords (held.set R.KEL_ARG_SEQ (2 ^ 32 - 1))).find? (fun x => x.seq == 2 ^ 32 - 1) == some r &&
        after (exec (.keelRead 0) (held.set R.KEL_ARG_SEQ (2 ^ 32 - 1))) (fun t => t.keelQueue == [] &&
          t.keel.reading == some (r.bytes, 0) && t.get R.KEL_CMD_BUSY == 1),
      after (exec (.keelRead 0) keel1) (fun t => t.get R.KEL_CMD_RESULT == 1),
      (writeRest 0 0x800018 0 keel1).get R.KEL_CMD_LENGTH == 0 &&
        after (exec (.keelHostAppend 0) keel1) (fun t => t.get R.KEL_CMD_RESULT == 2)]) = List.replicate 8 true := by decide +kernel

/-- The word of KEL_CMD whose LENGTH is 1 and whose KEY is 5. -/
def hostWord : Nat := 2 ^ R.KEL_CMD_LENGTH.lo + 5 * 2 ^ R.KEL_CMD_KEY.lo

theorem test_keel_host_append :
    (let s := keel1.set (R.KEL_WR_BUF_WORD.at [0]) 9
     [(writeRest 0 0x800018 hostWord s).get R.KEL_CMD_LENGTH == 1 && after (exec (.keelHostAppend hostWord) s) (fun t =>
        t.get R.KEL_CMD_BUSY == 1 && t.keelQueue == [hostRec] && t.keel.hostSeq == some 0)]) = [true] := by decide +kernel

theorem test_compaction :
    (let full := keel1.setKeel { keel1.keel with newest := some 1535 }
     let snap : KeelSnap := { valid := true, gen := 2, covers := 9 }
     let done := fun n => (keel1.setKeel { keel1.keel with compaction := some ⟨snap, 2, 2, n⟩ })
     [keelOccupancy keel1 == 0 && gives (exec .compactionStart keel1) keel1,
      keelOccupancy full == 75 && after (exec .compactionStart full) (fun t => t.keel.compaction.any (fun x => x.snap.gen == 2 &&
        x.snap.covers == full.get R.KEL_SEQ_DURABLE_SEQ)),
      after (exec (.keelCompact 0) keel1) (fun t => t.keel.compaction.isSome && t.get R.KEL_CMD_RESULT == 0),
      (⟨snap, 2, 2, 0⟩ : Compaction).written && after (exec (.compactionEnd true) (done 0)) (fun t => t.keel.compaction.isNone &&
        keelSlot t == 1 && currentSnap t == snap && t.get R.KEL_SNAP_GENERATION == 2),
      after (exec (.compactionEnd false) (done 1)) (fun t => t.keel.compaction == some ⟨snap, 0, 0, 2⟩),
      after (exec (.compactionEnd false) (done 2)) (fun t => t.keel.compaction.isNone && t.keel.failed)]) =
    List.replicate 6 true := by decide +kernel

theorem test_keel_transfers :
    (let fore := { keel1 with frame := { running := true } }
     let ready := { keel1.setKeel { keel1.keel with ready := true, fresh := true, used := 4096 - 32 } with keelQueue := [hostRec] }
     let worn := keel1.setKeel { keel1.keel with ready := true, ring := [(0, ⟨[hostRec], true⟩)] }
     let fw := fun (s : State) (f : FwWrite) => { s with pil := { s.pil with fw := some f } }
     let idle := keel1.setKeel { keel1.keel with ready := true }
     [gives (exec (.keelWriteTransfer (.program .ring) 9999 true) fore) fore,
      gives (exec (.keelWriteTransfer .status 0 true) keel1) (keel1.setKeel { keel1.keel with ready := true }),
      mayAppend ready hostRec && hostRec.size == 32 && after (exec (.keelWriteTransfer (.program .ring) 0 true) ready) (fun t =>
        t.keelQueue == [] && t.get R.KEL_SEQ_DURABLE_SEQ == 0 && (keelBlock t 0).records == [hostRec]),
      !isLive worn 0 && after (exec (.keelWriteTransfer (.erase .ring) 0 true) worn) (fun t => t.keel.fresh && t.keel.used == 0 &&
        keelBlock t 0 == {}),
      appendWaits ready && gives (exec (.keelWriteTransfer (.program .firmware) 0 true) (fw ready ⟨1, 2, 129, 1, 128⟩))
        (fw ready ⟨1, 2, 129, 1, 128⟩),
      !appendWaits idle && after (exec (.keelWriteTransfer (.erase .firmware) 0 true) (fw idle ⟨1, 2, 129, 1, 128⟩)) (fun t =>
        t.pil.fw == some ⟨1, 2, 129, 2, 128⟩ && !t.keel.ready),
      gives (exec (.keelWriteTransfer (.program .firmware) 0 true) (fw idle ⟨1, 2, 129, 1, 128⟩)) (fw idle ⟨1, 2, 129, 1, 128⟩) &&
        after (exec (.keelWriteTransfer (.program .firmware) 0 true) (fw idle ⟨1, 2, 129, 2, 128⟩)) (fun t =>
          t.pil.fw == some ⟨1, 2, 129, 2, 129⟩ && !t.keel.ready)]) = List.replicate 7 true := by decide +kernel

set_option maxRecDepth 100000 in
theorem test_keel_reads :
    (let r : KeelRecord := ⟨8, 2 ^ 32 - 1, 0, [1, 2]⟩
     let s := keel1.setKeel { keel1.keel with reading := some (r.bytes, 8) }
     let work := s.setKeel { s.keel with working := true }
     let win := { s with frame := { running := true, window := true } }
     [keelFits (.read 24) 0 s && keelTakes (.read 24) s && !keelTakes (.read 24) work,
      after (exec (.keelWriteTransfer (.read 8) 0 true) s) (fun t => t.keel.reading == some (r.bytes, 16) && t.regs == s.regs),
      after (exec (.keelWriteTransfer (.read 24) 0 true) s) (fun t => t.keel.reading == none && t.get R.KEL_CMD_RESULT == 0 &&
        t.get (R.KEL_RD_BUF_WORD.at [0]) == 0x84B52 && t.get (R.KEL_RD_BUF_WORD.at [1]) == 2 ^ 32 - 1),
      gives (exec (.keelWriteTransfer (.read 24) 0 true) win) win]) = List.replicate 4 true := by decide +kernel

/-! The facility interface. -/

/-- A released module with both channels in RUN. -/
def run0 (ds : List Nat) (fs : List (Field × Nat)) : State :=
  { mk ds ((R.GLB_BOOT_STATE, 7) :: fs) with fac := { aRun := true, bRun := true, demanded := false } }

theorem test_stop_channels :
    (let s := run0 [0, 1, 2, 15, 17] [(R.LHT_LT_LT, 2 ^ 64 - 1)]
     let latched := s.set R.FAC_STOP_STOP_LATCHED 1
     let stopped := { latched with fac := { latched.fac with bRun := false } }
     let fault := latched.set R.FAC_STOP_CHANNEL_FAULT 1
     let faultOff := { fault with fac := { fault.fac with aRun := false } }
     let timing := { s with fac := { s.fac with timing := true } }
     [after (exec (.stopChannelChange false false 5) s) (fun t => !t.fac.aRun && t.fac.timing && t.get R.FAC_STOP_STOP_LATCHED == 1 &&
        t.get R.FAC_STOP_TIME_LT == 2 ^ 64 - 1 && t.get R.FAC_STOP_DEMAND == 1 && (t.dom 2).state == .down &&
        (t.dom 15).state == .down && !(t.dom 15).target && (t.dom 17).state == .on),
      gives (exec (.stopChannelChange false true 5) s) s,
      after (exec .discrepancyExpiry timing) (fun t => t.get R.FAC_STOP_CHANNEL_FAULT == 1 && !t.fac.timing),
      gives (exec .discrepancyExpiry s) s,
      after (exec (.stopLatchClear 0) latched) (fun t => t.get R.FAC_STOP_STOP_LATCHED == 0),
      after (exec (.stopLatchClear 0) stopped) (fun t => t.get R.FAC_STOP_STOP_LATCHED == 1 && t.get R.FAC_STOP_CLEAR_REFUSED == 1),
      after (exec (.stopLatchClear 0) fault) (fun t => t.get R.FAC_STOP_STOP_LATCHED == 1 && t.get R.FAC_STOP_CLEAR_REFUSED == 1),
      after (exec (.channelFaultClear 0) fault) (fun t => t.get R.FAC_STOP_CHANNEL_FAULT == 0 && t.get R.FAC_STOP_STOP_LATCHED == 1),
      after (exec (.channelFaultClear 0) faultOff) (fun t => t.get R.FAC_STOP_CHANNEL_FAULT == 1 &&
        t.get R.FAC_STOP_CLEAR_REFUSED == 1)]) = List.replicate 9 true := by decide +kernel

theorem test_switched_outputs :
    (let s := run0 [0, 1, 17] []
     let st := fun n => s.set R.FAC_SWO2_CTRL_STATE n
     let latched := ((st 4).set R.FAC_SWO2_CTRL_BACKFEED 1)
     [after (exec (.swoCommand 1 1) (st 3)) (fun t => swoState t 1 == 1 && t.get R.FAC_SWO2_CTRL_CMD == 1),
      after (exec (.swoCommand 1 0) (st 1)) (fun t => swoState t 1 == 0),
      after (exec (.swoCommand 1 1) (st 4)) (fun t => swoState t 1 == 4 && t.get R.FAC_SWO2_CTRL_CMD == 1),
      after (exec (.backfeedClear 1 1 2000) latched) (fun t => swoState t 1 == 1 && t.get R.FAC_SWO2_CTRL_BACKFEED == 0),
      after (exec (.backfeedClear 1 0 2001) latched) (fun t => swoState t 1 == 4 && t.get R.FAC_SWO2_CTRL_BACKFEED == 1 &&
        t.get R.FAC_SWO2_CTRL_CLEAR_REFUSED == 1),
      after (exec (.swoTrip 1) (((st 1).set R.FAC_SWO2_CTRL_RETRY 1).set R.FAC_SWO2_CTRL_RETRIES_USED 2)) (fun t =>
        swoState t 1 == 2 && t.get R.FAC_SWO2_CTRL_OVERCURRENT == 1 && t.get R.FAC_SWO2_CTRL_TRIPS == 1),
      after (exec (.swoTrip 1) (((st 1).set R.FAC_SWO2_CTRL_RETRY 1).set R.FAC_SWO2_CTRL_RETRIES_USED 3)) (fun t => swoState t 1 == 3),
      after (exec (.swoRetry 1) (st 2)) (fun t => swoState t 1 == 1 && t.get R.FAC_SWO2_CTRL_RETRIES_USED == 1),
      gives (exec (.swoRetryReset 1) (st 1)) ((st 1).set R.FAC_SWO2_CTRL_RETRIES_USED 0), gives (exec (.backfeedLatch 1) (st 1)) (st 1),
      after (exec (.backfeedLatch 1) (st 0)) (fun t => swoState t 1 == 4 && t.get R.FAC_SWO2_CTRL_BACKFEED == 1)]) =
    List.replicate 11 true := by decide +kernel

theorem test_loop_and_pump :
    (let s := run0 [0, 1, 17] [(R.FAC_LOOP_CTRL_CMD_UA, 4000), (R.THM_COOL_CFG_PUMP_OUT, 1)]
     let low := s.set R.FAC_LOOP_STATUS_COMPLIANCE 1
     let open_ := s.set R.FAC_LOOP_STATUS_LOOP_OPEN 1
     let none_ := s.set R.THM_COOL_CFG_PUMP_OUT 2
     let fault := (s.set R.THM_COOL_STAT_PUMP_FAULT 1).set R.FAC_SWO2_CTRL_STATE 1
     [loopApplied 3999 == 4000 && loopApplied 4000 == 4000 && loopApplied 20001 == 20000,
      gives (exec (.loopCommand 20001) s) (s.set R.FAC_LOOP_CTRL_CMD_UA 20000),
      after (exec (.loopHeadroomMeasure 12000 10501 3599 []) s) (fun t => t.get R.FAC_LOOP_STATUS_HEADROOM_MV == 1499 &&
        t.get R.FAC_LOOP_STATUS_COMPLIANCE == 1 && t.get R.FAC_LOOP_MEAS_CURRENT_UA == 3599),
      after (exec .complianceLost low) (fun t => t.get R.FAC_LOOP_STATUS_COMPLIANCE_LOST == 1 && t.flag R.THM_COOL_STAT_VALVE_SUSPECT),
      after (exec .complianceLost (s.set R.FAC_LOOP_STATUS_COMPLIANCE_LOST 1)) (fun t =>
        t.get R.FAC_LOOP_STATUS_COMPLIANCE_LOST == 0 && !t.flag R.THM_COOL_STAT_VALVE_SUSPECT),
      gives (exec .loopOpen s) (raise 0x070B noUnit 0 open_),
      gives (exec .loopOpen (open_.set R.FAC_LOOP_MEAS_CURRENT_UA 3600)) ((open_.set R.FAC_LOOP_MEAS_CURRENT_UA 3600).set R.FAC_LOOP_STATUS_LOOP_OPEN 0),
      pumpOutput s == some 1 && after (exec .pumpFaultClear fault) (fun t => t.get R.THM_COOL_STAT_PUMP_FAULT == 0),
      after (exec .vauxLoss (s.set R.FAC_SWO2_CTRL_CMD 1)) (fun t => t.get R.THM_COOL_STAT_PUMP_FAULT == 1),
      pumpOutput none_ == none && gives (exec .pumpFaultClear none_) none_ && gives (exec .vauxLoss none_) none_]) =
    List.replicate 10 true := by decide +kernel

/-! Sensors. -/

/-- Sensor 427 calibrated so that a count is its reading in eighths of a degree, with domains ON. -/
def calibrated (ds : List Nat) : State :=
  let s := run0 ds []
  { s with thermal := { s.thermal with cal := [(427, 0, 0, 8, 8)] } }

theorem test_sensor_conversions :
    (let s := calibrated [0, 1]
     let twice := s.setSensor 427 { converted := true, outOfRange := 2, warn := true }
     [(dieOf 427).powered s && convert s 427 1200 == (1200, true) && after (exec (.sensorConversion 427 1200 0 0) s) (fun t =>
        t.sensor 427 == { converted := true, reading := 1200, warn := true, throt := true, shut := true }),
      after (exec (.sensorConversion 427 800 0 0) s) (fun t => (t.sensor 427).reading == 800 &&
        (t.sensor 427).warn == flagAfter s 427 .warn 800 false && (t.sensor 427).shut == flagAfter s 427 .shut 800 false),
      convert s 427 1201 == (1201, false) && after (exec (.sensorConversion 427 1201 0 0) twice) (fun t => (t.sensor 427).failed &&
        !(t.sensor 427).warn && gives (exec (.sensorConversion 427 0 0 0) t) t)]) = List.replicate 3 true := by decide +kernel

theorem test_sensor_work :
    (let s := calibrated [0, 1]
     let clocked := ((s.set R.LHT_FRAME_CFG_D_BASE 1).set R.LHT_FRAME_CFG_PERIOD_US 5).set R.PWR_CLK_FREQ_ISLE_MHZ 1000
     let win := { clocked with frame := { running := true, window := true, lengthNs := 10000 } }
     let read := (s.setSensor 422 { converted := true, reading := 300 }).setSensor 427 { converted := true, reading := 301 }
     [Die.pilot.powered s && windowHolds win 5000 128 && after (exec (.sensorCalibration ⟨38, 5000⟩ 900) win) (fun t =>
        KMap.get 0 t.thermal.supply 38 == 900 && gives (exec (.sensorCalibration ⟨38, 5001⟩ 901) t) t),
      Die.pilot.sensors.any (inService read), after (exec .compensationUpdate read) (fun t => KMap.get (0, 0) t.thermal.comp 38 == (601, 2)),
      after (exec .coolingRecord { read with meter := { read.meter with coolSum := 21, coolSamples := 2 } }) (fun t =>
        t.meter.coolSum == 0 && t.meter.coolSamples == 0 && t.thermal.cool == [(10, 301)])]) = List.replicate 4 true := by decide +kernel

theorem test_thermal_shutdown :
    (let s := run0 [0, 1, 2, 5, 10, 14] []
     let due := { s with thermal := { s.thermal with due := [7, 427] } }
     let latched := s.set R.THM_SHUTDOWN_LATCHED 1
     let hot := latched.setSensor 427 { converted := true, reading := 1100 }
     [after (exec (.thermalShutdown 5) due) (fun t => t.thermal.due == [427] && t.get R.THM_SHUTDOWN_LATCHED == 1 &&
        t.get R.THM_SHUTDOWN_SENSOR == 7 && (t.dom 2).state == .down && (t.dom 10).state == .down && (t.dom 14).state == .on),
      gives (exec (.thermalShutdown 5) s) s,
      after (exec (.shutdownLatchClear 1) latched) (fun t => t.get R.THM_SHUTDOWN_LATCHED == 0 && t.thermal.shut == []),
      decide (threshold hot 427 .shut - 8 * (hysteresis hot (dieOf 427).isDram .shut : Int) < 1100) &&
        after (exec (.shutdownLatchClear 1) hot) (fun t => t.get R.THM_SHUTDOWN_LATCHED == 1 &&
          t.get R.THM_SHUTDOWN_CLEAR_REFUSED == 1),
      gives (exec (.thresholdWrite false (50 + 60 * 256)) s) ((s.set R.THM_THRESH_LOGIC_WARN_C 50).set R.THM_THRESH_LOGIC_THROT_C 60),
      gives (exec (.thresholdWrite true (50 + 50 * 256)) s) s,
      (let l := s.set R.THM_CTRL_LOCK 1; gives (exec (.thresholdWrite true (50 + 60 * 256)) l) l),
      gives (exec .thmLock s) (s.set R.THM_CTRL_LOCK 1)]) = List.replicate 8 true := by decide +kernel

/-! Power. -/

/-- Released, with a domain in another state than ON. -/
def withDom (d : Nat) (v : Dom) (s : State) : State := s.modDom d (fun _ => v)

theorem test_domain_requests :
    (let s := run0 [0, 1, 17] []
     let latched := s.set R.FAC_STOP_STOP_LATCHED 1
     let live := { s with frame := { running := true } }
     let aon := s.set R.GLB_BOOT_STATE 6
     let down := run0 [0, 1, 16, 6, 10] []
     [gives (exec (.domainOnRequest 16) live) (live.modDom 16 (fun x => { x with waitBoundary := true })),
      !latchRefuses s 16 && domainOn s (parentOf 16) && after (exec (.domainOnRequest 16) s) (fun t => (t.dom 16).state == .up &&
        (t.dom 16).step == .u1 && (t.dom 16).target),
      latchRefuses latched 15 && after (exec (.domainOnRequest 15) latched) (fun t => t.doms == latched.doms &&
        t.get R.PWR_SEQ_REFUSED == 1),
      gives (exec (.domainOffRequest 17 5) aon) (aon.bump R.PWR_SEQ_REFUSED),
      after (exec (.domainOffRequest 16 5) down) (fun t => (t.dom 16).state == .down && (t.dom 10).state == .down &&
        (t.dom 6).state == .down && (t.dom 0).state == .on)]) = List.replicate 5 true := by decide +kernel

theorem test_sequencer :
    (let s := run0 [0, 1] []
     let up := fun d st => withDom d { state := .up, step := st, target := true } s
     let dn := fun d st => withDom d { state := .down, step := st } s
     let die := withDom 2 { state := .up, step := .u7, target := true } (setHealth 0 true (run0 [0, 1, 10] []))
     let hurt := setHealth 0 false die
     [after (exec (.sequencerStepComplete ⟨17, 0⟩ true) (up 17 .u7)) (fun t => domainOn t 17 && t.get (pwrStateField 17) == 2),
      healthBits 2 == [0] && dieDomains 0 == [2, 10] && health die 0,
      after (exec (.sequencerStepComplete ⟨2, 0⟩ false) die) (fun t => !health t 0 && domainOn t 2),
      after (exec (.sequencerStepComplete ⟨2, 0⟩ true) hurt) (fun t => health t 0),
      after (exec (.sequencerStepComplete ⟨2, 0⟩ true) (up 2 .u1)) (fun t => (t.dom 2).step == .u2 && (t.dom 2).state == .up),
      after (exec (.sequencerStepComplete ⟨2, 0⟩ true) (dn 2 .d1)) (fun t => (t.dom 2).step == .d2),
      after (exec (.sequencerStepComplete ⟨2, 0⟩ true) (dn 2 .d4)) (fun t => (t.dom 2).state == .off),
      after (exec (.sequencerStepComplete ⟨9, 0⟩ true) (dn 9 .d4)) (fun t => (t.dom 9).state == .hold),
      after (exec (.holdOffExpiry 9) (withDom 9 { state := .hold } s)) (fun t => (t.dom 9).state == .off),
      gives (exec (.holdOffExpiry 9) s) s]) = List.replicate 10 true := by decide +kernel

theorem test_power_faults :
    (let s := run0 [0, 1, 2, 5] []
     let up := withDom 17 { state := .up, step := .u4, target := true } s
     let early := (up.set R.GLB_BOOT_STATE 3)
     let lock := setHealth 38 true (s.set R.PWR_CLK_LOCK_LOCKED (2 ^ 59))
     let wet := (withImage image0 s).modArch 0 (fun r => { r with frame := .wet })
     [after (exec (.powerGoodTimeout 17 5) early) (fun t => bootState t == 8 && t.get R.GLB_BOOT_STOP_CAUSE == 7),
      after (exec (.powerGoodTimeout 17 5) up) (fun t => (t.dom 17).state == .down && (t.dom 17).toFault &&
        t.get R.PWR_FAULT_DOMAIN == 17 && t.get R.PWR_FAULT_CAUSE == 2),
      gives (exec (.powerGoodTimeout 2 5) s) s,
      after (exec (.railOutOfRegulation 11 5) s) (fun t => (t.dom 5).state == .down && (t.dom 5).toFault && (t.dom 2).state == .on &&
        t.get R.PWR_FAULT_DOMAIN == 5 && t.get R.PWR_FAULT_CAUSE == 1),
      gives (exec (.railOutOfRegulation 10 5) s) s,
      after (exec (.clockLockLoss 59 5) lock) (fun t => t.get R.PWR_CLK_LOCK_LOCKED == 0 && t.get R.PWR_CLK_FREQ_UNLOCKS == 1 && !health t 38),
      gives (exec (.clockLockLoss 58 5) lock) lock,
      inWet wet 0 && (partOf wet 0).isSome]) = List.replicate 8 true := by decide +kernel

theorem test_voltage_and_cap :
    (let s := run0 [0, 1, 5] [(R.PWR_AVS_EN.at [3], 1), (R.PWR_AVS_VSET_MV.at [3], 700), (R.GLB_FUSE_PCAP_W, 1200),
       (R.PWR_CLK_FREQ_ISLE_MHZ, 1000)]
     let low := s.set (R.PWR_AVS_VSET_MV.at [3]) 653
     let live := { s with frame := { running := true } }
     let tries := (s.setAvs 3 { tries := 2, acked := 690 })
     [avsUpper s == 775 && after (exec (.avsAdjust 3 true false 0) s) (fun t => t.get (R.PWR_AVS_VSET_MV.at [3]) == 705),
      avsLower s == 650 && gives (exec (.avsAdjust 3 false false 0) low) (writeVset 3 650 low),
      gives (exec (.avsAdjust 3 false false 0) live) live,
      after (exec (.avsAdjust 3 true true 0) (s.set (R.PWR_AVS_VSET_MV.at [3]) 775)) (fun t => t.get R.PWR_FAULT_CAUSE == 5 &&
        t.get R.PWR_FAULT_DOMAIN == 5 && (t.dom 5).state == .down),
      gives (exec (.avsWriteTimeout 3) s) (s.setAvs 3 { tries := 1 }),
      after (exec (.avsWriteTimeout 3) tries) (fun t => (t.getAvs 3).held && t.get (R.PWR_AVS_VSET_MV.at [3]) == 690 &&
        t.get R.GLB_SUPPLY_AVS_ERR == 1),
      after (exec (.hostCapWrite 0) (s.set R.PWR_CAP_HOST_CAP_W 300)) (fun t => t.get R.PWR_CAP_HOST_CAP_W == 0 &&
        t.get R.PWR_CAP_EFFECTIVE_W == 1200),
      after (exec (.hostCapWrite 199) s) (fun t => t.get R.PWR_CAP_HOST_CAP_W == 200 && t.get R.PWR_CAP_EFFECTIVE_W == 200),
      after (exec (.hostCapWrite 1201) s) (fun t => t.get R.PWR_CAP_HOST_CAP_W == 1200),
      after (exec (.powerSample [(750, 9)] 33) live) (fun t => t.meter.samples == 1 && t.meter.coolSum == 33 && t.meter.fgSum == 33 &&
        t.meter.svcSum == 0 && t.get (R.GLB_RAIL_MV.at [0]) == 750)]) = List.replicate 10 true := by decide +kernel

/-! Frames, bring-up and resets. -/

/-- A module that follows rack time, with a frame that ends at FN 4 and an archipelago in a wet frame. -/
def framed : State :=
  { withImage image0 (mk [0, 1, 17] [(R.LHT_FN_FN, 3), (R.LHT_FRAME_CFG_PERIOD_US, 10), (R.LHT_STATUS_STATE, 2),
      (R.LHT_TICK_ORIGIN_ORIGIN, 5)]) with
    lh := { running := true, hasOrigin := true }
    frame := { running := true, endFn := 4, nextK := 2 }
    archs := [(0, { frame := .wet, next := .dry })] }

theorem test_frames :
    (let s := framed
     let idle := { s with frame := {} }
     let far := { s with frame := { s.frame with endFn := 5 } }
     let done := { s with frame := { s.frame with closed := true, window := true } }
     let relock := { s with frame := { relock := true } }
     [endingArchs s == [0] && after (exec .frameEnd s) (fun t => t.frame.window && t.frame.running && (t.arch 0).ended && (t.arch 0).gen),
      gives (exec .frameEnd idle) idle,
      gives (exec (.localFrameBoundary 5) far) far,
      after (exec (.localFrameBoundary 5) s) (fun t => t.frame.closed),
      (let q := { s with lh := { s.lh with running := false } }; gives (exec (.rackTick 5) q) q),
      after (exec (.rackTick 5) far) (fun t => t.get R.LHT_FN_FN == 4 && t.get R.LHT_LT_LT == 40005 && t.frame.endFn == 5),
      s.staged.isNone && after (exec (.rackTick 5) done) (fun t => t.get R.LHT_FN_FN == 4 && t.get R.LHT_LOCAL_FN_FN_S == 4 && t.frame.endFn == 6 &&
        !t.frame.window && (t.arch 0).frame == .dry),
      after (exec .isleClockRelock { relock with doms := (5, { state := .on }) :: relock.doms }) (fun t =>
        bit (t.get R.PWR_CLK_LOCK_LOCKED) 41 && !t.frame.relock), gives (exec .isleClockRelock s) s]) = List.replicate 9 true := by
  decide +kernel

theorem test_bring_up :
    (let s : State := {}
     let aon := s.set R.GLB_SUPPLY_MAIN_EN 1
     let differ := fun (u : State) => { u with fuses := { u.fuses with copyB := (0, 1400, 1200) } }
     let stops := fun n (t : State) => bootState t == 8 && t.get R.GLB_BOOT_STOP_CAUSE == n
     [after (exec (.aonPhase 63) s) (fun t => t.get R.GLB_RACK_MOD_STRAP == 63 && t.get R.GLB_FUSE_FMAX_MHZ == 1500 && bootState t == 0),
      after (exec (.aonPhase 63) (differ s)) (stops 1),
      after (exec (.aonPhase 63) { s with fuses := { s.fuses with copyA := (3, 1400, 1200), copyB := (3, 1400, 1200) } }) (stops 2),
      s.pil.fwA == some 0 && after (exec (.pilotPhase (true, false) 127) aon) (fun t => bootState t == 1 && domainOn t 0 && domainOn t 1 &&
        t.keel.suspends && t.get R.PIL_FW_ACTIVE == 0),
      after (exec (.pilotPhase (true, false) 63) (differ aon)) (stops 1),
      after (exec (.pilotPhase (true, false) 63) (aon.set R.GLB_FUSE_VARIANT 3)) (stops 2),
      after (exec (.pilotPhase (true, true) 62) aon) (stops 3), after (exec (.pilotPhase (false, false) 63) aon) (stops 3)]) =
    List.replicate 8 true := by decide +kernel

theorem test_bring_up_phases :
    (let at_ := fun n (u : State) => u.set R.GLB_BOOT_STATE n
     let m := mk [0, 1] []
     let all := mk (List.range 18) []
     [after (exec .keelPhase (at_ 1 m)) (fun t => bootState t == 2),
      after (exec .keelPhase ((at_ 1 m).setKeel { m.keel with snapA := {} })) (fun t => bootState t == 8 && t.get R.GLB_BOOT_STOP_CAUSE == 3),
      after (exec .powerUpPhase (at_ 2 m)) (fun t => bootState t == 9 && t.doms == m.doms),
      after (exec .powerUpPhase { at_ 2 m with fac := { aRun := true, bRun := true } }) (fun t => bootState t == 3 &&
        (t.dom 17).state == .up && (t.dom 17).target),
      after (exec (.selfTestPhase [] [5]) (at_ 3 all)) (fun t => bootState t == 4 && (List.range 40).all (health t)),
      after (exec (.selfTestPhase [39] []) (at_ 3 all)) (fun t => bootState t == 8 && t.get R.GLB_BOOT_STOP_CAUSE == 4 &&
        t.get R.GLB_BOOT_DETAIL == 39)]) = List.replicate 6 true := by decide +kernel

theorem test_repair_and_release :
    (let all := mk (List.range 18) []
     let rep := all.set R.GLB_BOOT_STATE 4
     let one := { rep with boot := { rep.boot with failedNow := [271 - 4] } }
     let end_ := (mk (List.range 18) [(R.GLB_BOOT_STATE, 6), (R.GLB_DIE_HEALTH_ISLE_DIE, 15), (R.GLB_DIE_HEALTH_DRAM_LAYER, 2 ^ 32 - 1),
       (R.GLB_DIE_HEALTH_HARBOUR_A, 1), (R.GLB_DIE_HEALTH_HARBOUR_B, 1), (R.GLB_DIE_HEALTH_BRIDGE, 1), (R.GLB_DIE_HEALTH_PILOT, 1)]).modIsle 255 (fun v => { v with state := .held })
     [bootState rep == 4 && fieldRecords rep == [] && rep.fuses.failedIsles == [] && rep.boot.failedNow == [],
      bootState one == 4 && fieldRecords one == [] && one.fuses.failedIsles == [] && one.boot.failedNow == [267],
      mayRelease end_ && after (exec (.release (2 ^ 32)) end_) (fun t => bootState t == 7 && (t.isle 255).state == .idle &&
        t.get R.GLB_BOOT_TIME_RELEASE_US == 2 ^ 32 - 1 && t.get R.GLB_INVENTORY_LOGICAL_ISLES == 256)]) =
    List.replicate 3 true := by decide +kernel

theorem test_fill_phase : bootState ((mk [] []).set R.GLB_BOOT_STATE 5) == 5 ∧
    after (exec .fillPhase ((mk [] []).set R.GLB_BOOT_STATE 5)) (fun t => bootState t == 6) = true := by decide +kernel

theorem test_module_resets :
    (let s := storeBare .host 0 0 data32 false (run0 [0, 1, 2] [(R.GLB_SUPPLY_MAIN_PG, 1), (R.GLB_SUPPLY_REFCLK25_OK, 1)])
     let gone := fun (t : State) => t.lagoon == [] && t.stored == [] && t.image.isNone && t.fuses == s.fuses
     let dma := s.set (R.DMA_CTRL_ENABLE.at [7]) 1
     [after (exec (.moduleReset (0x5A3C + 2 ^ 16)) s) (fun t => gone t && (t.dom 0).state == .off && (t.dom 2).state == .off &&
        t.keel.snapA == s.keel.snapA),
      gives (exec (.moduleReset 0x5A3C) s) s, gives (exec (.moduleReset (0x5A3D + 2 ^ 16)) s) s,
      after (exec (.pilotWatchdogExpiry 7) s) (fun t => gone t && t.boot.watchdog == some 7),
      after (exec .aonSupplyLoss s) (fun t => gone t && t.regs == [] && t.doms == []),
      after (exec .mainPgLoss s) (fun t => gone t && t.boot.brownout && (t.dom 1).state == .off),
      after (exec .refclk25Loss s) (fun t => gone t && t.boot.brownout),
      (let u := s.set R.GLB_SUPPLY_MAIN_PG 0; gives (exec .mainPgLoss u) u),
      (let u := s.set R.GLB_SUPPLY_REFCLK25_OK 0; gives (exec .refclk25Loss u) u),
      after (exec .refclk100Loss (dma.set R.GLB_SUPPLY_REFCLK100_OK 1)) (fun t => t.get R.GLB_SUPPLY_REFCLK100_OK == 0 &&
        t.get (R.DMA_CTRL_ENABLE.at [7]) == 0 && t.stored == s.stored),
      after (exec .hostLinkReset dma) (fun t => t.hif.d3hot == [] && t.get (R.DMA_CTRL_ENABLE.at [7]) == 0)]) =
    List.replicate 11 true := by decide +kernel

theorem test_compute_reset :
    (let s := { run0 [0, 1] [] with frame := { running := true } }
     let busy := s.set R.GLB_CRESET_BUSY 1
     let ph := fun p => { busy with boot := { busy.boot with creset := p }, frame := {} }
     let inst := { s with sched := some { arch := 0, addr := 0, image := none, digest := [], installing := true } }
     let lag := (lagoonWrite 255 0xFFFFF [9] ((ph .testing).modIsle 255 (fun v => { v with state := .idle })))
     [after (exec (.computeResetRequest 1) s) (fun t => t.get R.GLB_CRESET_BUSY == 1 && t.get R.GLB_CRESET_DEFERRED == 0),
      after (exec (.computeResetRequest 1) inst) (fun t => t.get R.GLB_CRESET_BUSY == 1 && t.get R.GLB_CRESET_DEFERRED == 1),
      after (exec (.computeResetRequest 1) (s.set R.GLB_BOOT_STATE 10)) (fun t => t.get R.GLB_CRESET_REFUSED == 1 &&
        !t.flag R.GLB_CRESET_BUSY),
      busy.boot.creset == .none_ && !installing busy && after (exec (.computeResetStart 5) busy) (fun t => t.boot.creset == .stopping &&
        bootState t == 10 && !t.frame.running),
      gives (exec .computeResetQuiescent (ph .stopping)) (ph .testing),
      fieldRecords lag == [] && after (exec (.computeResetSelfTestEnd []) lag) (fun t => t.boot.creset == .restarting && t.boot.moved == [] &&
        (lagoonGet t 255 0xFFFFF).toNat == 0),
      after (exec (.computeResetEnd (2 ^ 32)) (ph .restarting)) (fun t => t.boot.creset == .none_ && bootState t == 7 &&
        t.get R.GLB_CRESET_BUSY == 0 && t.get R.GLB_CRESET_COUNT == 1 && t.get R.GLB_BOOT_TIME_CRESET_US == 2 ^ 32 - 1)]) =
    List.replicate 7 true := by decide +kernel

/-! Pilots and management. -/

/-- A command in the mailbox. -/
def withCmd (op : Nat) (arg : List Nat) (s : State) : State := (s.setPil { s.pil with cmd := some ⟨op, arg, 0⟩ }).set R.PIL_MBX_STATUS_BUSY 1

theorem test_mailbox :
    (let s := mk [0, 1] [(R.PIL_FW_VERSION_A, 40), (R.PIL_FW_VERSION_B, 7)]
     let busy := s.set R.PIL_MBX_STATUS_BUSY 1
     let floor := fun n => { s with fuses := { s.fuses with fwFloor := n } }
     let ends := fun op arg image (u : State) (p : State → Bool) => after (exec (.mailboxCommandEnd image) (withCmd op arg u)) (fun t =>
       t.get R.PIL_MBX_STATUS_DONE == 1 && t.get R.PIL_MBX_STATUS_BUSY == 0 && t.pil.cmd.isNone && p t)
     let key := [3, 0, 0, 0] ++ List.replicate 32 9
     [gives (exec .getInfo busy) (busy.set R.PIL_MBX_STATUS_OVERRUN 1),
      after (exec (.mailboxBadOpcode 0x1FF) s) (fun t => t.pil.cmd.any (fun y => y.opcode == 255) && t.get R.PIL_MBX_STATUS_BUSY == 1 &&
        t.get R.PIL_MBX_CMD_OPCODE == 255),
      ends 1 [] none s (fun t => t.get R.PIL_MBX_STATUS_RESULT == 0 && t.get (R.PIL_MBX_RSP_BYTES.at [0]) == 40 + 7 * 65536),
      ends 2 [] none s (fun t => t.get R.PIL_MBX_STATUS_RESULT == 3 && t.pil.fwB == s.pil.fwB),
      ends 2 [] (some 4) (floor 5) (fun t => t.get R.PIL_MBX_STATUS_RESULT == 4 && t.pil.fwB == s.pil.fwB),
      ends 2 (le 4 (2 ^ 23 + 1)) (some 9) s (fun t => t.get R.PIL_MBX_STATUS_RESULT == 2 && t.pil.fwB == s.pil.fwB),
      runningVersion (floor 31) == 40 && (floor 31).fuses.fwFloor == 31,
      ends 3 [] none (floor 32) (fun t => t.get R.PIL_MBX_STATUS_RESULT == 5 && t.fuses == (floor 32).fuses),
      ends 4 key none s (fun t => t.get R.PIL_MBX_STATUS_RESULT == 0 && nth t.fuses.keys 3 [] == List.replicate 32 9 &&
        nth t.fuses.keys 0 [] == nth s.fuses.keys 0 []),
      ends 4 key none { s with fuses := { s.fuses with keys := [[], [], [], [1]] } } (fun t => t.get R.PIL_MBX_STATUS_RESULT == 6),
      ends 0 [] none s (fun t => t.get R.PIL_MBX_STATUS_RESULT == 1), ends 5 [] none s (fun t => t.get R.PIL_MBX_STATUS_RESULT == 1)]) =
    List.replicate 12 true := by decide +kernel

theorem test_firmware_update :
    (let s := mk [0, 1] [(R.KEL_STATUS_STATE, 1)]
     let m := withCmd 2 (le 4 4097) s
     let fw := fun f => { m with pil := { m.pil with fw := some f } }
     let done := fw ⟨5, 2, 129, 2, 129⟩
     [after (exec (.mailboxCommandEnd (some 65541)) m) (fun t => t.pil.cmd.isSome && t.get R.PIL_MBX_STATUS_BUSY == 1 &&
        t.pil.fw == some ⟨5, 2, 129, 0, 0⟩ && t.pil.fwB == none && t.pil.fwA == s.pil.fwA),
      firmwareGoing (fw ⟨5, 2, 129, 2, 128⟩) && gives (exec (.mailboxCommandEnd (some 5)) (fw ⟨5, 2, 129, 2, 128⟩)) (fw ⟨5, 2, 129, 2, 128⟩),
      !firmwareGoing done && after (exec (.mailboxCommandEnd (some 5)) done) (fun t => t.get R.PIL_MBX_STATUS_RESULT == 0 &&
        t.pil.fwB == some 5 && t.pil.fw == none && t.pil.cmd.isNone),
      after (exec (.mailboxCommandEnd none) done) (fun t => t.get R.PIL_MBX_STATUS_RESULT == 7 && t.pil.fwB == done.pil.fwB),
      after (exec (.mailboxCommandEnd (some 5)) (m.set R.KEL_STATUS_STATE 4)) (fun t => t.get R.PIL_MBX_STATUS_RESULT == 7 &&
        t.pil.fw == none)]) = List.replicate 5 true := by decide +kernel

theorem test_directory :
    (let s := mk [0] []
     let asked := setLine 9 { requests := [(7, 3)] } s
     let held := setLine 9 { owner := some 2, order := [7, 1] } s
     let free := setLine 9 { order := [7, 1] } s
     [after (exec (.ownershipRequest 7 9 3 none) s) (fun t => (cacheLine t 9).requests == [(7, 3)] && (cacheLine t 9).owner == none),
      asked.pil.lines.rising && after (exec .directoryRound asked) (fun t => (cacheLine t 9).owner == some 7 &&
        (cacheLine t 9).requests == [] && (cacheLine t 9).pointer == 0),
      after (exec .directoryRound held) (fun t => (cacheLine t 9).owner == none && (cacheLine t 9).order == [7, 1]),
      after (exec .directoryRound free) (fun t => (cacheLine t 9).owner == some 7 && (cacheLine t 9).order == [1])]) =
    List.replicate 4 true := by decide +kernel

theorem test_management_requests :
    (let s := mk [0, 1] [(R.PIL_MCTP_EID_VDM, 12)]
     [mctpUp s true && gives (exec (.getEndpointId true) s) (s.emit (.mctp true "Get Endpoint ID" 0 [12])),
      gives (exec (.getPdrRepositoryInfo false) s) (s.emit (.mctp false "GetPDRRepositoryInfo" 0 [68])),
      gives (exec (.getPdr true 18) s) (s.emit (.mctp true "GetPDR" 0 [18, 0, 18])),
      gives (exec (.getPdr true 69) s) (s.emit (.mctp true "GetPDR" 0x82 [])), gives (exec (.getPdr true 0) s) (s.emit (.mctp true "GetPDR" 0x82 [])),
      after (exec (.setEndpointId true 254) s) (fun t => t.get (eidField true) == 254 && t.out == [.mctp true "Set Endpoint ID" 0 [254]]),
      after (exec (.mctpBadPacket true) s) (fun t => t.get R.PIL_MCTP_ERR_BAD == 1 && t.out == []),
      gives (exec (.mctpUnsupportedType true) s) (s.bump R.PIL_MCTP_ERR_UNSUPPORTED),
      gives (exec (.spdmRequest 2 .ideKm) s) ((s.set R.GLB_HIF_LINK_IDE_SECURE 1).emit (.spdm 2 "IDE_KM" [])),
      gives (exec (.spdmRequest 1 .ideKm) s) s,
      after (exec (.spdmRequest 0 .measurements) s) (fun t => t.out.length == 1)]) = List.replicate 11 true := by decide +kernel

theorem test_management_settings :
    (let s := run0 [0, 1, 2] [(R.LHT_LOCAL_D_CUR, 3), (R.PIL_CTRL_MGMT_WRITE_EN, 0)]
     let en := (s.set R.PIL_CTRL_MGMT_WRITE_EN 1).set R.GLB_FUSE_PCAP_W 1200
     let off := s.setPil { s.pil with disabled := [18] }
     [gives (exec (.getSensorReading true 18) off) (off.emit (.mctp true "GetSensorReading" 0 [1])),
      (sensorReading s 18).isSome && sensorPowered s 18 && after (exec (.getSensorReading true 18) s) (fun t => t.out.length == 1),
      after (exec (.getSensorThresholds true 14) s) (fun t => t.out == [.mctp true "GetSensorThresholds" 0 [0, 0, 0, 0, 0, 0, 1, 10800]]),
      after (exec (.setNumericSensorEnable true 18 false) s) (fun t => t.pil.disabled == [18]),
      after (exec (.setNumericSensorEnable true 18 true) off) (fun t => t.pil.disabled == []),
      after (exec (.setNumericEffecterValue true 70 65636) en) (fun t => t.get R.PWR_CAP_HOST_CAP_W == 1200),
      after (exec (.setNumericEffecterValue true 70 199) en) (fun t => t.get R.PWR_CAP_HOST_CAP_W == 200 &&
        t.out == [.mctp true "SetNumericEffecterValue" 0 []]),
      after (exec (.setStateEffecterStates true 60 1 0) en) (fun t => t.get R.GLB_CRESET_BUSY == 1),
      after (exec (.setNumericEffecterValue true 70 199) s) (fun t => t.get R.PWR_CAP_HOST_CAP_W == 0 &&
        t.out == [.mctp true "SetNumericEffecterValue" 1 []]),
      after (exec (.setStateEffecterStates true 60 1 0) s) (fun t => t.get R.GLB_CRESET_BUSY == 0 &&
        t.out == [.mctp true "SetStateEffecterStates" 1 []]),
      after (exec (.setStateEffecterStates true 1 2 0) s) (fun t => (t.dom 2).state == .down && !(t.dom 2).target),
      after (exec (.getStateEffecterStates true 16) s) (fun t => t.out == [.mctp true "GetStateEffecterStates" 0 [0]]),
      after (exec (.getNumericEffecterValue true 70) (s.set R.PWR_CAP_HOST_CAP_W 300)) (fun t =>
        t.out == [.mctp true "GetNumericEffecterValue" 0 [300]])]) = List.replicate 13 true := by decide +kernel

theorem test_event_receiver :
    (let s := mk [0, 1] [(R.PIL_PLDM_RECEIVER_EID, 9)]
     let e : PldmEvent := ⟨0x0401, 258, none⟩
     let q := fun n => { s with pldm := [e], pldmTries := n }
     [after (exec (.setEventReceiver true 300) s) (fun t => t.get R.PIL_PLDM_RECEIVER_SET == 1 && t.get R.PIL_PLDM_RECEIVER_EID == 44 &&
        t.flag R.PIL_PLDM_RECEIVER_VDM),
      gives (exec (.getEventReceiver true) s) (s.emit (.mctp true "GetEventReceiver" 0 [0, 9, 0])),
      after (exec (.platformEventMessage true) (q 0)) (fun t => t.pldm == [] && t.pldmTries == 0 &&
        t.out == [.mctp false "PlatformEventMessage" 0 [9, 0xF0, 1, 4, 0, 0, 2, 1, 0, 0, 0, 0, 0, 0]]),
      after (exec (.platformEventMessage false) (q 0)) (fun t => t.pldm == [e] && t.pldmTries == 1),
      gives (exec (.platformEventMessage true) (q 1)) (q 1),
      after (exec (.platformEventRetryTimeout false) (q 3)) (fun t => t.pldm == [e] && t.pldmTries == 4),
      after (exec (.platformEventRetryTimeout false) (q 4)) (fun t => t.pldm == [] && t.pldmTries == 0 &&
        t.get R.PIL_PLDM_FWD_DROPPED == 1),
      after (exec (.pilLock 0) s) (fun t => t.get R.PIL_CTRL_LOCK == 1)]) = List.replicate 8 true := by decide +kernel

theorem test_tap :
    (let s := mk [0, 1] []
     let on := mk [0, 1, 15] []
     [after (exec .tapReset (s.setPil { s.pil with tap := ⟨5, true, []⟩ })) (fun t => t.pil.tap == ⟨1, false, []⟩),
      after (exec .idcode s) (fun t => t.out == [.tap 1 R.PIL_IDCODE_IDCODE.reset]),
      after (exec (.samplePreload [true, false, true] [true]) s) (fun t => t.pil.tap == ⟨2, false, [true]⟩ && t.out == [.tap 2 5]),
      scanAllowed s && after (exec .extest s) (fun t => t.pil.tap == ⟨0, true, []⟩),
      after (exec .highz s) (fun t => t.pil.tap == ⟨5, true, []⟩),
      !scanAllowed on && after (exec .clamp on) (fun t => t.pil.tap == ⟨4, false, []⟩ && t.get R.PIL_JTAG_STAT_EXTEST_BLOCKED == 1),
      after (exec (.bypass 511) s) (fun t => t.pil.tap == ⟨255, false, []⟩)]) = List.replicate 7 true := by decide +kernel

/-! Well-formed commands: each check of `Instr.wf` refuses a command that breaks it alone, and accepts that command in order. -/

theorem test_ill_formed_1 : ((
    [.registerWrite 18 0 4 0, .registerWrite 0 (2 ^ 26 + 1) 4 0, .registerWrite 0 0 3 0, .registerWrite 0 0 4 ((2 ^ (8 * 4))),
     .readClear 18 0 4, .readClear 0 (2 ^ 26) 4, .readClear 0 0 3, .aonPhase 64, .pilotPhase (false, true) (2 ^ 7),
     .selfTestPhase [40] [], .selfTestPhase [] [272], .release (2 ^ 64), .moduleReset (2 ^ 32), .pilotWatchdogExpiry 8,
     .computeResetRequest (2 ^ 32), .computeResetStart (2 ^ 28), .computeResetSelfTestEnd [272], .computeResetEnd (2 ^ 64),
     .rackTick (2 ^ 64), .localFrameBoundary (2 ^ 64), .uncorrectableReadDetect ⟨256, 0, false⟩,
     .uncorrectableReadDetect ⟨0, (2 ^ 28), false⟩, .voidPoint 32 0, .voidPoint 0 (2 ^ 28), .arrayRampDownEnd ⟨256, 0⟩,
     .arrayRampDownEnd ⟨0, (2 ^ 32)⟩, .nop 256, .loop 256, .mac 256, .l1 256, .l2sq 256, .max 256, .min 256, .vadd 256,
     .vsub 256, .vmul 256, .vfma 256, .vmax 256, .vmin 256, .vcvt 256, .vfn 256, .vrsum 256, .vrmax 256, .vsel 256, .vmov 256,
     .sargmax 256, .sboxdec 256, .snms 256, .lift 256, .lower 256, .mergeEntryTimeout ⟨256, 0⟩,
     .mergeEntryTimeout ⟨0, (2 ^ 28)⟩, .mergeCommit ⟨256, 0⟩, .mergeCommit ⟨0, (2 ^ 28)⟩, .csend 256, .crecv 256, .hsend 256,
     .hrecv 256, .ferry 256 0, .ferry 0 11, .bend 256, .scheduleLoadStart (2 ^ 32), .scheduleCheckEnd (some [256]),
     .quiesce 256, .resume 256, .off 256 0, .off 0 (2 ^ 28), .on 256, .lagoonFillEnd 256, .islStateRead 2048 4,
     .islStateRead 0 3, .refreshSlot ⟨256, 0⟩, .refreshSlot ⟨0, (2 ^ 32)⟩, .selfTimedRefreshSlot 256, .scrubStep 256 0,
     .scrubStep 0 (2 ^ 32), .lagoonScrub 256 [], .lagoonScrub 0 [(2 ^ 17, 0)], .lagoonScrub 0 [(0, 2 ^ 72)],
     .sensorCalibration ⟨39, 0⟩ 0] : List Instr).any Instr.wf) = false := by decide +kernel

theorem test_ill_formed_2 : ((
    [.sensorCalibration ⟨0, 0⟩ (2 ^ 32), .sensorCalibration ⟨0, (2 ^ 32)⟩ 0, .hostSliceAccess 256 0,
     .hostSliceAccess 0 (2 ^ 28), .ceWindowEnd 256 0, .ceWindowEnd 0 (2 ^ 64), .keyLoad 256 0, .keyLoad 0 (2 ^ 32),
     .keyZeroize 256 0, .keyZeroize 0 (2 ^ 32), .flipArm 256 0, .flipArm 0 (2 ^ 32), .hostviewWrite 2, .nbuFill 256 0,
     .nbuFill 0 (2 ^ 31), .nbuCopy 256 0, .nbuCopy 0 (2 ^ 31), .nbuAcc 256 0, .nbuAcc 0 (2 ^ 31), .nbuAxpby 256 0,
     .nbuAxpby 0 (2 ^ 31), .nbuAdamw 256 0, .nbuAdamw 0 (2 ^ 31), .nbuSumsq 256 0, .nbuSumsq 0 (2 ^ 31),
     .nbuOperationEnd 256 [], .nbuOperationEnd 0 [(128, 0)], .nbuOperationEnd 0 [(0, 2 ^ 64)], .hostNbuCommand 256 0 0 0 0,
     .hostNbuCommand 0 256 0 0 0, .hostNbuCommand 0 0 256 0 0, .hostNbuCommand 0 0 0 256 0, .hostNbuCommand 0 0 0 0 (2 ^ 16),
     .hostNbuCommandStart 256 0 0, .hostNbuCommandStart 0 (2 ^ 28) 0, .hostNbuCommandStart 0 0 11,
     .ferryArbitrationRound 256 0 0 0, .ferryArbitrationRound 0 (2 ^ 28) 0 0, .ferryArbitrationRound 0 0 256 0,
     .ferryArbitrationRound 0 0 0 256, .quayDoorbell 17 0 0, .quayDoorbell 0 64 0, .quayDoorbell 0 0 (2 ^ 32),
     .quayConsumerWrite 17 0 0, .quayConsumerWrite 0 64 0, .quayConsumerWrite 0 0 (2 ^ 32),
     .quayHeaderRead 64 (List.replicate 64 0) false, .quayHeaderRead 0 (List.replicate 63 0) false,
     .quayHeaderRead 0 (List.replicate 64 256) false, .quayDeliveryStart 64, .quayDeliveryComplete ⟨64, false⟩,
     .quayEmitOffset 64, .quayPeekRead 17 0 0, .quayPeekRead 0 64 0, .quayPeekRead 0 0 (2 ^ 64), .quayIdleTimeout 64,
     .quayEnable 17 0 0, .quayEnable 0 64 0, .quayEnable 0 0 (2 ^ 32), .quayDisable 17 0 0, .quayDisable 0 64 0,
     .quayDisable 0 0 (2 ^ 32), .bollardAdd ⟨18, false⟩ 0 0, .bollardAdd ⟨0, false⟩ 4096 0, .bollardAdd ⟨0, false⟩ 0 (2 ^ 32),
     .bollardTas ⟨18, false⟩ 0 4, .bollardTas ⟨0, false⟩ 32768 4, .bollardTas ⟨0, false⟩ 0 3, .waiterArm 18 0 0,
     .waiterArm 0 256 0, .waiterArm 0 0 (2 ^ 32), .waiterDisarm 18 0 0, .waiterDisarm 0 256 0, .waiterDisarm 0 0 (2 ^ 32),
     .waiterTimeout 256, .linkTrained 16 0 false false, .linkTrained 0 17 false false, .bar0BadRequest 17 0 false,
     .bar0BadRequest 0 (2 ^ 16) false, .malformedTlp 17 ⟨0, List.replicate 12 0⟩ .malformed] : List Instr).any Instr.wf) = false := by decide +kernel

theorem test_ill_formed_3 : ((
    [.malformedTlp 0 ⟨(2 ^ 16), List.replicate 12 0⟩ .malformed, .malformedTlp 0 ⟨0, List.replicate 11 0⟩ .malformed,
     .malformedTlp 0 ⟨0, List.replicate 29 0⟩ .malformed, .malformedTlp 0 ⟨0, List.replicate 12 256⟩ .malformed,
     .bar2Request ⟨(2 ^ 16), List.replicate 12 0⟩ 0 0 false [] false,
     .bar2Request ⟨0, List.replicate 12 0⟩ (2 ^ 37) 0 false [] false,
     .bar2Request ⟨0, List.replicate 12 0⟩ 0 4097 false [] false,
     .bar2Request ⟨0, List.replicate 12 0⟩ 0 0 false (List.replicate 4097 0) false,
     .bar2Request ⟨0, List.replicate 12 0⟩ 0 0 false [256] false, .bar2Request ⟨0, List.replicate 11 0⟩ 0 0 false [] false,
     .bar2Request ⟨0, List.replicate 29 0⟩ 0 0 false [] false, .bar2Request ⟨0, List.replicate 12 256⟩ 0 0 false [] false,
     .bar2RequestExpiry (2 ^ 16), .bar2WindowWrite 128 0, .bar2WindowWrite 0 8, .dmaEnable 8 0, .dmaEnable 0 (2 ^ 32),
     .dmaDisable 8 0, .dmaDisable 0 (2 ^ 32), .dmaDoorbell 8 0, .dmaDoorbell 0 (2 ^ 32),
     .dmaDescriptorStart 8 (List.replicate 32 0) 0, .dmaDescriptorStart 0 (List.replicate 31 0) 0,
     .dmaDescriptorStart 0 (List.replicate 32 256) 0, .dmaDescriptorStart 0 (List.replicate 32 0) 3, .dmaTransferComplete 8,
     .dmaResume 8, .vfFlr 17, .vfFlr 0, .d3hotEntry 17, .codewordReceive 8 0 false false 0,
     .codewordReceive 0 (2 ^ 16) false false 0, .codewordReceive 0 0 false false (2 ^ 28), .lockingTimeout 8,
     .pmdTrainingComplete 8 0, .pmdTrainingComplete 0 (2 ^ 28), .flitReceive 8 (List.replicate 256 0) false,
     .flitReceive 0 (List.replicate 255 0) false, .flitReceive 0 (List.replicate 256 256) false,
     .dataFlitReceive 8 (List.replicate 256 0) false 0, .dataFlitReceive 0 (List.replicate 255 0) false 0,
     .dataFlitReceive 0 (List.replicate 256 256) false 0, .dataFlitReceive 0 (List.replicate 256 0) false (2 ^ 28),
     .timeFlitReceive 8 (List.replicate 256 0) false 0 0 0, .timeFlitReceive 0 (List.replicate 255 0) false 0 0 0,
     .timeFlitReceive 0 (List.replicate 256 256) false 0 0 0, .timeFlitReceive 0 (List.replicate 256 0) false (2 ^ 16) 0 0,
     .timeFlitReceive 0 (List.replicate 256 0) false 0 4 0, .timeFlitReceive 0 (List.replicate 256 0) false 0 0 (2 ^ 74),
     .timeReplyReceive 8 (List.replicate 256 0) false 0 0, .timeReplyReceive 0 (List.replicate 255 0) false 0 0,
     .timeReplyReceive 0 (List.replicate 256 256) false 0 0, .timeReplyReceive 0 (List.replicate 256 0) false (2 ^ 16) 0,
     .timeReplyReceive 0 (List.replicate 256 0) false 0 (2 ^ 74), .heartbeatReceive 8 (List.replicate 256 0) false,
     .heartbeatReceive 0 (List.replicate 255 0) false, .heartbeatReceive 0 (List.replicate 256 256) false,
     .protestReceive 8 (List.replicate 256 0) false, .protestReceive 0 (List.replicate 255 0) false,
     .protestReceive 0 (List.replicate 256 256) false, .retrainReceive 8 (List.replicate 256 0) false,
     .retrainReceive 0 (List.replicate 255 0) false, .retrainReceive 0 (List.replicate 256 256) false, .timeFlitSend 8 0 0,
     .timeFlitSend 0 4 0, .timeFlitSend 0 0 (2 ^ 64), .timeReplySend 8 0, .timeReplySend 0 (2 ^ 64), .heartbeatSend 8,
     .protestSend 8, .dataSlotTransmit 8 0 0, .dataSlotTransmit 0 4096 0, .dataSlotTransmit 0 0 512, .receiveBufferDiscard 8 0,
     .receiveBufferDiscard 0 4096, .quarantineWindowEnd 8, .quarantineClear 8 0, .quarantineClear 0 (2 ^ 28), .portEnable 8,
     .portDisable 8] : List Instr).any Instr.wf) = false := by decide +kernel

theorem test_ill_formed_4 : ((
    [.retrainRequest 8, .retrainTick 8, .fecWindowEnd 8 0, .fecWindowEnd 0 (2 ^ 64), .dpolicyWrite (2 ^ 32),
     .imageLoadStart (2 ^ 32), .imageCheckEnd (some [256]), .imageCancel (2 ^ 32), .keyRevoke (2 ^ 32), .domainOnRequest 18,
     .domainOnRequest 1, .domainOffRequest 18 0, .domainOffRequest 1 0, .domainOffRequest 2 (2 ^ 28),
     .sequencerStepComplete ⟨18, 0⟩ false, .sequencerStepComplete ⟨0, (2 ^ 28)⟩ false, .powerGoodTimeout 18 0,
     .powerGoodTimeout 0 (2 ^ 28), .holdOffExpiry 18, .railOutOfRegulation 13 0, .railOutOfRegulation 0 (2 ^ 28),
     .clockLockLoss 60 0, .clockLockLoss 0 (2 ^ 28), .overpower (2 ^ 28), .avsAdjust 4 false false 0,
     .avsAdjust 0 false false (2 ^ 28), .avsWriteTimeout 4, .powerSample [] 0, .powerSample (List.replicate 13 (2 ^ 16, 0)) 0,
     .powerSample (List.replicate 13 (0, 2 ^ 16)) 0, .powerSample (List.replicate 13 (0, 0)) (2 ^ 32), .hostCapWrite (2 ^ 32),
     .sensorConversion 428 0 0 0, .sensorConversion 0 (2 ^ 32) 0 0, .sensorConversion 0 0 (2 ^ 64) 0,
     .sensorConversion 0 0 0 (2 ^ 28), .thermalShutdown (2 ^ 28), .shutdownLatchClear (2 ^ 32), .thresholdWrite false (2 ^ 32),
     .stopChannelChange false false (2 ^ 28), .stopLatchClear (2 ^ 32), .channelFaultClear (2 ^ 32), .swoCommand 2 0,
     .swoCommand 0 (2 ^ 32), .swoTrip 2, .swoRetry 2, .swoRetryReset 2, .backfeedLatch 2, .backfeedClear 2 0 0,
     .backfeedClear 0 (2 ^ 32) 0, .backfeedClear 0 0 (2 ^ 16), .loopCommand (2 ^ 32),
     .loopHeadroomMeasure (2 ^ 16) 0 0 (List.replicate 2 (0, 0)), .loopHeadroomMeasure 0 (2 ^ 16) 0 (List.replicate 2 (0, 0)),
     .loopHeadroomMeasure 0 0 (2 ^ 16) (List.replicate 2 (0, 0)), .loopHeadroomMeasure 0 0 0 [],
     .loopHeadroomMeasure 0 0 0 (List.replicate 2 (2 ^ 16, 0)), .loopHeadroomMeasure 0 0 0 (List.replicate 2 (0, 2 ^ 16)),
     .keelAppend 9 [], .keelAppend 0 [], .keelAppend 1 (List.replicate 4077 0), .keelAppend 1 [256],
     .keelWriteTransfer (.read 31) 0 false, .keelWriteTransfer (.read 4097) 0 false, .keelWriteTransfer .status (2 ^ 28) false,
     .keelRead (2 ^ 32), .keelHostAppend (2 ^ 32), .keelCompact (2 ^ 32), .checkpointRequest (2 ^ 32) 0,
     .checkpointRequest 0 (2 ^ 64), .pieceReceive 8 0 0, .pieceReceive 0 4096 0, .pieceReceive 0 0 (2 ^ 16),
     .sealReceive 8 0 0, .sealReceive 0 4096 0, .sealReceive 0 0 (2 ^ 16), .ackReceive 8 0 0 0, .ackReceive 0 4096 0 0,
     .ackReceive 0 0 (2 ^ 16) 0, .ackReceive 0 0 0 (2 ^ 64)] : List Instr).any Instr.wf) = false := by decide +kernel

theorem test_ill_formed_5 : ((
    [.missReceive 8 0 0, .missReceive 0 4096 0, .missReceive 0 0 (2 ^ 16), .nakReceive 8 0 0 0, .nakReceive 0 4096 0 0,
     .nakReceive 0 0 (2 ^ 16) 0, .nakReceive 0 0 0 (2 ^ 64), .abandonExpiry (2 ^ 64), .checkpointEnable (2 ^ 32) 0,
     .checkpointEnable 0 (2 ^ 64), .checkpointDisable (2 ^ 32) 0, .checkpointDisable 0 (2 ^ 64), .clearMaps (2 ^ 32) 0,
     .clearMaps 0 (2 ^ 64), .refugeReset (2 ^ 32) 0, .refugeReset 0 (2 ^ 64), .restoreStart (2 ^ 32),
     .ownershipRequest 8 0 0 none, .ownershipRequest 0 (2 ^ 64) 0 none, .ownershipRequest 0 0 (2 ^ 64) none,
     .ownershipRequest 0 0 0 (some 8), .mailboxBadOpcode 256, .mailboxCommandEnd (some (2 ^ 32)), .setEndpointId false 256,
     .getMctpVersionSupport false 256, .unsupportedControlCommand false 256, .spdmRequest 3 .certificates,
     .getPldmVersion false 256, .getPldmCommands false 256, .getPdr false (2 ^ 32), .getSensorReading false (2 ^ 16),
     .getSensorThresholds false (2 ^ 16), .setNumericSensorEnable false (2 ^ 16) false,
     .setStateEffecterStates false (2 ^ 16) 0 0, .setStateEffecterStates false 0 256 0,
     .setStateEffecterStates false 0 0 (2 ^ 28), .getStateEffecterStates false (2 ^ 16),
     .setNumericEffecterValue false (2 ^ 16) 0, .setNumericEffecterValue false 0 (2 ^ 32),
     .getNumericEffecterValue false (2 ^ 16), .setEventReceiver false 256, .pilLock (2 ^ 32), .samplePreload [true] [],
     .bypass 256, .eventUnfreeze (2 ^ 32), .stackFillEnd 4, .hostReadCompletion ⟨72, List.replicate 12 0⟩ 0 [],
     .hostReadCompletion ⟨0, List.replicate 12 0⟩ 3 [], .hostReadCompletion ⟨0, List.replicate 12 0⟩ 0 [256],
     .hostReadCompletion ⟨0, List.replicate 11 0⟩ 0 [], .hostReadCompletion ⟨0, List.replicate 29 0⟩ 0 [],
     .hostReadCompletion ⟨0, List.replicate 12 256⟩ 0 [], .completionTimeout 72, .d3hotExit 17] : List Instr).any Instr.wf) = false := by decide +kernel

theorem test_well_formed_1 : ((
    [.registerWrite 0 0 4 0, .readClear 0 0 4, .aonPhase 0, .pilotPhase (false, true) 0, .selfTestPhase [] [], .release 0,
     .moduleReset 0, .pilotWatchdogExpiry 0, .computeResetRequest 0, .computeResetStart 0, .computeResetSelfTestEnd [],
     .computeResetEnd 0, .rackTick 0, .localFrameBoundary 0, .uncorrectableReadDetect ⟨0, 0, false⟩, .voidPoint 0 0,
     .arrayRampDownEnd ⟨0, 0⟩, .nop 0, .loop 0, .mac 0, .l1 0, .l2sq 0, .max 0, .min 0, .vadd 0, .vsub 0, .vmul 0, .vfma 0,
     .vmax 0, .vmin 0, .vcvt 0, .vfn 0, .vrsum 0, .vrmax 0, .vsel 0, .vmov 0, .sargmax 0, .sboxdec 0, .snms 0, .lift 0,
     .lower 0, .mergeEntryTimeout ⟨0, 0⟩, .mergeCommit ⟨0, 0⟩, .csend 0, .crecv 0, .hsend 0, .hrecv 0, .ferry 0 0, .bend 0,
     .scheduleLoadStart 0, .scheduleCheckEnd none, .quiesce 0, .resume 0, .off 0 0, .on 0, .lagoonFillEnd 0, .islStateRead 0 4,
     .refreshSlot ⟨0, 0⟩, .selfTimedRefreshSlot 0, .scrubStep 0 0, .lagoonScrub 0 [], .sensorCalibration ⟨0, 0⟩ 0,
     .hostSliceAccess 0 0, .ceWindowEnd 0 0, .keyLoad 0 0, .keyZeroize 0 0, .flipArm 0 0, .hostviewWrite 0, .nbuFill 0 0,
     .nbuCopy 0 0, .nbuAcc 0 0, .nbuAxpby 0 0, .nbuAdamw 0 0, .nbuSumsq 0 0, .nbuOperationEnd 0 [], .hostNbuCommand 0 0 0 0 0,
     .hostNbuCommandStart 0 0 0, .ferryArbitrationRound 0 0 0 0, .quayDoorbell 0 0 0, .quayConsumerWrite 0 0 0,
     .quayHeaderRead 0 (List.replicate 64 0) false, .quayDeliveryStart 0, .quayDeliveryComplete ⟨0, false⟩, .quayEmitOffset 0,
     .quayPeekRead 0 0 0, .quayIdleTimeout 0, .quayEnable 0 0 0, .quayDisable 0 0 0, .bollardAdd ⟨0, false⟩ 0 0,
     .bollardTas ⟨0, false⟩ 0 4, .waiterArm 0 0 0, .waiterDisarm 0 0 0, .waiterTimeout 0, .linkTrained 0 0 false false,
     .bar0BadRequest 0 0 false, .malformedTlp 0 ⟨0, List.replicate 12 0⟩ .malformed,
     .bar2Request ⟨0, List.replicate 12 0⟩ 0 0 false [] false, .bar2RequestExpiry 0, .bar2WindowWrite 0 0, .dmaEnable 0 0,
     .dmaDisable 0 0, .dmaDoorbell 0 0, .dmaDescriptorStart 0 (List.replicate 32 0) 0, .dmaTransferComplete 0, .dmaResume 0,
     .vfFlr 1, .d3hotEntry 0, .codewordReceive 0 0 false false 0, .lockingTimeout 0, .pmdTrainingComplete 0 0,
     .flitReceive 0 (List.replicate 256 0) false, .dataFlitReceive 0 (List.replicate 256 0) false 0,
     .timeFlitReceive 0 (List.replicate 256 0) false 0 0 0, .timeReplyReceive 0 (List.replicate 256 0) false 0 0,
     .heartbeatReceive 0 (List.replicate 256 0) false, .protestReceive 0 (List.replicate 256 0) false,
     .retrainReceive 0 (List.replicate 256 0) false, .timeFlitSend 0 0 0, .timeReplySend 0 0, .heartbeatSend 0] : List Instr).all Instr.wf) = true := by decide +kernel

theorem test_well_formed_2 : ((
    [.protestSend 0, .dataSlotTransmit 0 0 0, .receiveBufferDiscard 0 0, .quarantineWindowEnd 0, .quarantineClear 0 0,
     .portEnable 0, .portDisable 0, .retrainRequest 0, .retrainTick 0, .fecWindowEnd 0 0, .dpolicyWrite 0, .imageLoadStart 0,
     .imageCheckEnd none, .imageCancel 0, .keyRevoke 0, .domainOnRequest 2, .domainOffRequest 2 0,
     .sequencerStepComplete ⟨0, 0⟩ false, .powerGoodTimeout 0 0, .holdOffExpiry 0, .railOutOfRegulation 0 0,
     .clockLockLoss 0 0, .overpower 0, .avsAdjust 0 false false 0, .avsWriteTimeout 0,
     .powerSample (List.replicate 13 (0, 0)) 0, .hostCapWrite 0, .sensorConversion 0 0 0 0, .thermalShutdown 0,
     .shutdownLatchClear 0, .thresholdWrite false 0, .stopChannelChange false false 0, .stopLatchClear 0, .channelFaultClear 0,
     .swoCommand 0 0, .swoTrip 0, .swoRetry 0, .swoRetryReset 0, .backfeedLatch 0, .backfeedClear 0 0 0, .loopCommand 0,
     .loopHeadroomMeasure 0 0 0 (List.replicate 2 (0, 0)), .keelAppend 1 [], .keelWriteTransfer .status 0 false, .keelRead 0,
     .keelHostAppend 0, .keelCompact 0, .checkpointRequest 0 0, .pieceReceive 0 0 0, .sealReceive 0 0 0, .ackReceive 0 0 0 0,
     .missReceive 0 0 0, .nakReceive 0 0 0 0, .abandonExpiry 0, .checkpointEnable 0 0, .checkpointDisable 0 0, .clearMaps 0 0,
     .refugeReset 0 0, .restoreStart 0, .ownershipRequest 0 0 0 none, .mailboxBadOpcode 0, .mailboxCommandEnd none,
     .setEndpointId false 0, .getMctpVersionSupport false 0, .unsupportedControlCommand false 0, .spdmRequest 0 .certificates,
     .getPldmVersion false 0, .getPldmCommands false 0, .getPdr false 0, .getSensorReading false 0,
     .getSensorThresholds false 0, .setNumericSensorEnable false 0 false, .setStateEffecterStates false 0 0 0,
     .getStateEffecterStates false 0, .setNumericEffecterValue false 0 0, .getNumericEffecterValue false 0,
     .setEventReceiver false 0, .pilLock 0, .samplePreload [] [], .bypass 0, .eventUnfreeze 0, .stackFillEnd 0,
     .hostReadCompletion ⟨0, List.replicate 12 0⟩ 0 [], .completionTimeout 0, .d3hotExit 0] : List Instr).all Instr.wf) = true := by decide +kernel


/-! Published vectors, and the words of the table. -/

/-- CRC-32C of the digits 1 to 9 (RFC 3720), SHA-256 of the letters abc (FIPS 180-4) and the S-box at 53
(FIPS 197). -/
theorem test_published_vectors : [
    crc32c [0x31, 0x32, 0x33, 0x34, 0x35, 0x36, 0x37, 0x38, 0x39] == 0xE3069283,
    sha256 [0x61#8, 0x62#8, 0x63#8] == 0xba7816bf8f01cfea414140de5dae2223b00361a396177a9cb410ff61f20015ad,
    aesSub 0x53 == 0xED && aesSubInv 0xED == 0x53] = List.replicate 3 true := by decide +kernel

/-- No word spells a command, and a word placed changes nothing. -/
theorem test_no_word_spells_a_command (nbits w : Nat) (s : State) :
    decodeTableWord nbits w = none ∧ s.withFetchWord nbits w = s := ⟨rfl, rfl⟩
end Sys2Proof.Machine.Tests
end

section
/-!
SUPPORT. Arithmetic of the symbols of stored words (R302): on bytes, `gfMul` is commutative and associative and distributes over
exclusive or, so `gfDot` is bilinear.
-/
namespace Sys2Proof.Machine

/-! Exclusive or, where the core library stops. -/

theorem xor_left_comm_nat (a b c : Nat) : a ^^^ (b ^^^ c) = b ^^^ (a ^^^ c) := by
  rw [← Nat.xor_assoc, Nat.xor_comm a b, Nat.xor_assoc]

theorem xor_cancel_left_nat (a b : Nat) : a ^^^ (a ^^^ b) = b := by
  rw [← Nat.xor_assoc, Nat.xor_self, Nat.zero_xor]

theorem xor_eq_zero_iff_eq {a b : Nat} : a ^^^ b = 0 ↔ a = b := by
  constructor
  · intro h
    rw [← xor_cancel_left_nat a b, h, Nat.xor_zero]
  · rintro rfl
    exact Nat.xor_self a

/-! Doubling. -/

/-- Doubling without the comparison of a sum: a shift, reduced when the top bit is set. -/
theorem gfDouble_eq_shift {a : Nat} (ha : a < 256) :
    gfDouble a = (a <<< 1) ^^^ (if a.testBit 7 then 0x11D else 0) := by
  have top : a.testBit 7 = decide (128 ≤ a) := by
    rw [Nat.testBit_eq_decide_div_mod_eq]
    exact decide_eq_decide.mpr (by omega)
  have shift : a <<< 1 = 2 * a := by rw [Nat.shiftLeft_eq]; omega
  rw [top, shift]
  by_cases h : 128 ≤ a
  · have : 2 * a ≥ 256 := by omega
    simp [gfDouble, h, this]
  · have : ¬ 2 * a ≥ 256 := by omega
    simp [gfDouble, h, this]

theorem gfDouble_xor {a b : Nat} (ha : a < 256) (hb : b < 256) : gfDouble (a ^^^ b) = gfDouble a ^^^ gfDouble b := by
  rw [gfDouble_eq_shift (Nat.xor_lt_two_pow (n := 8) ha hb), gfDouble_eq_shift ha, gfDouble_eq_shift hb,
    Nat.shiftLeft_xor_distrib, Nat.testBit_xor]
  cases a.testBit 7 <;> cases b.testBit 7 <;> simp [Nat.xor_assoc, Nat.xor_comm, xor_left_comm_nat]

theorem gfDouble_lt {a : Nat} (ha : a < 256) : gfDouble a < 256 := by
  revert a
  decide +kernel

theorem gfAlpha_lt (n : Nat) : gfAlpha n < 256 := by
  induction n with
  | zero => decide
  | succ n ih => exact gfDouble_lt ih

/-! Multiplication, by the bits of its second factor. -/

theorem gfMulFrom_succ (k a b : Nat) :
    gfMulFrom (k + 1) a b = (if b % 2 = 1 then a else 0) ^^^ gfMulFrom k (gfDouble a) (b / 2) := rfl

theorem gfMulFrom_lt (k b : Nat) {a : Nat} (ha : a < 256) : gfMulFrom k a b < 256 := by
  induction k generalizing a b with
  | zero => simp [gfMulFrom]
  | succ k ih =>
    rw [gfMulFrom_succ]
    refine Nat.xor_lt_two_pow (n := 8) ?_ (ih _ (gfDouble_lt ha))
    split <;> omega

theorem gfMulFrom_zero_left (k b : Nat) : gfMulFrom k 0 b = 0 := by
  induction k generalizing b with
  | zero => rfl
  | succ k ih =>
    have double : gfDouble 0 = 0 := rfl
    simp [gfMulFrom_succ, double, ih]

theorem gfMulFrom_zero_right (k a : Nat) : gfMulFrom k a 0 = 0 := by
  induction k generalizing a with
  | zero => rfl
  | succ k ih => simp [gfMulFrom_succ, ih]

theorem gfMulFrom_xor_left (k c : Nat) {a b : Nat} (ha : a < 256) (hb : b < 256) :
    gfMulFrom k (a ^^^ b) c = gfMulFrom k a c ^^^ gfMulFrom k b c := by
  induction k generalizing a b c with
  | zero => simp [gfMulFrom]
  | succ k ih =>
    simp only [gfMulFrom_succ, gfDouble_xor ha hb, ih _ (gfDouble_lt ha) (gfDouble_lt hb)]
    split <;> simp [Nat.xor_assoc, xor_left_comm_nat]

theorem gfMulFrom_xor_right (k a b c : Nat) : gfMulFrom k a (b ^^^ c) = gfMulFrom k a b ^^^ gfMulFrom k a c := by
  induction k generalizing a b c with
  | zero => simp [gfMulFrom]
  | succ k ih =>
    simp only [gfMulFrom_succ, Nat.xor_div_two, ih, Nat.xor_mod_two_eq_one]
    by_cases hb : b % 2 = 1 <;> by_cases hc : c % 2 = 1 <;>
      simp only [hb, hc, iff_true, iff_false, not_true_eq_false, not_false_eq_true, if_true, if_false, Nat.zero_xor,
        Nat.xor_assoc, xor_left_comm_nat, xor_cancel_left_nat]

theorem gfMulFrom_gfDouble (k b : Nat) {a : Nat} (ha : a < 256) :
    gfMulFrom k (gfDouble a) b = gfDouble (gfMulFrom k a b) := by
  induction k generalizing a b with
  | zero => rfl
  | succ k ih =>
    have low : (if b % 2 = 1 then a else 0) < 256 := by split <;> omega
    rw [gfMulFrom_succ, gfMulFrom_succ, gfDouble_xor low (gfMulFrom_lt _ _ (gfDouble_lt ha)), ih _ (gfDouble_lt ha)]
    congr 1
    split <;> rfl

theorem gfMul_lt (b : Nat) {a : Nat} (ha : a < 256) : gfMul a b < 256 := gfMulFrom_lt 8 b ha

@[simp] theorem gfMul_zero_left (b : Nat) : gfMul 0 b = 0 := gfMulFrom_zero_left 8 b

@[simp] theorem gfMul_zero_right (a : Nat) : gfMul a 0 = 0 := gfMulFrom_zero_right 8 a

theorem gfMul_xor_left (c : Nat) {a b : Nat} (ha : a < 256) (hb : b < 256) :
    gfMul (a ^^^ b) c = gfMul a c ^^^ gfMul b c := gfMulFrom_xor_left 8 c ha hb

theorem gfMul_xor_right (a b c : Nat) : gfMul a (b ^^^ c) = gfMul a b ^^^ gfMul a c := gfMulFrom_xor_right 8 a b c

theorem gfMul_one_left {a : Nat} (ha : a < 256) : gfMul 1 a = a := by
  revert a
  decide +kernel

theorem gfMul_one_right (a : Nat) : gfMul a 1 = a := by
  simp [gfMul, gfMulFrom_succ, gfMulFrom_zero_right]

/-- The multiples of `b` by `a` and by `c` can be taken in either order. -/
theorem gfMulFrom_gfMul (k a c : Nat) {b : Nat} (hb : b < 256) :
    gfMulFrom k (gfMul b a) c = gfMul (gfMulFrom k b c) a := by
  induction k generalizing b c with
  | zero => exact (gfMul_zero_left a).symm
  | succ k ih =>
    have low : (if c % 2 = 1 then b else 0) < 256 := by split <;> omega
    have double : gfDouble (gfMul b a) = gfMul (gfDouble b) a := (gfMulFrom_gfDouble 8 a hb).symm
    rw [gfMulFrom_succ, gfMulFrom_succ, gfMul_xor_left a low (gfMulFrom_lt _ _ (gfDouble_lt hb)), double,
      ih _ (gfDouble_lt hb)]
    split <;> simp

theorem gfMul_right_comm (a c : Nat) {b : Nat} (hb : b < 256) : gfMul (gfMul b a) c = gfMul (gfMul b c) a :=
  gfMulFrom_gfMul 8 a c hb

theorem gfMul_comm {a b : Nat} (ha : a < 256) (hb : b < 256) : gfMul a b = gfMul b a :=
  calc gfMul a b = gfMul (gfMul 1 a) b := by rw [gfMul_one_left ha]
    _ = gfMul (gfMul 1 b) a := gfMul_right_comm a b (by decide)
    _ = gfMul b a := by rw [gfMul_one_left hb]

theorem gfMul_assoc (c : Nat) {a b : Nat} (ha : a < 256) (hb : b < 256) :
    gfMul (gfMul a b) c = gfMul a (gfMul b c) :=
  calc gfMul (gfMul a b) c = gfMul (gfMul b a) c := by rw [gfMul_comm ha hb]
    _ = gfMul (gfMul b c) a := gfMul_right_comm a c hb
    _ = gfMul a (gfMul b c) := gfMul_comm (gfMul_lt c hb) ha

/-! Sums of products. -/

@[simp] theorem gfDot_nil_left (xs : List Nat) : gfDot [] xs = 0 := rfl

@[simp] theorem gfDot_nil_right (vs : List Nat) : gfDot vs [] = 0 := by cases vs <;> rfl

@[simp] theorem gfDot_cons_cons (v x : Nat) (vs xs : List Nat) :
    gfDot (v :: vs) (x :: xs) = gfMul v x ^^^ gfDot vs xs := rfl

theorem gfDot_append (vs ws xs : List Nat) :
    gfDot (vs ++ ws) xs = gfDot vs xs ^^^ gfDot ws (xs.drop vs.length) := by
  induction vs generalizing xs with
  | nil => simp
  | cons v vs ih =>
    cases xs with
    | nil => simp
    | cons x xs => simp [ih, Nat.xor_assoc]

/-- Locators past the last symbol have no part in the sum. -/
theorem gfDot_append_right {vs xs : List Nat} (ys : List Nat) (h : vs.length ≤ xs.length) :
    gfDot vs (xs ++ ys) = gfDot vs xs := by
  induction vs generalizing xs with
  | nil => rfl
  | cons v vs ih =>
    match xs, h with
    | x :: xs, h => simp [ih (Nat.le_of_succ_le_succ h)]

theorem gfDot_lt (xs : List Nat) {vs : List Nat} (hv : ∀ v ∈ vs, v < 256) : gfDot vs xs < 256 := by
  induction vs generalizing xs with
  | nil => simp
  | cons v vs ih =>
    rw [List.forall_mem_cons] at hv
    cases xs with
    | nil => simp
    | cons x xs => exact Nat.xor_lt_two_pow (n := 8) (gfMul_lt x hv.1) (ih xs hv.2)

theorem gfDot_replicate_zero_left (n : Nat) (xs : List Nat) : gfDot (List.replicate n 0) xs = 0 := by
  induction n generalizing xs with
  | zero => rfl
  | succ n ih => cases xs <;> simp [List.replicate_succ, ih]

theorem gfDot_replicate_zero_right (n : Nat) (vs : List Nat) : gfDot vs (List.replicate n 0) = 0 := by
  induction n generalizing vs with
  | zero => simp
  | succ n ih => cases vs <;> simp [List.replicate_succ, ih]

theorem gfDot_comm {vs xs : List Nat} (hv : ∀ v ∈ vs, v < 256) (hx : ∀ x ∈ xs, x < 256) :
    gfDot vs xs = gfDot xs vs := by
  induction vs generalizing xs with
  | nil => simp
  | cons v vs ih =>
    cases xs with
    | nil => simp
    | cons x xs =>
      rw [List.forall_mem_cons] at hv hx
      simp [gfMul_comm hv.1 hx.1, ih hv.2 hx.2]

/-- A multiple of a sum of products is the sum with its second factors multiplied. -/
theorem gfMul_gfDot (c : Nat) {vs xs : List Nat} (hv : ∀ v ∈ vs, v < 256) (hx : ∀ x ∈ xs, x < 256) :
    gfMul (gfDot vs xs) c = gfDot vs (xs.map (gfMul · c)) := by
  induction vs generalizing xs with
  | nil => simp
  | cons v vs ih =>
    cases xs with
    | nil => simp
    | cons x xs =>
      rw [List.forall_mem_cons] at hv hx
      simp [gfMul_xor_left c (gfMul_lt x hv.1) (gfDot_lt xs hv.2), gfMul_assoc c hv.1 hx.1, ih hv.2 hx.2]

theorem gfDot_zipWith_xor_right {vs xs ys : List Nat} (h : xs.length = ys.length) :
    gfDot vs (xs.zipWith (· ^^^ ·) ys) = gfDot vs xs ^^^ gfDot vs ys := by
  induction vs generalizing xs ys with
  | nil => simp
  | cons v vs ih =>
    match xs, ys, h with
    | [], [], _ => simp
    | x :: xs, y :: ys, h =>
      simp [gfMul_xor_right, ih (Nat.succ.inj h), Nat.xor_assoc, xor_left_comm_nat]

end Sys2Proof.Machine
end

section
/-!
SUPPORT. Matrices over the symbols, as lists of rows. The syndromes of check bytes, and the check bytes that give syndromes, are
each a matrix applied to a list of symbols.
-/
namespace Sys2Proof.Machine

/-- The matrix with rows `m` applied to the symbols `v`. -/
def gfApply (m : List (List Nat)) (v : List Nat) : List Nat := m.map (gfDot v)

/-- The sum of the rows of `m`, `n` symbols wide, each multiplied by its factor in `xs`. -/
def gfCombine (n : Nat) : List (List Nat) → List Nat → List Nat
  | r :: rs, x :: xs => (r.map (gfMul · x)).zipWith (· ^^^ ·) (gfCombine n rs xs)
  | _, _ => List.replicate n 0

/-- The product of two matrices: `a`, `n` symbols wide, is applied first. -/
def gfProduct (n : Nat) (b a : List (List Nat)) : List (List Nat) := b.map (gfCombine n a)

/-- The matrix with 1 on its diagonal and 0 elsewhere, for four symbols. -/
def gfIdentity4 : List (List Nat) := [[1, 0, 0, 0], [0, 1, 0, 0], [0, 0, 1, 0], [0, 0, 0, 1]]

/-- A matrix of bytes, `n` symbols wide. -/
def IsByteMatrix (n : Nat) (m : List (List Nat)) : Prop := ∀ r ∈ m, r.length = n ∧ ∀ b ∈ r, b < 256

theorem gfApply_lt (m : List (List Nat)) {v : List Nat} (hv : ∀ b ∈ v, b < 256) : ∀ b ∈ gfApply m v, b < 256 := by
  intro b hb
  obtain ⟨r, -, rfl⟩ := List.mem_map.mp hb
  exact gfDot_lt r hv

theorem gfCombine_length {n : Nat} {m : List (List Nat)} (xs : List Nat) (hm : IsByteMatrix n m) :
    (gfCombine n m xs).length = n := by
  induction m generalizing xs with
  | nil => simp [gfCombine]
  | cons r m ih =>
    obtain ⟨⟨hr, -⟩, hm⟩ := List.forall_mem_cons.mp hm
    cases xs with
    | nil => simp [gfCombine]
    | cons x xs => simp [gfCombine, hr, ih xs hm]

theorem gfDot_gfApply {n : Nat} {m : List (List Nat)} {v : List Nat} (xs : List Nat) (hv : ∀ b ∈ v, b < 256)
    (hm : IsByteMatrix n m) : gfDot (gfApply m v) xs = gfDot v (gfCombine n m xs) := by
  induction m generalizing xs with
  | nil => exact (gfDot_replicate_zero_right n v).symm
  | cons r m ih =>
    obtain ⟨⟨hr, hbytes⟩, hm⟩ := List.forall_mem_cons.mp hm
    cases xs with
    | nil => exact (gfDot_nil_right _).trans (gfDot_replicate_zero_right n v).symm
    | cons x xs =>
      have width : (r.map (gfMul · x)).length = (gfCombine n m xs).length := by
        rw [List.length_map, hr, gfCombine_length xs hm]
      calc gfDot (gfApply (r :: m) v) (x :: xs) = gfMul (gfDot v r) x ^^^ gfDot (gfApply m v) xs := rfl
        _ = gfDot v (r.map (gfMul · x)) ^^^ gfDot v (gfCombine n m xs) := by rw [gfMul_gfDot x hv hbytes, ih xs hm]
        _ = gfDot v (gfCombine n (r :: m) (x :: xs)) := (gfDot_zipWith_xor_right width).symm

theorem gfApply_gfApply {n : Nat} {a : List (List Nat)} {v : List Nat} (b : List (List Nat)) (hv : ∀ x ∈ v, x < 256)
    (ha : IsByteMatrix n a) : gfApply b (gfApply a v) = gfApply (gfProduct n b a) v := by
  simp [gfApply, gfProduct, ← gfDot_gfApply _ hv ha]

theorem gfApply_gfIdentity4 {v : List Nat} (hv : v.length = 4) : gfApply gfIdentity4 v = v := by
  match v, hv with
  | [_, _, _, _], _ => simp [gfApply, gfIdentity4, gfMul_one_right]

/-! Solving for symbols at given positions. -/

/-- The matrix that takes syndromes to the symbols at the positions `ps`: in the row of a position, the polynomial with its zeros at
the other locators, divided by its value at this one. -/
def solveMatrix (ps : List Nat) : List (List Nat) :=
  ps.map (fun p =>
    let poly := locatorPoly ((ps.filter (fun q => q != p)).map gfAlpha)
    poly.map (gfMul · (gfInv (gfDot poly ((List.range poly.length).map (gfPow (gfAlpha p)))))))

theorem locatorPoly_lt {xs : List Nat} (hx : ∀ x ∈ xs, x < 256) : ∀ b ∈ locatorPoly xs, b < 256 := by
  induction xs with
  | nil => simp [locatorPoly]
  | cons x xs ih =>
    obtain ⟨hx, hxs⟩ := List.forall_mem_cons.mp hx
    intro b hb
    obtain ⟨i, hi, rfl⟩ := List.getElem_of_mem hb
    have shifted : ∀ c ∈ 0 :: locatorPoly xs, c < 256 := List.forall_mem_cons.mpr ⟨by decide, ih hxs⟩
    have scaled : ∀ c ∈ (locatorPoly xs).map (gfMul x) ++ [0], c < 256 := by
      simpa [or_imp, forall_and] using fun c _ => gfMul_lt c hx
    simp only [locatorPoly, List.getElem_zipWith]
    exact Nat.xor_lt_two_pow (n := 8) (shifted _ (List.getElem_mem _)) (scaled _ (List.getElem_mem _))

theorem solvePositions_eq_gfApply (ps : List Nat) {s : List Nat} (hs : ∀ b ∈ s, b < 256) :
    solvePositions ps s = gfApply (solveMatrix ps) s := by
  simp only [solvePositions, solveMatrix, gfApply, List.map_map]
  refine List.map_congr_left fun p _ => ?_
  have bytes : ∀ b ∈ locatorPoly ((ps.filter (fun q => q != p)).map gfAlpha), b < 256 :=
    locatorPoly_lt (List.forall_mem_map.mpr fun q _ => gfAlpha_lt q)
  rw [gfDot_comm bytes hs, gfMul_gfDot _ hs bytes]
  rfl

/-! The syndromes of a word, and the part its check bytes have in them. -/

/-- The locators α^(i·j) of the check bytes' positions in the syndrome S_j. -/
def checkRow (j : Nat) : List Nat := [32, 33, 34, 35].map (fun i => gfAlpha (i * j % 255))

/-- The matrix that takes check bytes to their part of the four syndromes. -/
def checkLocators : List (List Nat) := [checkRow 0, checkRow 1, checkRow 2, checkRow 3]

theorem isByteMatrix_checkLocators : IsByteMatrix 4 checkLocators := by
  unfold IsByteMatrix
  decide +kernel

theorem isByteMatrix_solveMatrix_checks : IsByteMatrix 4 (solveMatrix [32, 33, 34, 35]) := by
  unfold IsByteMatrix
  decide +kernel

/-- The two matrices of the check bytes are inverse to each other. -/
theorem gfProduct_checkLocators_solveMatrix :
    gfProduct 4 checkLocators (solveMatrix [32, 33, 34, 35]) = gfIdentity4 := by
  decide +kernel

theorem gfProduct_solveMatrix_checkLocators :
    gfProduct 4 (solveMatrix [32, 33, 34, 35]) checkLocators = gfIdentity4 := by
  decide +kernel

theorem gfApply_checkLocators_solvePositions {s : List Nat} (hlen : s.length = 4) (hs : ∀ b ∈ s, b < 256) :
    gfApply checkLocators (solvePositions [32, 33, 34, 35] s) = s := by
  rw [solvePositions_eq_gfApply _ hs, gfApply_gfApply _ hs isByteMatrix_solveMatrix_checks,
    gfProduct_checkLocators_solveMatrix, gfApply_gfIdentity4 hlen]

theorem solvePositions_gfApply_checkLocators {c : List Nat} (hlen : c.length = 4) (hc : ∀ b ∈ c, b < 256) :
    solvePositions [32, 33, 34, 35] (gfApply checkLocators c) = c := by
  rw [solvePositions_eq_gfApply _ (gfApply_lt _ hc), gfApply_gfApply _ hc isByteMatrix_checkLocators,
    gfProduct_solveMatrix_checkLocators, gfApply_gfIdentity4 hlen]

theorem syndrome_lt (j : Nat) {v : List Nat} (hv : ∀ b ∈ v, b < 256) : syndrome v j < 256 := gfDot_lt _ hv

theorem syndromes_lt {v : List Nat} (hv : ∀ b ∈ v, b < 256) : ∀ b ∈ syndromes v, b < 256 := by
  simp [syndromes, syndrome_lt _ hv]

theorem foldedAddress_lt (o : Nat) : ∀ b ∈ foldedAddress o, b < 256 := by
  simp only [foldedAddress, bits, List.forall_mem_cons, List.not_mem_nil, false_imp_iff, implies_true, and_true]
  omega

/-- The word's own check bytes contribute to S_j by their row of locators alone. -/
theorem syndrome_checks {d c : List Nat} (f : List Nat) (j : Nat) (hd : d.length = 32) (hc : c.length = 4) :
    syndrome (d ++ c ++ f) j = syndrome (d ++ [0, 0, 0, 0] ++ f) j ^^^ gfDot c (checkRow j) := by
  have row : (symbolPositions.map (fun i => gfAlpha (i * j % 255))).drop 32 =
      checkRow j ++ [36, 37, 38, 39].map (fun i => gfAlpha (i * j % 255)) := rfl
  have zeros : ∀ xs, gfDot [0, 0, 0, 0] xs = 0 := gfDot_replicate_zero_left 4
  have inRow : c.length ≤ (checkRow j).length := Nat.le_of_eq hc
  simp only [syndrome, gfDot_append, List.length_append, hd, hc, zeros, row, gfDot_append_right _ inRow, List.length_cons,
    List.length_nil, Nat.xor_zero, Nat.reduceAdd]
  rw [Nat.xor_assoc, Nat.xor_comm (gfDot c _), ← Nat.xor_assoc]

/-- The syndromes are zero just when the check bytes' part of them cancels what the rest of the word gives. -/
theorem syndromes_eq_zero_iff {d c : List Nat} (f : List Nat) (hd : d.length = 32) (hc : c.length = 4) :
    syndromes (d ++ c ++ f) = [0, 0, 0, 0] ↔ gfApply checkLocators c = syndromes (d ++ [0, 0, 0, 0] ++ f) := by
  rw [eq_comm (a := gfApply checkLocators c)]
  simp only [syndromes, syndrome_checks f _ hd hc, gfApply, checkLocators, List.map_cons, List.map_nil, List.cons.injEq,
    xor_eq_zero_iff_eq]

theorem checkBytes_length (d : List Nat) (o : Nat) : (checkBytes d o).length = 4 := rfl

/-- The syndromes a writer solves for: those of its data and folded address with the check bytes at 0. -/
theorem syndromes_unchecked_lt {d : List Nat} (o : Nat) (hd : ∀ b ∈ d, b < 256) :
    ∀ b ∈ syndromes (d ++ [0, 0, 0, 0] ++ foldedAddress o), b < 256 := by
  refine syndromes_lt ?_
  simpa [or_imp, forall_and] using ⟨hd, foldedAddress_lt o⟩

theorem checkBytes_lt {d : List Nat} (o : Nat) (hd : ∀ b ∈ d, b < 256) : ∀ b ∈ checkBytes d o, b < 256 := by
  have bytes := syndromes_unchecked_lt o hd
  rw [checkBytes, solvePositions_eq_gfApply _ bytes]
  exact gfApply_lt _ bytes

theorem syndromes_encodeWord {d : List Nat} (o : Nat) (hlen : d.length = 32) (hd : ∀ b ∈ d, b < 256) :
    syndromes (encodeWord d o ++ foldedAddress o) = [0, 0, 0, 0] :=
  (syndromes_eq_zero_iff _ hlen (checkBytes_length d o)).mpr
    (gfApply_checkLocators_solvePositions rfl (syndromes_unchecked_lt o hd))

theorem eq_checkBytes_of_syndromes_eq_zero {d c : List Nat} {o : Nat} (hd : d.length = 32) (hlen : c.length = 4)
    (hc : ∀ b ∈ c, b < 256) (hzero : syndromes (d ++ c ++ foldedAddress o) = [0, 0, 0, 0]) : c = checkBytes d o := by
  rw [checkBytes, ← (syndromes_eq_zero_iff _ hd hlen).mp hzero, solvePositions_gfApply_checkLocators hlen hc]

/-- Settles O7: the check bytes solve a four-by-four system over the symbols, whose matrix has an inverse. -/
theorem checkBytesZeroTheSyndromes : Obligations.CheckBytesZeroTheSyndromes := by
  intro d o hlen hd
  exact ⟨syndromes_encodeWord o hlen hd, checkBytes_length d o, checkBytes_lt o hd,
    fun _ => eq_checkBytes_of_syndromes_eq_zero hlen⟩

end Sys2Proof.Machine
end

section
/-!
SUPPORT. Index writes of quays (R386, R392): when a request takes effect at once (R424, R444), and what a write of a reached
quay does in each case.
-/
namespace Sys2Proof.Machine

variable {s : State} {func q v : Nat}

/-- A request that follows no BAR2 write, of a function other than the physical one or with none held, is not held. -/
theorem ordered_nil_of_none_held (cmd : Instr) (now : State → State) (none_held : func ≠ 0 ∨ s.hif.held = []) :
    ordered func [] cmd now s = now s := by
  rcases none_held with other | empty
  · simp [ordered, other]
  · simp [ordered, empty]

theorem exec_quayDoorbell_of_none_held (none_held : func ≠ 0 ∨ s.hif.held = []) :
    exec (.quayDoorbell func q v) s = .next (quayDoorbell func q v s) :=
  congrArg _ (ordered_nil_of_none_held _ _ none_held)

theorem exec_quayConsumerWrite_of_none_held (none_held : func ≠ 0 ∨ s.hif.held = []) :
    exec (.quayConsumerWrite func q v) s = .next (quayConsumerWrite func q v s) :=
  congrArg _ (ordered_nil_of_none_held _ _ none_held)

/-! Producer indices. -/

theorem quayDoorbell_of_reached (reached : quayReached s func q false = true) :
    quayDoorbell func q v s =
      if 2 ^ 31 ≤ idxSub v (quayPi s q) ∨ ringWords s q < idxSub v (quayCi s q) then indexRefused q s
      else s.set (R.QUA_PROD_PI.at [q]) v := by
  simp [quayDoorbell, reached]

theorem quayDoorbell_taken (reached : quayReached s func q false = true) (ahead : idxSub v (quayPi s q) < 2 ^ 31)
    (fits : idxSub v (quayCi s q) ≤ ringWords s q) : quayDoorbell func q v s = s.set (R.QUA_PROD_PI.at [q]) v := by
  rw [quayDoorbell_of_reached reached, if_neg (not_or.mpr ⟨Nat.not_le.mpr ahead, Nat.not_lt.mpr fits⟩)]

theorem quayDoorbell_refused (reached : quayReached s func q false = true)
    (bad : 2 ^ 31 ≤ idxSub v (quayPi s q) ∨ ringWords s q < idxSub v (quayCi s q)) :
    quayDoorbell func q v s = indexRefused q s := by
  rw [quayDoorbell_of_reached reached, if_pos bad]

/-! Consumer indices. -/

theorem quayConsumerWrite_of_reached (reached : quayReached s func q true = true) :
    quayConsumerWrite func q v s =
      if occupancy s q < idxSub v (quayCi s q) then indexRefused q s
      else if idxSub v (quayCi s q) = 0 then s
      else restartIdle q (s.set (R.QUA_CONS_CI.at [q]) v) := by
  simp [quayConsumerWrite, reached]

theorem quayConsumerWrite_taken (reached : quayReached s func q true = true) (advances : 0 < idxSub v (quayCi s q))
    (within : idxSub v (quayCi s q) ≤ occupancy s q) :
    quayConsumerWrite func q v s = restartIdle q (s.set (R.QUA_CONS_CI.at [q]) v) := by
  rw [quayConsumerWrite_of_reached reached, if_neg (Nat.not_lt.mpr within), if_neg (Nat.ne_of_gt advances)]

theorem quayConsumerWrite_unmoved (reached : quayReached s func q true = true) (same : idxSub v (quayCi s q) = 0) :
    quayConsumerWrite func q v s = s := by
  have within : ¬ occupancy s q < idxSub v (quayCi s q) := by omega
  rw [quayConsumerWrite_of_reached reached, if_neg within, if_pos same]

theorem quayConsumerWrite_refused (reached : quayReached s func q true = true)
    (past : occupancy s q < idxSub v (quayCi s q)) : quayConsumerWrite func q v s = indexRefused q s := by
  rw [quayConsumerWrite_of_reached reached, if_pos past]

end Sys2Proof.Machine
end

section
/-!
PROOF. Quays (R386, R392, R410).
-/
namespace Sys2Proof.Machine

/-- Settles O25: the write waits behind no other request, so it takes effect at once, and each clause is one case of it. -/
theorem quayIndexWrites : Obligations.QuayIndexWrites := by
  intro s func q v none_held
  rw [exec_quayDoorbell_of_none_held none_held, exec_quayConsumerWrite_of_none_held none_held]
  refine ⟨?_, ?_, ?_, ?_, ?_⟩
  · intro reached ahead fits
    rw [quayDoorbell_taken reached ahead fits]
  · intro reached bad
    rw [quayDoorbell_refused reached bad, indexRefused]
  · intro reached advances within
    rw [quayConsumerWrite_taken reached advances within, restartIdle]
  · intro reached same
    rw [quayConsumerWrite_unmoved reached same]
  · intro reached past
    rw [quayConsumerWrite_refused reached past, indexRefused]

end Sys2Proof.Machine
end

section
/-!
PROOF. The bollard operations (R416 to R418).
-/
namespace Sys2Proof.Machine

@[simp] theorem bolAdd_zero (b : Nat) (s : State) : bolAdd b 0 s = s := by
  rw [bolAdd, if_pos rfl]

/-- Settles O12: a delta of 0 takes the branch of ADD that leaves the whole state, and with it SAT_COUNT, as it was. -/
theorem bollardAddZeroHasNoEffect : Obligations.BollardAddZeroHasNoEffect :=
  fun s b => bolAdd_zero b s

end Sys2Proof.Machine
end
